-- ==== Sys2Proof/Word.lean ====
section
/-! DEFINITION. The word types of the machine: the byte, the 32-bit lane of a line (03 R63) and the 64-bit scalar (01 R20). -/

namespace Sys2Proof

/-- A byte of memory. -/
abbrev Byte := BitVec 8

/-- One of the eight 32-bit lanes of a line (03 R63). -/
abbrev Lane := BitVec 32

/-- A scalar register, an address or another 64-bit quantity. -/
abbrev Word := BitVec 64

end Sys2Proof
end

