-- ==== Sys2Proof/Syntax.lean ====
section
/-! DEFINITION. The instructions and events of the Vorhan VX-8: one constructor for each row of spec/opcode_table.json.
Instruction rows carry the encoded fields of their formats (03 R75 to R78, R84 to R87) as numbers; event rows, to which the
table gives no bits, carry the operands that the rule of the row names (which core, die, context, queue, link ...; DESIGN CHOICE, log entry 12). -/

namespace Sys2Proof

/-- The seven engines of a core (01 R20). -/
inductive Eng where
  | ce | ve | me | se | xl | xs | ke
  deriving DecidableEq, Repr

/-- One constructor for each row of the opcode table. Numbers are the raw field values. -/
inductive Instr where
  /-- NOP (R152). Control-engine no-operation; every field must be zero. -/
  | nop
  /-- ADD (R120). s[d] := (A + B) mod 2^64. -/
  | add (d a b : Nat)
  /-- SUB (R120). s[d] := (A - B) mod 2^64. -/
  | sub (d a b : Nat)
  /-- AND (R120). Bitwise AND of two scalars. -/
  | and (d a b : Nat)
  /-- OR (R120). Bitwise OR of two scalars. -/
  | or (d a b : Nat)
  /-- XOR (R120). Bitwise exclusive OR of two scalars. -/
  | xor (d a b : Nat)
  /-- SHL (R120). Logical left shift by s[b][5:0]. -/
  | shl (d a b : Nat)
  /-- SHR (R120). Logical right shift by s[b][5:0]. -/
  | shr (d a b : Nat)
  /-- SAR (R120). Arithmetic right shift by s[b][5:0]. -/
  | sar (d a b : Nat)
  /-- MUL (R120). Low 64 bits of the signed product. -/
  | mul (d a b : Nat)
  /-- MULH (R120). High 64 bits of the signed product. -/
  | mulh (d a b : Nat)
  /-- MULHN (R120). High 64 bits of the unsigned product. -/
  | mulhn (d a b : Nat)
  /-- DIV (R120). Signed division truncating toward zero, with defined results for zero divisor and overflow. -/
  | div (d a b : Nat)
  /-- DIVN (R120). Unsigned division; zero divisor gives all ones. -/
  | divn (d a b : Nat)
  /-- REM (R120). Signed remainder with defined zero-divisor and overflow results. -/
  | rem (d a b : Nat)
  /-- REMN (R120). Unsigned remainder; zero divisor gives A. -/
  | remn (d a b : Nat)
  /-- MIN (R120). Signed minimum of two scalars. -/
  | min (d a b : Nat)
  /-- MAX (R120). Signed maximum of two scalars. -/
  | max (d a b : Nat)
  /-- MINN (R120). Unsigned minimum of two scalars. -/
  | minn (d a b : Nat)
  /-- MAXN (R120). Unsigned maximum of two scalars. -/
  | maxn (d a b : Nat)
  /-- SLT (R120). 1 if signed A < B, else 0. -/
  | slt (d a b : Nat)
  /-- SLTN (R120). 1 if unsigned A < B, else 0. -/
  | sltn (d a b : Nat)
  /-- SEQ (R120). 1 if A = B, else 0. -/
  | seq (d a b : Nat)
  /-- CLZ (R120). Count of leading zero bits of s[a]. -/
  | clz (d a : Nat)
  /-- POPC (R120). Count of one bits of s[a]. -/
  | popc (d a : Nat)
  /-- BEXT (R122). Extracts a len-bit field of s[a] at bit s[b][5:0], zero-extended. -/
  | bext (d a b l : Nat)
  /-- BINS (R122). Inserts the low len bits of s[a] into s[d] at bit s[b][5:0]. -/
  | bins (d a b l : Nat)
  /-- BREV (R120). Reverses the 64 bits of s[a]. -/
  | brev (d a : Nat)
  /-- ADDI (R121). Adds a sign-extended 13-bit immediate. -/
  | addi (d a i : Nat)
  /-- ANDI (R121). ANDs with a sign-extended immediate. -/
  | andi (d a i : Nat)
  /-- ORI (R121). ORs with a sign-extended immediate. -/
  | ori (d a i : Nat)
  /-- XORI (R121). Exclusive-ORs with a sign-extended immediate. -/
  | xori (d a i : Nat)
  /-- SHLI (R121). Logical left shift by an immediate count 0-63. -/
  | shli (d a n : Nat)
  /-- SHRI (R121). Logical right shift by an immediate count 0-63. -/
  | shri (d a n : Nat)
  /-- SARI (R121). Arithmetic right shift by an immediate count 0-63. -/
  | sari (d a n : Nat)
  /-- SLTI (R121). 1 if signed A is below the immediate, else 0. -/
  | slti (d a i : Nat)
  /-- LDI (R121). Loads a sign-extended 13-bit immediate. -/
  | ldi (d i : Nat)
  /-- LDIW (R121). Loads a sign-extended 32-bit immediate from its continuation lane. -/
  | ldiw (d i : Nat)
  /-- LDIH (R121). Sets s[d] := imm32 || s[a][31:0]. -/
  | ldih (d a i : Nat)
  /-- MULI (R121). Low 64 bits of the signed product with an immediate. -/
  | muli (d a i : Nat)
  /-- LDS (R123). Scalar load through the L1 with range, alignment and translation checks. -/
  | lds (d a z i : Nat)
  /-- STS (R123). Scalar store into the write-back L1, appending to the dirty-line FIFO. -/
  | sts (d a z i : Nat)
  /-- LDA (R124). Acquire load from the coherence point of the page's scope. -/
  | lda (d a z i : Nat)
  /-- STL (R124). Release store after draining the dirty-line FIFO to its marker. -/
  | stl (d a z i : Nat)
  /-- FENCE (R125). Full fence: release then acquire at SYSTEM scope. -/
  | fence
  /-- FENCE_ACQ (R125). Acquire fence: L1 drops clean lines before later loads. -/
  | fenceAcq
  /-- FENCE_REL (R125). Release fence: drains the dirty-line FIFO at SYSTEM scope. -/
  | fenceRel
  /-- CFLUSH (R126). Writes back a dirty L1 line if present and invalidates it. -/
  | cflush (a i : Nat)
  /-- B (R128). Unconditional branch resolved by fetch. -/
  | b (o : Nat)
  /-- BC (R128). Conditional branch comparing two scalars. -/
  | bc (a b c o : Nat)
  /-- BZ (R128). Conditional branch comparing a scalar with zero. -/
  | bz (a c o : Nat)
  /-- CALL (R128). Branch that writes the return line address to s[d]. -/
  | call (d o : Nat)
  /-- RET (R128). Return to the line address in s[a]. -/
  | ret (a : Nat)
  /-- JR (R128). Computed jump to the line address in s[a]. -/
  | jr (a : Nat)
  /-- LOOP (R130). Starts a hardware loop level from iteration 0. -/
  | loop (l a o : Nat)
  /-- LOOPX (R130). Starts a hardware loop level from iteration s[a]. -/
  | loopx (l a o : Nat)
  /-- LCRD (R134). Reads a loop counter as the instruction sees it. -/
  | lcrd (d l : Nat)
  /-- LCRD_TRIPS (R134). Reads the trip count of a loop level. -/
  | lcrdTrips (d l : Nat)
  /-- STAGE (R137). Gives following lines a stage tag. -/
  | stage (n : Nat)
  /-- STAGE_SET (R137). Gives a stage tag and sets g0-g7 from s[a]. -/
  | stageSet (a n : Nat)
  /-- ROTB (R139). Sets the rotation base RRB := (s[a] + n) mod 16. -/
  | rotb (a n : Nat)
  /-- TKWAIT (R141). Waits for and takes one count of a token. -/
  | tkwait (k : Nat)
  /-- TKPOST (R141). Increments a token on completion. -/
  | tkpost (k : Nat)
  /-- TKSET (R141). Sets a token count to s[a]. -/
  | tkset (a k : Nat)
  /-- TKRD (R141). Reads a token count. -/
  | tkrd (d k : Nat)
  /-- MBRD (R142). Reads a mailbox into a scalar. -/
  | mbrd (d x : Nat)
  /-- MBWR (R142). Writes a scalar into a mailbox. -/
  | mbwr (a x : Nat)
  /-- BINIT (R348). Arms a barrier for a new generation at its port. -/
  | binit (a n : Nat)
  /-- BARV (R349). Releases and arrives at a barrier. -/
  | barv (n : Nat)
  /-- BWAIT (R350). Waits for the outcome of a barrier generation and acquires. -/
  | bwait (d n : Nat)
  /-- BDROP (R349). Arrives at a barrier for a party that will not wait. -/
  | bdrop (n : Nat)
  /-- BINVAL (R351). Makes a barrier DEAD and releases its waiters. -/
  | binval (n : Nat)
  /-- BTIME (R352). Sets the deadline of an armed barrier. -/
  | btime (a n : Nat)
  /-- CSRRD (R143). Reads a system register. -/
  | csrrd (d r : Nat)
  /-- CSRWR (R143). Writes a system register. -/
  | csrwr (a r : Nat)
  /-- PTCRD (R145). Reads the package time counter. -/
  | ptcrd (d : Nat)
  /-- TRAP (R146). Raises cause SOFTWARE with a code. -/
  | trap (c : Nat)
  /-- TRET (R147). Ends an in-image handler and restores the set-aside state. -/
  | tret
  /-- YIELD (R149). Pre-emption point taking a pending pre-emption. -/
  | yield
  /-- END (R150). Ends the member after draining and a SYSTEM release. -/
  | endK
  /-- HALT (R151). Halts the member for a debugger. -/
  | halt
  /-- EVPOST (R148). Appends an entry to the context's event ring. -/
  | evpost (a b : Nat)
  /-- BRK (R146). Raises BREAKPOINT to the event ring. -/
  | brk (n : Nat)
  /-- CTXSAVE (R395). Writes and seals holding cores' images into a cellar frame. -/
  | ctxsave (d a k : Nat)
  /-- CTXSAVE_PARK (R395). Copies frame images to the park area after writing back DEPARTED pages. -/
  | ctxsavePark (d a k : Nat)
  /-- CTXLOAD (R395). Loads a context's images from a frame onto the die's cores. -/
  | ctxload (d a k : Nat)
  /-- CTXLOAD_UNPARK (R395). Copies parked images back into a frame and verifies seals. -/
  | ctxloadUnpark (d a k : Nat)
  /-- CTXMAP (R396). Writes a barrier-map entry and invalidates map caches. -/
  | ctxmap (d a b : Nat)
  /-- PREEMPT (R394). Starts or joins a stop of a context. -/
  | preempt (d a : Nat)
  /-- PREEMPT_Y (R394). Makes a pre-emption pending at members' next YIELD. -/
  | preemptY (d a : Nat)
  /-- RESUME (R397). Makes the die ready for a loaded context. -/
  | resume (d a : Nat)
  /-- RESUME_M (R397). Resumes a halted member as after TRET. -/
  | resumeM (d a b : Nat)
  /-- RESUME_SKIP (R397). Resumes a halted member, completing the trapped instruction with no effect but its post. -/
  | resumeSkip (d a b : Nat)
  /-- RESUME_END (R397). Retires a halted member as under DISCARD. -/
  | resumeEnd (d a b : Nat)
  /-- ATADD (R263). Atomic add at an accumulator port. -/
  | atadd (d a b t : Nat)
  /-- ATMAX (R263). Atomic maximum at an accumulator port. -/
  | atmax (d a b t : Nat)
  /-- ATMIN (R263). Atomic minimum at an accumulator port. -/
  | atmin (d a b t : Nat)
  /-- ATXCHG (R263). Atomic exchange at an accumulator port. -/
  | atxchg (d a b t : Nat)
  /-- ATCAS (R263). Atomic compare-and-swap of raw bits. -/
  | atcas (d a b t c : Nat)
  /-- ATINCNZ (R263). Atomic increment of an unmarked count below its limit. -/
  | atincnz (d a t : Nat)
  /-- ATDEC (R263). Atomic decrement of an unmarked non-zero count. -/
  | atdec (d a t : Nat)
  /-- PGPIN (R325). Pins and holds a scratch page of a core's running context. -/
  | pgpin (d a b : Nat)
  /-- PGUNPIN (R325). Removes the hold from a scratch page. -/
  | pgunpin (d a b : Nat)
  /-- PGUNPIN_EV (R325). Removes the hold and evicts the scratch page. -/
  | pgunpinEv (d a b : Nat)
  /-- SLABFW_ST (R325). Starts growth of a linear slab. -/
  | slabfwSt (d a b : Nat)
  /-- SLABFW_MW (R325). Advances the moved watermark of a growing slab. -/
  | slabfwMw (d a b : Nat)
  /-- SLABFW_END (R325). Ends growth of a slab. -/
  | slabfwEnd (d a : Nat)
  /-- TLBINV_VA (R325). Invalidates cached entries on the walk of an address. -/
  | tlbinvVa (d a b : Nat)
  /-- TLBINV_CTX (R325). Invalidates every cached entry of a context. -/
  | tlbinvCtx (d b : Nat)
  /-- TLBINV_SLAB (R325). Invalidates cached descriptors of a slab. -/
  | tlbinvSlab (d a b : Nat)
  /-- TLBINV_ALL (R325). Invalidates every cached entry of every context. -/
  | tlbinvAll (d : Nat)
  /-- VADD (R176). Element-wise addition under VSHAPE. -/
  | vadd (d a b p q m : Nat)
  /-- VSUB (R176). Element-wise subtraction. -/
  | vsub (d a b p q m : Nat)
  /-- VMUL (R176). Element-wise multiplication. -/
  | vmul (d a b p q m : Nat)
  /-- VFMA (R180). Fused a×b+c with one rounding. -/
  | vfma (d a b p q m c u : Nat)
  /-- VFMS (R180). Fused a×b−c with one rounding. -/
  | vfms (d a b p q m c u : Nat)
  /-- VFNMA (R180). Fused −(a×b)+c with one rounding. -/
  | vfnma (d a b p q m c u : Nat)
  /-- VMIN (R177). Element-wise minimum with NaN and signed-zero ranking. -/
  | vmin (d a b p q m : Nat)
  /-- VMAX (R177). Element-wise maximum with NaN and signed-zero ranking. -/
  | vmax (d a b p q m : Nat)
  /-- VABS (R178). Element-wise absolute value. -/
  | vabs (d a p m : Nat)
  /-- VNEG (R178). Element-wise negation. -/
  | vneg (d a p m : Nat)
  /-- VCMP (R181). Element-wise comparison writing a mask. -/
  | vcmp (d a b p q m cc : Nat)
  /-- VSEL (R182). Selects raw bits of a or b by a mask. -/
  | vsel (d a b p q s : Nat)
  /-- VCLAMP (R177). Element-wise clamp between b and c. -/
  | vclamp (d a b p q m c u : Nat)
  /-- VAND (R176). Bitwise AND of raw element bits. -/
  | vand (d a b p q m : Nat)
  /-- VOR (R176). Bitwise OR of raw element bits. -/
  | vor (d a b p q m : Nat)
  /-- VXOR (R176). Bitwise exclusive OR of raw element bits. -/
  | vxor (d a b p q m : Nat)
  /-- VNOT (R176). Bitwise NOT of raw element bits. -/
  | vnot (d a p m : Nat)
  /-- VSHL (R179). Element-wise left shift. -/
  | vshl (d a b p q m : Nat)
  /-- VSHR (R179). Element-wise logical right shift. -/
  | vshr (d a b p q m : Nat)
  /-- VSAR (R179). Element-wise arithmetic right shift. -/
  | vsar (d a b p q m : Nat)
  /-- VADDS (R176). Saturating integer addition. -/
  | vadds (d a b p q m : Nat)
  /-- VSUBS (R176). Saturating integer subtraction. -/
  | vsubs (d a b p q m : Nat)
  /-- VMULH (R176). High half of the exact integer product. -/
  | vmulh (d a b p q m : Nat)
  /-- VCMUL (R183). Complex multiplication. -/
  | vcmul (d a b p q m : Nat)
  /-- VCMAC (R183). Complex multiply-accumulate. -/
  | vcmac (d a b p q m c u : Nat)
  /-- VCMULJ (R183). Complex multiplication by the conjugate. -/
  | vcmulj (d a b p q m : Nat)
  /-- VCMACJ (R183). Complex conjugate multiply-accumulate. -/
  | vcmacj (d a b p q m c u : Nat)
  /-- VCONJ (R183). Complex conjugate. -/
  | vconj (d a p m : Nat)
  /-- VCABS2 (R183). Squared magnitude of complex values. -/
  | vcabs2 (d a p m : Nat)
  /-- VSHAPE (R167). Sets the tile shape and element type. -/
  | vshape (r c t : Nat)
  /-- VMOV (R184). Copies raw element bits. -/
  | vmov (d a p m : Nat)
  /-- VBCAST_MAILBOX (R185). Broadcasts a mailbox value over the shape. -/
  | vbcastMailbox (d n m : Nat)
  /-- VBCAST_ELEM (R185). Broadcasts element (0, j) of a tile. -/
  | vbcastElem (d a j p m : Nat)
  /-- VBCAST_ROW (R185). Broadcasts row i of a tile to every row. -/
  | vbcastRow (d a i p m : Nat)
  /-- VBCAST_COL (R185). Broadcasts column j of a tile to every column. -/
  | vbcastCol (d a j p m : Nat)
  /-- VIOTA (R186). Writes column, row or linear indices. -/
  | viota (d k m : Nat)
  /-- VTRANS (R184). Transposes a tile. -/
  | vtrans (d a p m : Nat)
  /-- VLD (R192). Loads a tile image from scratch. -/
  | vld (v a s e l i m : Nat)
  /-- VST (R192). Stores a tile image to scratch. -/
  | vst (v a s e l i m : Nat)
  /-- VLDR (R194). Pops a ring slot into a tile and shifts the tap chain. -/
  | vldr (d q m : Nat)
  /-- VSTR (R193). Pushes a tile image into a ring slot. -/
  | vstr (v q m : Nat)
  /-- VMSK_COPY (R187). Mask copy restricted to the shape. -/
  | vmskCopy (n s : Nat)
  /-- VMSK_NOT (R187). Mask complement restricted to the shape. -/
  | vmskNot (n s : Nat)
  /-- VMSK_NZ (R187). Mask of non-zero elements of a tile. -/
  | vmskNz (n a p s : Nat)
  /-- VMSK_COLS (R187). Mask of the first n columns. -/
  | vmskCols (n c s : Nat)
  /-- VMSK_ROWS (R187). Mask of the first n rows. -/
  | vmskRows (n c s : Nat)
  /-- VMSK_AND (R187). AND of two masks. -/
  | vmskAnd (n k s : Nat)
  /-- VMSK_OR (R187). OR of two masks. -/
  | vmskOr (n k s : Nat)
  /-- VMCNT (R188). Counts mask bits in the shape into a mailbox. -/
  | vmcnt (k x : Nat)
  /-- VTOX (R189). Copies element (0, j) into a mailbox. -/
  | vtox (a j x p : Nat)
  /-- VEXP2 (R198). Correctly rounded 2^x per element. -/
  | vexp2 (d a p m : Nat)
  /-- VEXP (R198). Correctly rounded e^x per element. -/
  | vexp (d a p m : Nat)
  /-- VLOG2 (R198). Correctly rounded log2 per element. -/
  | vlog2 (d a p m : Nat)
  /-- VLN (R198). Correctly rounded natural log per element. -/
  | vln (d a p m : Nat)
  /-- VRCP (R198). Correctly rounded reciprocal per element. -/
  | vrcp (d a p m : Nat)
  /-- VRSQ (R198). Correctly rounded reciprocal square root per element. -/
  | vrsq (d a p m : Nat)
  /-- VSQRT (R198). Correctly rounded square root per element. -/
  | vsqrt (d a p m : Nat)
  /-- VSIGM (R198). Sigmoid by the sequence of R55. -/
  | vsigm (d a p m : Nat)
  /-- VSOFTP (R198). Softplus by the sequence of R55. -/
  | vsoftp (d a p m : Nat)
  /-- VTANH (R198). Tanh by the sequence of R55. -/
  | vtanh (d a p m : Nat)
  /-- VDIV (R199). Correctly rounded element-wise division. -/
  | vdiv (d a b p q m : Nat)
  /-- VREDS (R201). Pairwise-tree sum of each row or column. -/
  | vreds (d a r p s : Nat)
  /-- VREDM (R202). Maximum value of each line. -/
  | vredm (d a r p s : Nat)
  /-- VREDM_IDX (R202). Index of the maximum of each line. -/
  | vredmIdx (d a r p s : Nat)
  /-- VREDN (R202). Minimum value of each line. -/
  | vredn (d a r p s : Nat)
  /-- VREDN_IDX (R202). Index of the minimum of each line. -/
  | vrednIdx (d a r p s : Nat)
  /-- VSCANS (R203). Inclusive or exclusive running sums along each line. -/
  | vscans (d a e r p s : Nat)
  /-- VKEY (R204). Order-preserving unsigned keys of raw elements. -/
  | vkey (d a k p m : Nat)
  /-- VHIST (R205). 256-bin histogram of one key byte under a filter. -/
  | vhist (d a c k b p m : Nat)
  /-- VPERMB (R206). Permutes the bytes of each storage row. -/
  | vpermb (d a b p q m : Nat)
  /-- VBITG (R207). Gathers bits selected by b. -/
  | vbitg (d a b p q m : Nat)
  /-- VBITS (R207). Scatters bits to places selected by b. -/
  | vbits (d a b p q m : Nat)
  /-- VSHUF (R208). Rearranges row elements by control bytes. -/
  | vshuf (d a b p q m : Nat)
  /-- VCOMP (R209). Packs selected elements together. -/
  | vcomp (d a k r p s : Nat)
  /-- VEXPD (R209). Spreads packed elements to selected places. -/
  | vexpd (d a k r p s : Nat)
  /-- VCVT (R211). Converts elements between formats with scale and DSR. -/
  | vcvt (d a o p m st dt rnd sx imm : Nat)
  /-- VPACK (R212). Packs floating elements into VB blocks. -/
  | vpack (d a p m st dt rnd sx imm : Nat)
  /-- VUNPK (R213). Decodes VB blocks. -/
  | vunpk (d a p m st dt rnd sx imm : Nat)
  /-- VSRND (R214). Rounds FP32 values to a narrower grid, kept in FP32. -/
  | vsrnd (d a p m st dt rnd sx imm : Nat)
  /-- VQNT (R215). Quantises with an element-wise multiplier. -/
  | vqnt (d a b p q m st dt rnd sx imm : Nat)
  /-- MM (R252). Matrix product from two rings into accumulator SRAM. -/
  | mm (qa qb md fi ta tb m n k acc : Nat)
  /-- MMC (R254). Co-operative matrix product over a block of cores. -/
  | mmc (qa qb md fi ta tb m n k acc cr cc : Nat)
  /-- MMT (R252). Matrix product with a transposed B panel. -/
  | mmt (qa qb md fi ta tb m n k acc : Nat)
  /-- ACZERO (R258). Fills an accumulator region with +0, −∞ or +∞. -/
  | aczero (fn acc rows cols : Nat)
  /-- ACDRAIN (R258). Converts a region and pushes it as panels. -/
  | acdrain (q dt fn acc rows cols : Nat)
  /-- ACSMX (R259). Online softmax update of a frame, pushing p panels. -/
  | acsmx (q dt dd acc rows cols : Nat)
  /-- ACSCALE (R258). Multiplies a region by a factor word. -/
  | acscale (acc rows cols : Nat)
  /-- ACNORM (R260). Divides a frame's O by l. -/
  | acnorm (acc rows cols : Nat)
  /-- ACMOV (R258). Pops panels and writes them into a region at the port. -/
  | acmov (q dt fn acc rows cols : Nat)
  /-- SCDR (R293). Sequential diagonal real state update of a segment. -/
  | scdr (qi qo flip emit g slot lay n : Nat)
  /-- SCDC (R293). Sequential diagonal complex state update. -/
  | scdc (qi qo flip emit g slot lay n : Nat)
  /-- SCGK (R293). Sequential gated rank-1 state update. -/
  | scgk (qi qo flip emit g slot lay n : Nat)
  /-- SCCH (R296). Chunked-prefix advance of a segment by n steps. -/
  | scch (qi qo flip emit g slot lay n : Nat)
  /-- SCOUT (R297). Pushes a readout panel of a segment. -/
  | scout (qo pend g slot lay : Nat)
  /-- SCMODE (R288). Writes SCMODE from an immediate. -/
  | scmode (i : Nat)
  /-- KRIN (R280). Racks cask layers into a slot. -/
  | krin (d a b : Nat)
  /-- KROUT (R280). Racks a slot back out to HBM. -/
  | krout (d b : Nat)
  /-- KSNAP (R283). Makes a parked cask a snapshot. -/
  | ksnap (d a : Nat)
  /-- KFORK (R284). Makes a child cask sharing a snapshot's banks. -/
  | kfork (d a b : Nat)
  /-- KROLL_C (R286). Discards pending writes of a slot and settles. -/
  | krollC (d b : Nat)
  /-- KROLL_P (R286). Settles every slice of a parked cask. -/
  | krollP (d a : Nat)
  /-- KROLL_S (R286). Rewrites a cask as a fork of a snapshot. -/
  | krollS (d a b : Nat)
  /-- KCOMMIT (R286). Advances COMMITW when every mirror has reached it. -/
  | kcommit (d a b : Nat)
  /-- KATTACH (R285). ATINCNZ on a cask's REF word. -/
  | kattach (d a : Nat)
  /-- KDETACH (R285). ATDEC on a cask's REF word. -/
  | kdetach (d a : Nat)
  /-- KSTAT_SLOT (R281). Reports a slot's status at once. -/
  | kstatSlot (d b : Nat)
  /-- KSTAT_CASK (R281). Reports a cask's STATE and COMMITW. -/
  | kstatCask (d a : Nat)
  /-- KWAIT (R281). Waits until a slot is EMPTY, RESIDENT or ACTIVE and reports it. -/
  | kwait (d b : Nat)
  /-- XLD (R229). Copies a row rectangle from device memory into scratch. -/
  | xld (a b c : Nat)
  /-- XLD_ACQ (R229). Acquire form of XLD. -/
  | xldAcq (a b c : Nat)
  /-- XLDR (R230). Pushes a row rectangle from memory into a ring. -/
  | xldr (b c q : Nat)
  /-- XGATH (R231). Gathers indexed rows into scratch. -/
  | xgath (a b c : Nat)
  /-- XCPY (R232). Issues a bulk asynchronous copy on a copy slot. -/
  | xcpy (a b c t s : Nat)
  /-- XFENCE_XL (R237). Load-half fence waiting for earlier XL, XS and copies. -/
  | xfenceXl
  /-- XMSGRX (R242). Takes the oldest inbox message of a channel into scratch. -/
  | xmsgrx (a h : Nat)
  /-- XST (R233). Copies a row rectangle from scratch to device memory. -/
  | xst (a b c : Nat)
  /-- XST_RING (R233). Pops a ring slot and stores it to device memory. -/
  | xstRing (b c q : Nat)
  /-- XSTA (R234). Copies accumulator words raw to device memory. -/
  | xsta (a b c : Nat)
  /-- XSCAT (R235). Scatters scratch rows to indexed places. -/
  | xscat (a b c : Nat)
  /-- XHRING (R238). Appends entries to a host ring and advances its index. -/
  | xhring (a b c : Nat)
  /-- XFENCE_XS (R237). Store-half fence waiting for earlier XL, XS and copies. -/
  | xfenceXs
  /-- XMSGTX (R241). Sends a 64-byte token message to an inbox channel. -/
  | xmsgtx (a b c h : Nat)
  /-- XSTREL (R236). Store-release of an 8-byte value. -/
  | xstrel (a b : Nat)
  /-- CTRI (R427). Arrives at a collective instance reducing softmax triples. -/
  | ctri (a b all ch cnt dd : Nat)
  /-- CHIST (R428). Arrives at a team-summed histogram instance. -/
  | chist (a b c all ch dt cnt mass bb : Nat)
  /-- CMAXI (R429). Arrives at a team argmax or argmin instance. -/
  | cmaxi (a b all ch dt cnt mn : Nat)
  /-- CSUM (R430). Arrives at a team element-wise sum instance. -/
  | csum (a b c all ch dt cnt : Nat)
  /-- CBCAST (R431). Arrives at a team broadcast instance. -/
  | cbcast (a b ch cnt root : Nat)
  /-- CWAIT (R432). Waits until undelivered instances of a channel fall to s[a]. -/
  | cwait (a h : Nat)
  /-- FETCH_LINE (R90). Fetch checks a line and deals its instructions to the engine queues. -/
  | fetchLine (core : Nat)
  /-- HELD_POST (R71). A token post held at 63 takes place once the count falls below 63. -/
  | heldPost (core eng : Nat)
  /-- TRAP_DELIVERY (R388). After engines drain, a trap enters the handler or halts the member. -/
  | trapDelivery (core : Nat)
  /-- MM_SLICE (R252). The ME performs one K-slice once its panels are FILLED. -/
  | mmSlice (core : Nat)
  /-- SCAN_STEP (R295). The SE performs one sequential step once its input slot is FILLED. -/
  | scanStep (core : Nat)
  /-- COMMIT_WAIT_RECHECK (R275). A step write re-reads COMMITW every 64 clocks while LSTEP exceeds it. -/
  | commitWaitRecheck (core : Nat)
  /-- RACK_IN_COMPLETE (R280). A KRIN copy finishes, settles slices and the slot becomes RESIDENT. -/
  | rackInComplete (core slot n : Nat)
  /-- RACK_OUT_COMPLETE (R280). A KROUT write-back finishes and the slot becomes EMPTY. -/
  | rackOutComplete (core slot n : Nat)
  /-- XCPY_COMPLETE (R232). A bulk copy finishes, releases its copy slot and posts. -/
  | xcpyComplete (core copy n : Nat)
  /-- TRANSFER_COMPLETE (R332). A transfer instruction's accesses are performed and it completes. -/
  | transferComplete (core half n : Nat)
  /-- PORT_OPERATION (R266). A port operation arrives at an accumulator port and is performed. -/
  | portOperation (core : Nat)
  /-- PORT_REPLY (R265). The reply of an atomic or barrier operation returns and completes the instruction. -/
  | portReply (core : Nat)
  /-- BWAIT_NOTIFICATION (R350). The port notifies a waiting BWAIT that its generation has an outcome. -/
  | bwaitNotification (core : Nat)
  /-- BARRIER_DEADLINE (R346). The port completes an armed barrier when PTC reaches its deadline. -/
  | barrierDeadline (core off : Nat)
  /-- MESSAGE_ARRIVAL (R241). A token message enters the destination inbox channel. -/
  | messageArrival (core : Nat)
  /-- INSTANCE_BEGIN (R421). A collective instance begins once every team member has issued. -/
  | instanceBegin (group c ch : Nat)
  /-- INSTANCE_DELIVERY (R421). Result writes of an instance are performed and delivery counts rise. -/
  | instanceDelivery (group c ch : Nat)
  /-- SCRATCH_REFILL_COMPLETE (R316). A scratch page refill finishes and the page is PINNED. -/
  | scratchRefillComplete (core page : Nat)
  /-- SCRATCH_WRITEBACK_COMPLETE (R316). A scratch page write-back finishes and the page is UNPINNED. -/
  | scratchWritebackComplete (core page : Nat)
  /-- INVALIDATION_ACK (R314). A die acknowledges an invalidation; the eighth completes it. -/
  | invalidationAck (inv die : Nat)
  /-- STOP_COMPLETE (R381). Every core of the arc holds the stopped context. -/
  | stopComplete (ctx : Nat)
  /-- STOP_TIMEOUT (R391). A stop unfinished after 20 µs resets the arc's cores. -/
  | stopTimeout (ctx : Nat)
  /-- TEXT_LOAD_COMPLETE (R158). A core finishes loading kernel text; the last starts the members. -/
  | textLoadComplete (group rank : Nat)
  /-- LAUNCH_AT_START (R362). Members of a LAUNCH.AT start when PTC reaches AT. -/
  | launchAtStart (group : Nat)
  /-- LAUNCH_RETRY (R156). The dispatcher retries a waiting LAUNCH when quarters or kernel entries free. -/
  | launchRetry (queue : Nat)
  /-- DISPATCHER_CHOICE (R366). Every 16 clocks the dispatcher chooses one candidate command to start. -/
  | dispatcherChoice
  /-- ACCEPT_COMMAND (R363). The dispatcher reads, checks and journals a committed command. -/
  | acceptCommand (queue : Nat)
  /-- WATCHDOG (R371). Queue watchdog expiry pre-empts and faults the context. -/
  | watchdog (queue : Nat)
  /-- EVENT_RECORD_APPEND (R498). A record waiting in the dispatcher is appended when its ring has room. -/
  | eventRecordAppend (ctx : Nat)
  /-- COALESCING_TIMEOUT (R373). A ring's TIME interval passes and its MSI-X vector is signalled. -/
  | coalescingTimeout (ctx ring : Nat)
  /-- MSIX_UNMASK (R416). Unmasking a vector with its pending bit set sends one message. -/
  | msixUnmask (vec : Nat)
  /-- CMD_NOP (R361). Queue command that completes on starting. -/
  | cmdNop (queue : Nat)
  /-- LAUNCH (R362). Queue command forming a group that runs a kernel. -/
  | launch (queue : Nat)
  /-- LAUNCH_AT (R362). LAUNCH whose members start at a PTC tick. -/
  | launchAt (queue : Nat)
  /-- COPY (R362). Queue command copying memory as xcpy.mm. -/
  | copy (queue n : Nat)
  /-- FILL (R362). Queue command filling memory with a pattern. -/
  | fill (queue n : Nat)
  /-- SIGNAL (R362). Queue command making one anonymous barrier arrival. -/
  | signal (queue : Nat)
  /-- WAIT (R362). Queue command waiting for a barrier outcome. -/
  | wait (queue : Nat)
  /-- COND (R368). Queue command re-arming its span while an accumulator condition holds. -/
  | cond (queue : Nat)
  /-- TIMESTAMP (R362). Queue command writing PTC to memory. -/
  | timestamp (queue : Nat)
  /-- HOSTRING (R362). Queue command configuring and emptying a host or event ring. -/
  | hostring (queue : Nat)
  /-- CASKOP (R362). Queue command performing a cask KE operation and writing its result. -/
  | caskop (queue : Nat)
  /-- COMMIT_WRITE (R359). Host doorbell write of COMMIT that starts acceptance or faults the queue. -/
  | commitWrite (queue v : Nat)
  /-- QCFG_WRITE (R358). Queue configuration write, taken only while DISABLED. -/
  | qcfgWrite (queue v : Nat)
  /-- QCTL_ENABLE (R359). Enables a DISABLED queue and zeroes its counts. -/
  | qctlEnable (queue : Nat)
  /-- QCTL_PAUSE (R359). Stops further command starts. -/
  | qctlPause (queue : Nat)
  /-- QCTL_RESUME (R359). Resumes starts of a PAUSED or FAULTED queue. -/
  | qctlResume (queue : Nat)
  /-- QCTL_RESET (R359). Returns a queue with RUN = 0 to DISABLED. -/
  | qctlReset (queue : Nat)
  /-- QCTL_REWIND (R370). Sets ACCEPT back to a journal entry for replay. -/
  | qctlRewind (queue seq : Nat)
  /-- CDESC_WRITE (R374). Writes a context's descriptor address, discarded unless FREE. -/
  | cdescWrite (ctx v : Nat)
  /-- CREATE (R380). Creates a context from its descriptor. -/
  | create (ctx : Nat)
  /-- BIND (R380). Binds a context to a partition arc. -/
  | bind (ctx : Nat)
  /-- UNBIND (R378). Unbinds a BOUND context. -/
  | unbind (ctx : Nat)
  /-- REBIND (R380). Moves a PARKED context to another arc of the same shape. -/
  | rebind (ctx : Nat)
  /-- CLEAR (R378). Clears a context fault back to SAVED or PARKED. -/
  | clear (ctx : Nat)
  /-- DISCARD (R380). Ends a faulted context's groups keeping accumulator blocks. -/
  | discard (ctx : Nat)
  /-- DESTROY (R380). Tears down a context and frees it. -/
  | destroy (ctx : Nat)
  /-- REGISTER_WRITE (R10). Host write to a register without a row of its own. -/
  | registerWrite (bar off v : Nat)
  /-- HOST_MEMORY_WRITE (R338). A host write to device memory performed at the home L2. -/
  | hostMemoryWrite (space addr v : Nat)
  /-- HOST_MEMORY_READ (R327). A host read of device memory over the host link. -/
  | hostMemoryRead (space addr : Nat)
  /-- LINK_ENABLE (R410). The Trifort die enables a link, which starts training. -/
  | linkEnable (link : Nat)
  /-- TRAINING_COMPLETE (R410). Link training completes and the link attests. -/
  | trainingComplete (link : Nat)
  /-- TRAINING_FAILURE (R410). Link training fails; after 3 failures the link goes DOWN. -/
  | trainingFailure (link : Nat)
  /-- PSK_EXCHANGE (R443). SPDM PSK exchange between a trellis link's end blocks. -/
  | pskExchange (link : Nat)
  /-- PSK_FINISH (R443). SPDM PSK finish that completes link attestation. -/
  | pskFinish (link ok : Nat)
  /-- KEY_DELIVERY (R412). The Trifort die delivers a link key and the receiver installs it. -/
  | keyDelivery (link dir : Nat)
  /-- ROUTE_TABLE (R409). A die receives new routes and drains and switches changed pairs. -/
  | routeTable (die : Nat)
  /-- DATA (R407). A DATA flit is received, checked, performed in ESEQ order and acknowledged. -/
  | data (link dir vc cls dst bad roff v : Nat)
  /-- IDLE (R401). An IDLE flit is received and checked. -/
  | idle (link dir : Nat)
  /-- HOLD (R404). A HOLD flit stops sending on a VC and class. -/
  | hold (link dir vc cls : Nat)
  /-- RELEASE (R404). A RELEASE flit resumes sending on a VC and class. -/
  | release (link dir vc cls : Nat)
  /-- MGMT (R440). A management flit is received on VC3. -/
  | mgmt (link dir : Nat)
  /-- KEYACK (R412). The sender switches to the new key at the next flit boundary. -/
  | keyack (link dir : Nat)
  /-- LACK (R402). A link acknowledgement retires flits or, with NAK, starts a replay. -/
  | lack (link dir nak : Nat)
  /-- DRAIN (R409). A DRAIN flit clears an old route before the pair switches. -/
  | drain (src dst : Nat)
  /-- FCNT_LIMIT (R411). A direction's flit count reaches the rekey threshold or the key limit. -/
  | fcntLimit (link dir : Nat)
  /-- LCTL_REKEY_DIR0 (R413). Starts a rekey of direction 0 of a link. -/
  | lctlRekeyDir0 (link : Nat)
  /-- LCTL_REKEY_DIR1 (R413). Starts a rekey of direction 1 of a link. -/
  | lctlRekeyDir1 (link : Nat)
  /-- RETRAIN (R413). Takes a link DOWN to retrain. -/
  | retrain (link : Nat)
  /-- IDE_KM (R415). IDE key management message keying a selective stream. -/
  | ideKm (ses stream : Nat)
  /-- GET_VERSION (R444). SPDM version request. -/
  | getVersion
  /-- GET_CAPABILITIES (R444). SPDM capabilities request. -/
  | getCapabilities
  /-- NEGOTIATE_ALGORITHMS (R444). SPDM algorithm negotiation. -/
  | negotiateAlgorithms (asym hash dhe aead : Nat)
  /-- CHALLENGE (R444). SPDM challenge signed with the boot tree. -/
  | challenge (slot : Nat)
  /-- GET_MEASUREMENTS (R444). SPDM measurement request. -/
  | getMeasurements (idx sig : Nat)
  /-- KEY_EXCHANGE (R444). SPDM session key exchange. -/
  | keyExchange (who : Nat)
  /-- FINISH (R444). SPDM session finish with mutual authentication. -/
  | finish (ses ok : Nat)
  /-- HEARTBEAT (R444). SPDM session heartbeat. -/
  | heartbeat (ses : Nat)
  /-- KEY_UPDATE (R444). SPDM session key update. -/
  | keyUpdate (ses : Nat)
  /-- END_SESSION (R444). SPDM session end. -/
  | endSession (ses : Nat)
  /-- CHUNK_SEND (R444). SPDM chunked request transfer. -/
  | chunkSend (handle seq chunk : Nat)
  /-- CHUNK_GET (R444). SPDM chunked response retrieval. -/
  | chunkGet (handle seq : Nat)
  /-- UNSUPPORTED_REQUEST (R444). An unsupported SPDM request answered with ERROR UnsupportedRequest. -/
  | unsupportedRequest (code : Nat)
  /-- KEYSET (R446). Vendor request installing a memory-encryption key for a context. -/
  | keyset (ses key ctx mode val : Nat)
  /-- KEYRETIRE (R446). Vendor request retiring a memory-encryption key. -/
  | keyretire (ses key : Nat)
  /-- ROOTADD (R445). Vendor request programming an owner-root slot. -/
  | rootadd (ses slot kind val : Nat)
  /-- ROOTREVOKE (R445). Vendor request revoking an owner-root slot. -/
  | rootrevoke (ses slot : Nat)
  /-- DIERESET (R442). Vendor request resetting a C-die. -/
  | diereset (ses die : Nat)
  /-- STATUS (R445). Vendor request returning TSTAT. -/
  | status (ses : Nat)
  /-- DIE_KEY_ACK (R446). A die acknowledges a key-table change. -/
  | dieKeyAck (die : Nat)
  /-- POWER_UP (R488). Module power-up starts the boot ROM and bring-up. -/
  | powerUp
  /-- POWER_OFF (R488). Module power removal loses all volatile state. -/
  | powerOff
  /-- MEASUREMENT_REPLY (R441). A held die's measurement reply is judged and the die released or quarantined. -/
  | measurementReply (die reply : Nat)
  /-- MEASUREMENT_TIMEOUT (R441). A die silent for 1 ms fails measurement. -/
  | measurementTimeout (die : Nat)
  /-- CONTROL_LOGIC_FAULT (R442). An uncorrectable fault in a die's control logic puts it into reset. -/
  | controlLogicFault (die : Nat)
  /-- DIE_RESET_COMPLETE (R442). A die's reset completes and it is measured again. -/
  | dieResetComplete (die : Nat)
  /-- PPS_EDGE (R495). An accepted 1PPS edge latches PTC and may adjust the pending offset. -/
  | ppsEdge (falling : Nat)
  /-- PPS_MISS (R495). 1.001 s without an edge counts a miss. -/
  | ppsMiss
  /-- PTC_SLEW (R494). The slew interval passes and one nanosecond of PEND is applied. -/
  | ptcSlew
  /-- PTCADJ_WRITE (R494). Adds a signed offset to PEND. -/
  | ptcadjWrite (v : Nat)
  /-- PTCSTEP_WRITE (R494). Steps PTC forward while every tenant context is FREE. -/
  | ptcstepWrite (v : Nat)
  /-- PTCRATE_WRITE (R493). Sets the frequency trim, clamped. -/
  | ptcrateWrite (v : Nat)
  /-- PTCCFG_WRITE (R493). Configures 1PPS phase, slew limit and edge handling. -/
  | ptccfgWrite (v : Nat)
  /-- PWRCAP_WRITE (R490). Writes the power cap and requested DVFS point. -/
  | pwrcapWrite (v : Nat)
  /-- DVFS_POINT_CHANGE (R491). The power controller moves every die to a new DVFS point or gates ME issue. -/
  | dvfsPointChange (point gate meas : Nat)
  /-- ARRAY_POWER_DOWN (R492). A matrix array idle for 1 µs powers down. -/
  | arrayPowerDown (core : Nat)
  /-- ARRAY_WAKE_WAVE (R492). A wave of matrix arrays powers up 64 ns after the previous one. -/
  | arrayWakeWave (die row : Nat)
  /-- ERROR_REGISTER_WRITE (R496). Writes every field of a die's error register. -/
  | errorRegisterWrite (die v : Nat)
  /-- STAIL_WRITE (R418). Raises a scale-out port's send tail. -/
  | stailWrite (port v : Nat)
  /-- SEND_DESCRIPTOR (R419). A scale-out port processes one send descriptor. -/
  | sendDescriptor (port : Nat)
  /-- UNASSIGNED_OPCODE (R88). An instruction whose OP is unassigned for its engine reaches the head of its stream and traps ILLEGAL_OP. -/
  | unassignedOpcode
  /-- COPY_PAGE_FAULT (R232). A running XCPY reaches a page that fails translation, stops at that page's first sector, and traps the XL at the instruction then at its head. -/
  | copyPageFault (core copy : Nat)
  /-- WRITE_FORWARD (R330). The memory port or the die's ordering point forwards a write it holds toward the home L2, performing it at the next coherence point. -/
  | writeForward (stage idx line : Nat)
  /-- SCHEDULED_REKEY (R411). The Trifort die's rekey schedule starts a rekey of a link direction. -/
  | scheduledRekey (link dir : Nat)
  deriving DecidableEq, Repr

end Sys2Proof
end

