-- ==== Sys2Proof/WellFormed.lean ====
section
/-! DEFINITION. Well-formed instructions: every field fits its bits and holds no reserved value
(03 R76, R80 to R83 and the rows of the instruction chapters; check 4 of R88). -/

namespace Sys2Proof

/-- The fields of an instruction hold values that its encoding admits and no reserved value (R83).
Event rows have no encoding and no limit here. -/
def wellFormed (i : Instr) : Bool :=
  match i with
  | .nop => true
  | .add d a b => decide (d < 64 ∧ a < 64 ∧ b < 64)
  | .sub d a b => decide (d < 64 ∧ a < 64 ∧ b < 64)
  | .and d a b => decide (d < 64 ∧ a < 64 ∧ b < 64)
  | .or d a b => decide (d < 64 ∧ a < 64 ∧ b < 64)
  | .xor d a b => decide (d < 64 ∧ a < 64 ∧ b < 64)
  | .shl d a b => decide (d < 64 ∧ a < 64 ∧ b < 64)
  | .shr d a b => decide (d < 64 ∧ a < 64 ∧ b < 64)
  | .sar d a b => decide (d < 64 ∧ a < 64 ∧ b < 64)
  | .mul d a b => decide (d < 64 ∧ a < 64 ∧ b < 64)
  | .mulh d a b => decide (d < 64 ∧ a < 64 ∧ b < 64)
  | .mulhn d a b => decide (d < 64 ∧ a < 64 ∧ b < 64)
  | .div d a b => decide (d < 64 ∧ a < 64 ∧ b < 64)
  | .divn d a b => decide (d < 64 ∧ a < 64 ∧ b < 64)
  | .rem d a b => decide (d < 64 ∧ a < 64 ∧ b < 64)
  | .remn d a b => decide (d < 64 ∧ a < 64 ∧ b < 64)
  | .min d a b => decide (d < 64 ∧ a < 64 ∧ b < 64)
  | .max d a b => decide (d < 64 ∧ a < 64 ∧ b < 64)
  | .minn d a b => decide (d < 64 ∧ a < 64 ∧ b < 64)
  | .maxn d a b => decide (d < 64 ∧ a < 64 ∧ b < 64)
  | .slt d a b => decide (d < 64 ∧ a < 64 ∧ b < 64)
  | .sltn d a b => decide (d < 64 ∧ a < 64 ∧ b < 64)
  | .seq d a b => decide (d < 64 ∧ a < 64 ∧ b < 64)
  | .clz d a => decide (d < 64 ∧ a < 64)
  | .popc d a => decide (d < 64 ∧ a < 64)
  | .bext d a b l => decide (d < 64 ∧ a < 64 ∧ b < 64 ∧ l < 64)
  | .bins d a b l => decide (d < 64 ∧ a < 64 ∧ b < 64 ∧ l < 64)
  | .brev d a => decide (d < 64 ∧ a < 64)
  | .addi d a i => decide (d < 64 ∧ a < 64 ∧ i < 8192)
  | .andi d a i => decide (d < 64 ∧ a < 64 ∧ i < 8192)
  | .ori d a i => decide (d < 64 ∧ a < 64 ∧ i < 8192)
  | .xori d a i => decide (d < 64 ∧ a < 64 ∧ i < 8192)
  | .shli d a n => decide (d < 64 ∧ a < 64 ∧ n < 64)
  | .shri d a n => decide (d < 64 ∧ a < 64 ∧ n < 64)
  | .sari d a n => decide (d < 64 ∧ a < 64 ∧ n < 64)
  | .slti d a i => decide (d < 64 ∧ a < 64 ∧ i < 8192)
  | .ldi d i => decide (d < 64 ∧ i < 8192)
  | .ldiw d i => decide (d < 64 ∧ i < 4294967296)
  | .ldih d a i => decide (d < 64 ∧ a < 64 ∧ i < 4294967296)
  | .muli d a i => decide (d < 64 ∧ a < 64 ∧ i < 8192)
  | .lds d a z i => decide (d < 64 ∧ a < 64 ∧ z < 8 ∧ i < 1024 ∧ z < 7)
  | .sts d a z i => decide (d < 64 ∧ a < 64 ∧ z < 8 ∧ i < 1024 ∧ z < 4)
  | .lda d a z i => decide (d < 64 ∧ a < 64 ∧ z < 8 ∧ i < 1024 ∧ z < 7)
  | .stl d a z i => decide (d < 64 ∧ a < 64 ∧ z < 8 ∧ i < 1024 ∧ z < 4)
  | .fence => true
  | .fenceAcq => true
  | .fenceRel => true
  | .cflush a i => decide (a < 64 ∧ i < 8192)
  | .b o => decide (o < 524288)
  | .bc a b c o => decide (a < 64 ∧ b < 64 ∧ c < 8 ∧ o < 1024 ∧ c < 6)
  | .bz a c o => decide (a < 64 ∧ c < 8 ∧ o < 1024 ∧ c < 6)
  | .call d o => decide (d < 64 ∧ o < 524288)
  | .ret a => decide (a < 64)
  | .jr a => decide (a < 64)
  | .loop l a o => decide (l < 8 ∧ a < 64 ∧ o < 8192)
  | .loopx l a o => decide (l < 8 ∧ a < 64 ∧ o < 8192)
  | .lcrd d l => decide (d < 64 ∧ l < 8)
  | .lcrdTrips d l => decide (d < 64 ∧ l < 8)
  | .stage n => decide (n < 8)
  | .stageSet a n => decide (a < 64 ∧ n < 8)
  | .rotb a n => decide (a < 64 ∧ n < 16)
  | .tkwait k => decide (k < 64)
  | .tkpost k => decide (k < 64)
  | .tkset a k => decide (a < 64 ∧ k < 64)
  | .tkrd d k => decide (d < 64 ∧ k < 64)
  | .mbrd d x => decide (d < 64 ∧ x < 8)
  | .mbwr a x => decide (a < 64 ∧ x < 8)
  | .binit a n => decide (a < 64 ∧ n < 256)
  | .barv n => decide (n < 256)
  | .bwait d n => decide (d < 64 ∧ n < 256)
  | .bdrop n => decide (n < 256)
  | .binval n => decide (n < 256)
  | .btime a n => decide (a < 64 ∧ n < 256)
  | .csrrd d r => decide (d < 64 ∧ r < 4096)
  | .csrwr a r => decide (a < 64 ∧ r < 4096)
  | .ptcrd d => decide (d < 64)
  | .trap c => decide (c < 256)
  | .tret => true
  | .yield => true
  | .endK => true
  | .halt => true
  | .evpost a b => decide (a < 64 ∧ b < 64)
  | .brk n => decide (n < 8192)
  | .ctxsave d a k => decide (d < 64 ∧ a < 64 ∧ k < 2)
  | .ctxsavePark d a k => decide (d < 64 ∧ a < 64 ∧ k < 2)
  | .ctxload d a k => decide (d < 64 ∧ a < 64 ∧ k < 2)
  | .ctxloadUnpark d a k => decide (d < 64 ∧ a < 64 ∧ k < 2)
  | .ctxmap d a b => decide (d < 64 ∧ a < 64 ∧ b < 64)
  | .preempt d a => decide (d < 64 ∧ a < 64)
  | .preemptY d a => decide (d < 64 ∧ a < 64)
  | .resume d a => decide (d < 64 ∧ a < 64)
  | .resumeM d a b => decide (d < 64 ∧ a < 64 ∧ b < 64)
  | .resumeSkip d a b => decide (d < 64 ∧ a < 64 ∧ b < 64)
  | .resumeEnd d a b => decide (d < 64 ∧ a < 64 ∧ b < 64)
  | .atadd d a b t => decide (d < 64 ∧ a < 64 ∧ b < 64 ∧ t < 8 ∧ t < 5)
  | .atmax d a b t => decide (d < 64 ∧ a < 64 ∧ b < 64 ∧ t < 8 ∧ t < 5)
  | .atmin d a b t => decide (d < 64 ∧ a < 64 ∧ b < 64 ∧ t < 8 ∧ t < 5)
  | .atxchg d a b t => decide (d < 64 ∧ a < 64 ∧ b < 64 ∧ t < 8 ∧ t < 5)
  | .atcas d a b t c => decide (d < 64 ∧ a < 64 ∧ b < 64 ∧ t < 8 ∧ c < 64 ∧ t < 5)
  | .atincnz d a t => decide (d < 64 ∧ a < 64 ∧ t < 8 ∧ (t = 0 ∨ t = 3))
  | .atdec d a t => decide (d < 64 ∧ a < 64 ∧ t < 8 ∧ (t = 0 ∨ t = 3))
  | .pgpin d a b => decide (d < 64 ∧ a < 64 ∧ b < 64)
  | .pgunpin d a b => decide (d < 64 ∧ a < 64 ∧ b < 64)
  | .pgunpinEv d a b => decide (d < 64 ∧ a < 64 ∧ b < 64)
  | .slabfwSt d a b => decide (d < 64 ∧ a < 64 ∧ b < 64)
  | .slabfwMw d a b => decide (d < 64 ∧ a < 64 ∧ b < 64)
  | .slabfwEnd d a => decide (d < 64 ∧ a < 64)
  | .tlbinvVa d a b => decide (d < 64 ∧ a < 64 ∧ b < 64)
  | .tlbinvCtx d b => decide (d < 64 ∧ b < 64)
  | .tlbinvSlab d a b => decide (d < 64 ∧ a < 64 ∧ b < 64)
  | .tlbinvAll d => decide (d < 64)
  | .vadd d a b p q m => decide (d < 32 ∧ a < 32 ∧ b < 32 ∧ p < 8 ∧ q < 8 ∧ m < 16 ∧ (p = 0 ∨ a = 0) ∧ (q = 0 ∨ b = 0))
  | .vsub d a b p q m => decide (d < 32 ∧ a < 32 ∧ b < 32 ∧ p < 8 ∧ q < 8 ∧ m < 16 ∧ (p = 0 ∨ a = 0) ∧ (q = 0 ∨ b = 0))
  | .vmul d a b p q m => decide (d < 32 ∧ a < 32 ∧ b < 32 ∧ p < 8 ∧ q < 8 ∧ m < 16 ∧ (p = 0 ∨ a = 0) ∧ (q = 0 ∨ b = 0))
  | .vfma d a b p q m c u => decide (d < 32 ∧ a < 32 ∧ b < 32 ∧ p < 8 ∧ q < 8 ∧ m < 16 ∧ c < 32 ∧ u < 8 ∧ (p = 0 ∨ a = 0) ∧ (q = 0 ∨ b = 0) ∧ (u = 0 ∨ c = 0))
  | .vfms d a b p q m c u => decide (d < 32 ∧ a < 32 ∧ b < 32 ∧ p < 8 ∧ q < 8 ∧ m < 16 ∧ c < 32 ∧ u < 8 ∧ (p = 0 ∨ a = 0) ∧ (q = 0 ∨ b = 0) ∧ (u = 0 ∨ c = 0))
  | .vfnma d a b p q m c u => decide (d < 32 ∧ a < 32 ∧ b < 32 ∧ p < 8 ∧ q < 8 ∧ m < 16 ∧ c < 32 ∧ u < 8 ∧ (p = 0 ∨ a = 0) ∧ (q = 0 ∨ b = 0) ∧ (u = 0 ∨ c = 0))
  | .vmin d a b p q m => decide (d < 32 ∧ a < 32 ∧ b < 32 ∧ p < 8 ∧ q < 8 ∧ m < 16 ∧ (p = 0 ∨ a = 0) ∧ (q = 0 ∨ b = 0))
  | .vmax d a b p q m => decide (d < 32 ∧ a < 32 ∧ b < 32 ∧ p < 8 ∧ q < 8 ∧ m < 16 ∧ (p = 0 ∨ a = 0) ∧ (q = 0 ∨ b = 0))
  | .vabs d a p m => decide (d < 32 ∧ a < 32 ∧ p < 8 ∧ m < 16 ∧ (p = 0 ∨ a = 0))
  | .vneg d a p m => decide (d < 32 ∧ a < 32 ∧ p < 8 ∧ m < 16 ∧ (p = 0 ∨ a = 0))
  | .vcmp d a b p q m cc => decide (d < 32 ∧ a < 32 ∧ b < 32 ∧ p < 8 ∧ q < 8 ∧ m < 16 ∧ cc < 256 ∧ (p = 0 ∨ a = 0) ∧ (q = 0 ∨ b = 0) ∧ d < 16 ∧ d ≠ 0 ∧ cc < 8)
  | .vsel d a b p q s => decide (d < 32 ∧ a < 32 ∧ b < 32 ∧ p < 8 ∧ q < 8 ∧ s < 16 ∧ (p = 0 ∨ a = 0) ∧ (q = 0 ∨ b = 0))
  | .vclamp d a b p q m c u => decide (d < 32 ∧ a < 32 ∧ b < 32 ∧ p < 8 ∧ q < 8 ∧ m < 16 ∧ c < 32 ∧ u < 8 ∧ (p = 0 ∨ a = 0) ∧ (q = 0 ∨ b = 0) ∧ (u = 0 ∨ c = 0))
  | .vand d a b p q m => decide (d < 32 ∧ a < 32 ∧ b < 32 ∧ p < 8 ∧ q < 8 ∧ m < 16 ∧ (p = 0 ∨ a = 0) ∧ (q = 0 ∨ b = 0))
  | .vor d a b p q m => decide (d < 32 ∧ a < 32 ∧ b < 32 ∧ p < 8 ∧ q < 8 ∧ m < 16 ∧ (p = 0 ∨ a = 0) ∧ (q = 0 ∨ b = 0))
  | .vxor d a b p q m => decide (d < 32 ∧ a < 32 ∧ b < 32 ∧ p < 8 ∧ q < 8 ∧ m < 16 ∧ (p = 0 ∨ a = 0) ∧ (q = 0 ∨ b = 0))
  | .vnot d a p m => decide (d < 32 ∧ a < 32 ∧ p < 8 ∧ m < 16 ∧ (p = 0 ∨ a = 0))
  | .vshl d a b p q m => decide (d < 32 ∧ a < 32 ∧ b < 32 ∧ p < 8 ∧ q < 8 ∧ m < 16 ∧ (p = 0 ∨ a = 0) ∧ (q = 0 ∨ b = 0))
  | .vshr d a b p q m => decide (d < 32 ∧ a < 32 ∧ b < 32 ∧ p < 8 ∧ q < 8 ∧ m < 16 ∧ (p = 0 ∨ a = 0) ∧ (q = 0 ∨ b = 0))
  | .vsar d a b p q m => decide (d < 32 ∧ a < 32 ∧ b < 32 ∧ p < 8 ∧ q < 8 ∧ m < 16 ∧ (p = 0 ∨ a = 0) ∧ (q = 0 ∨ b = 0))
  | .vadds d a b p q m => decide (d < 32 ∧ a < 32 ∧ b < 32 ∧ p < 8 ∧ q < 8 ∧ m < 16 ∧ (p = 0 ∨ a = 0) ∧ (q = 0 ∨ b = 0))
  | .vsubs d a b p q m => decide (d < 32 ∧ a < 32 ∧ b < 32 ∧ p < 8 ∧ q < 8 ∧ m < 16 ∧ (p = 0 ∨ a = 0) ∧ (q = 0 ∨ b = 0))
  | .vmulh d a b p q m => decide (d < 32 ∧ a < 32 ∧ b < 32 ∧ p < 8 ∧ q < 8 ∧ m < 16 ∧ (p = 0 ∨ a = 0) ∧ (q = 0 ∨ b = 0))
  | .vcmul d a b p q m => decide (d < 32 ∧ a < 32 ∧ b < 32 ∧ p < 8 ∧ q < 8 ∧ m < 16 ∧ (p = 0 ∨ a = 0) ∧ (q = 0 ∨ b = 0))
  | .vcmac d a b p q m c u => decide (d < 32 ∧ a < 32 ∧ b < 32 ∧ p < 8 ∧ q < 8 ∧ m < 16 ∧ c < 32 ∧ u < 8 ∧ (p = 0 ∨ a = 0) ∧ (q = 0 ∨ b = 0) ∧ (u = 0 ∨ c = 0))
  | .vcmulj d a b p q m => decide (d < 32 ∧ a < 32 ∧ b < 32 ∧ p < 8 ∧ q < 8 ∧ m < 16 ∧ (p = 0 ∨ a = 0) ∧ (q = 0 ∨ b = 0))
  | .vcmacj d a b p q m c u => decide (d < 32 ∧ a < 32 ∧ b < 32 ∧ p < 8 ∧ q < 8 ∧ m < 16 ∧ c < 32 ∧ u < 8 ∧ (p = 0 ∨ a = 0) ∧ (q = 0 ∨ b = 0) ∧ (u = 0 ∨ c = 0))
  | .vconj d a p m => decide (d < 32 ∧ a < 32 ∧ p < 8 ∧ m < 16 ∧ (p = 0 ∨ a = 0))
  | .vcabs2 d a p m => decide (d < 32 ∧ a < 32 ∧ p < 8 ∧ m < 16 ∧ (p = 0 ∨ a = 0))
  | .vshape r c t => decide (r < 32 ∧ c < 32 ∧ t < 32 ∧ t < 18)
  | .vmov d a p m => decide (d < 32 ∧ a < 32 ∧ p < 8 ∧ m < 16 ∧ (p = 0 ∨ a = 0))
  | .vbcastMailbox d n m => decide (d < 32 ∧ n < 8 ∧ m < 16)
  | .vbcastElem d a j p m => decide (d < 32 ∧ a < 32 ∧ j < 32 ∧ p < 8 ∧ m < 16 ∧ (p = 0 ∨ a = 0))
  | .vbcastRow d a i p m => decide (d < 32 ∧ a < 32 ∧ i < 32 ∧ p < 8 ∧ m < 16 ∧ (p = 0 ∨ a = 0))
  | .vbcastCol d a j p m => decide (d < 32 ∧ a < 32 ∧ j < 32 ∧ p < 8 ∧ m < 16 ∧ (p = 0 ∨ a = 0))
  | .viota d k m => decide (d < 32 ∧ k < 4 ∧ m < 16 ∧ k < 3)
  | .vtrans d a p m => decide (d < 32 ∧ a < 32 ∧ p < 8 ∧ m < 16 ∧ (p = 0 ∨ a = 0))
  | .vld v a s e l i m => decide (v < 32 ∧ a < 8 ∧ s < 8 ∧ e < 2 ∧ l < 8 ∧ i < 64 ∧ m < 16 ∧ (e = 0 → l = 0 ∧ s = 0))
  | .vst v a s e l i m => decide (v < 32 ∧ a < 8 ∧ s < 8 ∧ e < 2 ∧ l < 8 ∧ i < 64 ∧ m < 16 ∧ (e = 0 → l = 0 ∧ s = 0))
  | .vldr d q m => decide (d < 32 ∧ q < 16 ∧ m < 16)
  | .vstr v q m => decide (v < 32 ∧ q < 16 ∧ m < 16)
  | .vmskCopy n s => decide (n < 16 ∧ s < 16 ∧ n ≠ 0)
  | .vmskNot n s => decide (n < 16 ∧ s < 16 ∧ n ≠ 0)
  | .vmskNz n a p s => decide (n < 16 ∧ a < 32 ∧ p < 8 ∧ s < 16 ∧ (p = 0 ∨ a = 0) ∧ n ≠ 0)
  | .vmskCols n c s => decide (n < 16 ∧ c < 32 ∧ s < 16 ∧ n ≠ 0)
  | .vmskRows n c s => decide (n < 16 ∧ c < 32 ∧ s < 16 ∧ n ≠ 0)
  | .vmskAnd n k s => decide (n < 16 ∧ k < 16 ∧ s < 16 ∧ n ≠ 0)
  | .vmskOr n k s => decide (n < 16 ∧ k < 16 ∧ s < 16 ∧ n ≠ 0)
  | .vmcnt k x => decide (k < 16 ∧ x < 8)
  | .vtox a j x p => decide (a < 32 ∧ j < 32 ∧ x < 8 ∧ p < 8 ∧ (p = 0 ∨ a = 0))
  | .vexp2 d a p m => decide (d < 32 ∧ a < 32 ∧ p < 8 ∧ m < 16 ∧ (p = 0 ∨ a = 0))
  | .vexp d a p m => decide (d < 32 ∧ a < 32 ∧ p < 8 ∧ m < 16 ∧ (p = 0 ∨ a = 0))
  | .vlog2 d a p m => decide (d < 32 ∧ a < 32 ∧ p < 8 ∧ m < 16 ∧ (p = 0 ∨ a = 0))
  | .vln d a p m => decide (d < 32 ∧ a < 32 ∧ p < 8 ∧ m < 16 ∧ (p = 0 ∨ a = 0))
  | .vrcp d a p m => decide (d < 32 ∧ a < 32 ∧ p < 8 ∧ m < 16 ∧ (p = 0 ∨ a = 0))
  | .vrsq d a p m => decide (d < 32 ∧ a < 32 ∧ p < 8 ∧ m < 16 ∧ (p = 0 ∨ a = 0))
  | .vsqrt d a p m => decide (d < 32 ∧ a < 32 ∧ p < 8 ∧ m < 16 ∧ (p = 0 ∨ a = 0))
  | .vsigm d a p m => decide (d < 32 ∧ a < 32 ∧ p < 8 ∧ m < 16 ∧ (p = 0 ∨ a = 0))
  | .vsoftp d a p m => decide (d < 32 ∧ a < 32 ∧ p < 8 ∧ m < 16 ∧ (p = 0 ∨ a = 0))
  | .vtanh d a p m => decide (d < 32 ∧ a < 32 ∧ p < 8 ∧ m < 16 ∧ (p = 0 ∨ a = 0))
  | .vdiv d a b p q m => decide (d < 32 ∧ a < 32 ∧ b < 32 ∧ p < 8 ∧ q < 8 ∧ m < 16 ∧ (p = 0 ∨ a = 0) ∧ (q = 0 ∨ b = 0))
  | .vreds d a r p s => decide (d < 32 ∧ a < 32 ∧ r < 2 ∧ p < 8 ∧ s < 16 ∧ (p = 0 ∨ a = 0))
  | .vredm d a r p s => decide (d < 32 ∧ a < 32 ∧ r < 2 ∧ p < 8 ∧ s < 16 ∧ (p = 0 ∨ a = 0))
  | .vredmIdx d a r p s => decide (d < 32 ∧ a < 32 ∧ r < 2 ∧ p < 8 ∧ s < 16 ∧ (p = 0 ∨ a = 0))
  | .vredn d a r p s => decide (d < 32 ∧ a < 32 ∧ r < 2 ∧ p < 8 ∧ s < 16 ∧ (p = 0 ∨ a = 0))
  | .vrednIdx d a r p s => decide (d < 32 ∧ a < 32 ∧ r < 2 ∧ p < 8 ∧ s < 16 ∧ (p = 0 ∨ a = 0))
  | .vscans d a e r p s => decide (d < 32 ∧ a < 32 ∧ e < 2 ∧ r < 2 ∧ p < 8 ∧ s < 16 ∧ (p = 0 ∨ a = 0))
  | .vkey d a k p m => decide (d < 32 ∧ a < 32 ∧ k < 2 ∧ p < 8 ∧ m < 16 ∧ (p = 0 ∨ a = 0))
  | .vhist d a c k b p m => decide (d < 32 ∧ a < 32 ∧ c < 2 ∧ k < 8 ∧ b < 4 ∧ p < 8 ∧ m < 16 ∧ (p = 0 ∨ a = 0))
  | .vpermb d a b p q m => decide (d < 32 ∧ a < 32 ∧ b < 32 ∧ p < 8 ∧ q < 8 ∧ m < 16 ∧ (p = 0 ∨ a = 0) ∧ (q = 0 ∨ b = 0))
  | .vbitg d a b p q m => decide (d < 32 ∧ a < 32 ∧ b < 32 ∧ p < 8 ∧ q < 8 ∧ m < 16 ∧ (p = 0 ∨ a = 0) ∧ (q = 0 ∨ b = 0))
  | .vbits d a b p q m => decide (d < 32 ∧ a < 32 ∧ b < 32 ∧ p < 8 ∧ q < 8 ∧ m < 16 ∧ (p = 0 ∨ a = 0) ∧ (q = 0 ∨ b = 0))
  | .vshuf d a b p q m => decide (d < 32 ∧ a < 32 ∧ b < 32 ∧ p < 8 ∧ q < 8 ∧ m < 16 ∧ (p = 0 ∨ a = 0) ∧ (q = 0 ∨ b = 0))
  | .vcomp d a k r p s => decide (d < 32 ∧ a < 32 ∧ k < 2 ∧ r < 2 ∧ p < 8 ∧ s < 16 ∧ (p = 0 ∨ a = 0))
  | .vexpd d a k r p s => decide (d < 32 ∧ a < 32 ∧ k < 2 ∧ r < 2 ∧ p < 8 ∧ s < 16 ∧ (p = 0 ∨ a = 0))
  | .vcvt d a o p m st dt rnd sx imm => decide (d < 32 ∧ a < 32 ∧ o < 2 ∧ p < 8 ∧ m < 16 ∧ st < 32 ∧ dt < 32 ∧ rnd < 8 ∧ sx < 8 ∧ imm < 256 ∧ (p = 0 ∨ a = 0) ∧ st < 18 ∧ dt < 18 ∧ rnd < 2 ∧ (rnd = 0 → sx = 0))
  | .vpack d a p m st dt rnd sx imm => decide (d < 32 ∧ a < 32 ∧ p < 8 ∧ m < 16 ∧ st < 32 ∧ dt < 32 ∧ rnd < 8 ∧ sx < 8 ∧ imm < 256 ∧ (p = 0 ∨ a = 0) ∧ st < 18 ∧ dt < 18 ∧ rnd < 2 ∧ (rnd = 0 → sx = 0))
  | .vunpk d a p m st dt rnd sx imm => decide (d < 32 ∧ a < 32 ∧ p < 8 ∧ m < 16 ∧ st < 32 ∧ dt < 32 ∧ rnd < 8 ∧ sx < 8 ∧ imm < 256 ∧ (p = 0 ∨ a = 0) ∧ st < 18 ∧ dt < 18 ∧ rnd < 2 ∧ (rnd = 0 → sx = 0))
  | .vsrnd d a p m st dt rnd sx imm => decide (d < 32 ∧ a < 32 ∧ p < 8 ∧ m < 16 ∧ st < 32 ∧ dt < 32 ∧ rnd < 8 ∧ sx < 8 ∧ imm < 256 ∧ (p = 0 ∨ a = 0) ∧ st < 18 ∧ dt < 18 ∧ rnd < 2 ∧ (rnd = 0 → sx = 0))
  | .vqnt d a b p q m st dt rnd sx imm => decide (d < 32 ∧ a < 32 ∧ b < 32 ∧ p < 8 ∧ q < 8 ∧ m < 16 ∧ st < 32 ∧ dt < 32 ∧ rnd < 8 ∧ sx < 8 ∧ imm < 256 ∧ (p = 0 ∨ a = 0) ∧ (q = 0 ∨ b = 0) ∧ st < 18 ∧ dt < 18 ∧ rnd < 2 ∧ (rnd = 0 → sx = 0))
  | .mm qa qb md fi ta tb m n k acc => decide (qa < 16 ∧ qb < 16 ∧ md < 4 ∧ fi < 2 ∧ ta < 32 ∧ tb < 32 ∧ m < 512 ∧ n < 1024 ∧ k < 8192 ∧ acc < 16384 ∧ md < 3 ∧ ta < 18 ∧ tb < 18 ∧ (fi = 1 → ta = 0 ∧ tb = 0))
  | .mmc qa qb md fi ta tb m n k acc cr cc => decide (qa < 16 ∧ qb < 16 ∧ md < 4 ∧ fi < 2 ∧ ta < 32 ∧ tb < 32 ∧ m < 512 ∧ n < 1024 ∧ k < 8192 ∧ acc < 16384 ∧ cr < 3 ∧ cc < 4 ∧ md < 3 ∧ ta < 18 ∧ tb < 18 ∧ (fi = 1 → ta = 0 ∧ tb = 0))
  | .mmt qa qb md fi ta tb m n k acc => decide (qa < 16 ∧ qb < 16 ∧ md < 4 ∧ fi < 2 ∧ ta < 32 ∧ tb < 32 ∧ m < 512 ∧ n < 1024 ∧ k < 8192 ∧ acc < 16384 ∧ md < 3 ∧ ta < 18 ∧ tb < 18 ∧ (fi = 1 → ta = 0 ∧ tb = 0))
  | .aczero fn acc rows cols => decide (fn < 256 ∧ acc < 16384 ∧ rows < 128 ∧ cols < 256 ∧ fn < 3)
  | .acdrain q dt fn acc rows cols => decide (q < 16 ∧ dt < 32 ∧ fn < 256 ∧ acc < 16384 ∧ rows < 128 ∧ cols < 256 ∧ dt < 18)
  | .acsmx q dt dd acc rows cols => decide (q < 16 ∧ dt < 32 ∧ dd < 16 ∧ acc < 16384 ∧ rows < 128 ∧ cols < 256 ∧ dt < 18)
  | .acscale acc rows cols => decide (acc < 16384 ∧ rows < 128 ∧ cols < 256)
  | .acnorm acc rows cols => decide (acc < 16384 ∧ rows < 128 ∧ cols < 256)
  | .acmov q dt fn acc rows cols => decide (q < 16 ∧ dt < 32 ∧ fn < 256 ∧ acc < 16384 ∧ rows < 128 ∧ cols < 256 ∧ fn < 3 ∧ dt < 18)
  | .scdr qi qo flip emit g slot lay n => decide (qi < 16 ∧ qo < 16 ∧ flip < 2 ∧ emit < 2 ∧ g < 64 ∧ slot < 256 ∧ lay < 4096 ∧ n < 64 ∧ (emit = 0 → qo = 0))
  | .scdc qi qo flip emit g slot lay n => decide (qi < 16 ∧ qo < 16 ∧ flip < 2 ∧ emit < 2 ∧ g < 64 ∧ slot < 256 ∧ lay < 4096 ∧ n < 64 ∧ (emit = 0 → qo = 0))
  | .scgk qi qo flip emit g slot lay n => decide (qi < 16 ∧ qo < 16 ∧ flip < 2 ∧ emit < 2 ∧ g < 64 ∧ slot < 256 ∧ lay < 4096 ∧ n < 64 ∧ (emit = 0 → qo = 0))
  | .scch qi qo flip emit g slot lay n => decide (qi < 16 ∧ qo < 16 ∧ flip < 2 ∧ emit < 2 ∧ g < 64 ∧ slot < 256 ∧ lay < 4096 ∧ n < 64 ∧ (emit = 0 → qo = 0))
  | .scout qo pend g slot lay => decide (qo < 16 ∧ pend < 2 ∧ g < 64 ∧ slot < 256 ∧ lay < 4096)
  | .scmode i => decide (i < 65536 ∧ i / 4 % 16 = 0 ∧ i / 64 < 5)
  | .krin d a b => decide (d < 64 ∧ a < 64 ∧ b < 64)
  | .krout d b => decide (d < 64 ∧ b < 64)
  | .ksnap d a => decide (d < 64 ∧ a < 64)
  | .kfork d a b => decide (d < 64 ∧ a < 64 ∧ b < 64)
  | .krollC d b => decide (d < 64 ∧ b < 64)
  | .krollP d a => decide (d < 64 ∧ a < 64)
  | .krollS d a b => decide (d < 64 ∧ a < 64 ∧ b < 64)
  | .kcommit d a b => decide (d < 64 ∧ a < 64 ∧ b < 64)
  | .kattach d a => decide (d < 64 ∧ a < 64)
  | .kdetach d a => decide (d < 64 ∧ a < 64)
  | .kstatSlot d b => decide (d < 64 ∧ b < 64)
  | .kstatCask d a => decide (d < 64 ∧ a < 64)
  | .kwait d b => decide (d < 64 ∧ b < 64)
  | .xld a b c => decide (a < 64 ∧ b < 64 ∧ c < 64)
  | .xldAcq a b c => decide (a < 64 ∧ b < 64 ∧ c < 64)
  | .xldr b c q => decide (b < 64 ∧ c < 64 ∧ q < 16)
  | .xgath a b c => decide (a < 64 ∧ b < 64 ∧ c < 64)
  | .xcpy a b c t s => decide (a < 64 ∧ b < 64 ∧ c < 64 ∧ t < 2 ∧ s < 2)
  | .xfenceXl => true
  | .xmsgrx a h => decide (a < 64 ∧ h < 8)
  | .xst a b c => decide (a < 64 ∧ b < 64 ∧ c < 64)
  | .xstRing b c q => decide (b < 64 ∧ c < 64 ∧ q < 16)
  | .xsta a b c => decide (a < 64 ∧ b < 64 ∧ c < 64)
  | .xscat a b c => decide (a < 64 ∧ b < 64 ∧ c < 64)
  | .xhring a b c => decide (a < 64 ∧ b < 64 ∧ c < 64)
  | .xfenceXs => true
  | .xmsgtx a b c h => decide (a < 64 ∧ b < 64 ∧ c < 64 ∧ h < 8)
  | .xstrel a b => decide (a < 64 ∧ b < 64)
  | .ctri a b all ch cnt dd => decide (a < 64 ∧ b < 64 ∧ all < 2 ∧ ch < 8 ∧ cnt < 65536 ∧ dd < 16)
  | .chist a b c all ch dt cnt mass bb => decide (a < 64 ∧ b < 64 ∧ c < 64 ∧ all < 2 ∧ ch < 8 ∧ dt < 32 ∧ cnt < 65536 ∧ mass < 2 ∧ bb < 4 ∧ (dt = 9 ∨ dt = 10 ∧ bb < 2 ∨ dt = 11 ∧ bb < 1) ∧ (mass = 1 → dt = 9))
  | .cmaxi a b all ch dt cnt mn => decide (a < 64 ∧ b < 64 ∧ all < 2 ∧ ch < 8 ∧ dt < 32 ∧ cnt < 65536 ∧ mn < 2 ∧ (dt = 0 ∨ dt = 5 ∨ dt = 9))
  | .csum a b c all ch dt cnt => decide (a < 64 ∧ b < 64 ∧ c < 64 ∧ all < 2 ∧ ch < 8 ∧ dt < 32 ∧ cnt < 65536 ∧ (dt < 6 ∨ dt = 9))
  | .cbcast a b ch cnt root => decide (a < 64 ∧ b < 64 ∧ ch < 8 ∧ cnt < 65536 ∧ root < 8)
  | .cwait a h => decide (a < 64 ∧ h < 8)
  | .fetchLine _ => true
  | .heldPost _ _ => true
  | .trapDelivery _ => true
  | .mmSlice _ => true
  | .scanStep _ => true
  | .commitWaitRecheck _ => true
  | .rackInComplete _ _ _ => true
  | .rackOutComplete _ _ _ => true
  | .xcpyComplete _ _ _ => true
  | .transferComplete _ _ _ => true
  | .portOperation _ => true
  | .portReply _ => true
  | .bwaitNotification _ => true
  | .barrierDeadline _ _ => true
  | .messageArrival _ => true
  | .instanceBegin _ _ _ => true
  | .instanceDelivery _ _ _ => true
  | .scratchRefillComplete _ _ => true
  | .scratchWritebackComplete _ _ => true
  | .invalidationAck _ _ => true
  | .stopComplete _ => true
  | .stopTimeout _ => true
  | .textLoadComplete _ _ => true
  | .launchAtStart _ => true
  | .launchRetry _ => true
  | .dispatcherChoice => true
  | .acceptCommand _ => true
  | .watchdog _ => true
  | .eventRecordAppend _ => true
  | .coalescingTimeout _ _ => true
  | .msixUnmask _ => true
  | .cmdNop _ => true
  | .launch _ => true
  | .launchAt _ => true
  | .copy _ _ => true
  | .fill _ _ => true
  | .signal _ => true
  | .wait _ => true
  | .cond _ => true
  | .timestamp _ => true
  | .hostring _ => true
  | .caskop _ => true
  | .commitWrite _ _ => true
  | .qcfgWrite _ _ => true
  | .qctlEnable _ => true
  | .qctlPause _ => true
  | .qctlResume _ => true
  | .qctlReset _ => true
  | .qctlRewind _ _ => true
  | .cdescWrite _ _ => true
  | .create _ => true
  | .bind _ => true
  | .unbind _ => true
  | .rebind _ => true
  | .clear _ => true
  | .discard _ => true
  | .destroy _ => true
  | .registerWrite _ _ _ => true
  | .hostMemoryWrite _ _ _ => true
  | .hostMemoryRead _ _ => true
  | .linkEnable _ => true
  | .trainingComplete _ => true
  | .trainingFailure _ => true
  | .pskExchange _ => true
  | .pskFinish _ _ => true
  | .keyDelivery _ _ => true
  | .routeTable _ => true
  | .data _ _ _ _ _ _ _ _ => true
  | .idle _ _ => true
  | .hold _ _ _ _ => true
  | .release _ _ _ _ => true
  | .mgmt _ _ => true
  | .keyack _ _ => true
  | .lack _ _ _ => true
  | .drain _ _ => true
  | .fcntLimit _ _ => true
  | .lctlRekeyDir0 _ => true
  | .lctlRekeyDir1 _ => true
  | .retrain _ => true
  | .ideKm _ _ => true
  | .getVersion => true
  | .getCapabilities => true
  | .negotiateAlgorithms _ _ _ _ => true
  | .challenge _ => true
  | .getMeasurements _ _ => true
  | .keyExchange _ => true
  | .finish _ _ => true
  | .heartbeat _ => true
  | .keyUpdate _ => true
  | .endSession _ => true
  | .chunkSend _ _ _ => true
  | .chunkGet _ _ => true
  | .unsupportedRequest _ => true
  | .keyset _ _ _ _ _ => true
  | .keyretire _ _ => true
  | .rootadd _ _ _ _ => true
  | .rootrevoke _ _ => true
  | .diereset _ _ => true
  | .status _ => true
  | .dieKeyAck _ => true
  | .powerUp => true
  | .powerOff => true
  | .measurementReply _ _ => true
  | .measurementTimeout _ => true
  | .controlLogicFault _ => true
  | .dieResetComplete _ => true
  | .ppsEdge _ => true
  | .ppsMiss => true
  | .ptcSlew => true
  | .ptcadjWrite _ => true
  | .ptcstepWrite _ => true
  | .ptcrateWrite _ => true
  | .ptccfgWrite _ => true
  | .pwrcapWrite _ => true
  | .dvfsPointChange _ _ _ => true
  | .arrayPowerDown _ => true
  | .arrayWakeWave _ _ => true
  | .errorRegisterWrite _ _ => true
  | .stailWrite _ _ => true
  | .sendDescriptor _ => true
  | .unassignedOpcode => true
  | .copyPageFault _ _ => true
  | .writeForward _ _ _ => true
  | .scheduledRekey _ _ => true

end Sys2Proof
end

