-- ==== Sys2Proof/Decode.lean ====
section
/-! DEFINITION. The decoder and the encoder (03 R74 to R78, R83 to R88).
The decoder is total on any lanes; it rejects by the causes of checks 1, 2 and 4 of R88. -/

namespace Sys2Proof

/-- Why the lanes of an instruction do not decode: the causes of checks 1, 2 and 4 of R88. -/
inductive DecodeError where
  | illegalOp | illegalLane | reservedField
  deriving DecidableEq, Repr

/-- The words of an instruction, lane by lane (R75 to R78, R84 to R87). An event row has none. -/
def encodeNat (i : Instr) : List Nat :=
  match i with
  | .nop => [0]
  | .add d a b => [0x2000000 + d * 524288 + a * 8192 + b * 128]
  | .sub d a b => [0x4000000 + d * 524288 + a * 8192 + b * 128]
  | .and d a b => [0x6000000 + d * 524288 + a * 8192 + b * 128]
  | .or d a b => [0x8000000 + d * 524288 + a * 8192 + b * 128]
  | .xor d a b => [0xa000000 + d * 524288 + a * 8192 + b * 128]
  | .shl d a b => [0xc000000 + d * 524288 + a * 8192 + b * 128]
  | .shr d a b => [0xe000000 + d * 524288 + a * 8192 + b * 128]
  | .sar d a b => [0x10000000 + d * 524288 + a * 8192 + b * 128]
  | .mul d a b => [0x12000000 + d * 524288 + a * 8192 + b * 128]
  | .mulh d a b => [0x14000000 + d * 524288 + a * 8192 + b * 128]
  | .mulhn d a b => [0x16000000 + d * 524288 + a * 8192 + b * 128]
  | .div d a b => [0x18000000 + d * 524288 + a * 8192 + b * 128]
  | .divn d a b => [0x1a000000 + d * 524288 + a * 8192 + b * 128]
  | .rem d a b => [0x1c000000 + d * 524288 + a * 8192 + b * 128]
  | .remn d a b => [0x1e000000 + d * 524288 + a * 8192 + b * 128]
  | .min d a b => [0x20000000 + d * 524288 + a * 8192 + b * 128]
  | .max d a b => [0x22000000 + d * 524288 + a * 8192 + b * 128]
  | .minn d a b => [0x24000000 + d * 524288 + a * 8192 + b * 128]
  | .maxn d a b => [0x26000000 + d * 524288 + a * 8192 + b * 128]
  | .slt d a b => [0x28000000 + d * 524288 + a * 8192 + b * 128]
  | .sltn d a b => [0x2a000000 + d * 524288 + a * 8192 + b * 128]
  | .seq d a b => [0x2c000000 + d * 524288 + a * 8192 + b * 128]
  | .clz d a => [0x2e000000 + d * 524288 + a * 8192]
  | .popc d a => [0x30000000 + d * 524288 + a * 8192]
  | .bext d a b l => [0x32000000 + d * 524288 + a * 8192 + b * 128 + l]
  | .bins d a b l => [0x34000000 + d * 524288 + a * 8192 + b * 128 + l]
  | .brev d a => [0x36000000 + d * 524288 + a * 8192]
  | .addi d a i => [0x40000000 + d * 524288 + a * 8192 + i]
  | .andi d a i => [0x42000000 + d * 524288 + a * 8192 + i]
  | .ori d a i => [0x44000000 + d * 524288 + a * 8192 + i]
  | .xori d a i => [0x46000000 + d * 524288 + a * 8192 + i]
  | .shli d a n => [0x48000000 + d * 524288 + a * 8192 + n]
  | .shri d a n => [0x4a000000 + d * 524288 + a * 8192 + n]
  | .sari d a n => [0x4c000000 + d * 524288 + a * 8192 + n]
  | .slti d a i => [0x4e000000 + d * 524288 + a * 8192 + i]
  | .ldi d i => [0x50000000 + d * 524288 + i]
  | .ldiw d i => [0x52000000 + d * 524288, i]
  | .ldih d a i => [0x54000000 + d * 524288 + a * 8192, i]
  | .muli d a i => [0x56000000 + d * 524288 + a * 8192 + i]
  | .lds d a z i => [0x60000000 + d * 524288 + a * 8192 + z * 1024 + i]
  | .sts d a z i => [0x62000000 + d * 524288 + a * 8192 + z * 1024 + i]
  | .lda d a z i => [0x64000000 + d * 524288 + a * 8192 + z * 1024 + i]
  | .stl d a z i => [0x66000000 + d * 524288 + a * 8192 + z * 1024 + i]
  | .fence => [0x68000000]
  | .fenceAcq => [0x68000001]
  | .fenceRel => [0x68000002]
  | .cflush a i => [0x6a000000 + a * 8192 + i]
  | .b o => [0x80000000 + o]
  | .bc a b c o => [0x82000000 + a * 524288 + b * 8192 + c * 1024 + o]
  | .bz a c o => [0x84000000 + a * 524288 + c * 1024 + o]
  | .call d o => [0x86000000 + d * 524288 + o]
  | .ret a => [0x88000000 + a * 8192]
  | .jr a => [0x8a000000 + a * 8192]
  | .loop l a o => [0x90000000 + l * 4194304 + a * 65536 + o]
  | .loopx l a o => [0x92000000 + l * 4194304 + a * 65536 + o]
  | .lcrd d l => [0x94000000 + d * 524288 + l]
  | .lcrdTrips d l => [0x94000008 + d * 524288 + l]
  | .stage n => [0x96000000 + n]
  | .stageSet a n => [0x96000008 + a * 8192 + n]
  | .rotb a n => [0x98000000 + a * 8192 + n]
  | .tkwait k => [0xa0000000 + k]
  | .tkpost k => [0xa2000000 + k]
  | .tkset a k => [0xa4000000 + a * 8192 + k]
  | .tkrd d k => [0xa6000000 + d * 524288 + k]
  | .mbrd d x => [0xa8000000 + d * 524288 + x]
  | .mbwr a x => [0xaa000000 + a * 8192 + x]
  | .binit a n => [0xb0000000 + a * 8192 + n]
  | .barv n => [0xb2000000 + n]
  | .bwait d n => [0xb4000000 + d * 524288 + n]
  | .bdrop n => [0xb6000000 + n]
  | .binval n => [0xb8000000 + n]
  | .btime a n => [0xba000000 + a * 8192 + n]
  | .csrrd d r => [0xc0000000 + d * 524288 + r]
  | .csrwr a r => [0xc2000000 + a * 8192 + r]
  | .ptcrd d => [0xc4000000 + d * 524288]
  | .trap c => [0xc6000000 + c]
  | .tret => [0xc8000000]
  | .yield => [0xca000000]
  | .endK => [0xcc000000]
  | .halt => [0xce000000]
  | .evpost a b => [0xd0000000 + a * 8192 + b * 128]
  | .brk n => [0xd2000000 + n]
  | .ctxsave d a k => [0xd4000000 + d * 524288 + a * 8192 + k]
  | .ctxsavePark d a k => [0xd4000002 + d * 524288 + a * 8192 + k]
  | .ctxload d a k => [0xd6000000 + d * 524288 + a * 8192 + k]
  | .ctxloadUnpark d a k => [0xd6000002 + d * 524288 + a * 8192 + k]
  | .ctxmap d a b => [0xd8000000 + d * 524288 + a * 8192 + b * 128]
  | .preempt d a => [0xda000000 + d * 524288 + a * 8192]
  | .preemptY d a => [0xda000001 + d * 524288 + a * 8192]
  | .resume d a => [0xdc000000 + d * 524288 + a * 8192]
  | .resumeM d a b => [0xdc000001 + d * 524288 + a * 8192 + b * 128]
  | .resumeSkip d a b => [0xdc000002 + d * 524288 + a * 8192 + b * 128]
  | .resumeEnd d a b => [0xdc000003 + d * 524288 + a * 8192 + b * 128]
  | .atadd d a b t => [0xe0000000 + d * 524288 + a * 8192 + b * 128 + t]
  | .atmax d a b t => [0xe2000000 + d * 524288 + a * 8192 + b * 128 + t]
  | .atmin d a b t => [0xe4000000 + d * 524288 + a * 8192 + b * 128 + t]
  | .atxchg d a b t => [0xe6000000 + d * 524288 + a * 8192 + b * 128 + t]
  | .atcas d a b t c => [0xe8000000 + d * 524288 + a * 8192 + b * 128 + t, c * 67108864]
  | .atincnz d a t => [0xea000000 + d * 524288 + a * 8192 + t]
  | .atdec d a t => [0xec000000 + d * 524288 + a * 8192 + t]
  | .pgpin d a b => [0xf0000000 + d * 524288 + a * 8192 + b * 128]
  | .pgunpin d a b => [0xf2000000 + d * 524288 + a * 8192 + b * 128]
  | .pgunpinEv d a b => [0xf2000001 + d * 524288 + a * 8192 + b * 128]
  | .slabfwSt d a b => [0xf4000000 + d * 524288 + a * 8192 + b * 128]
  | .slabfwMw d a b => [0xf4000001 + d * 524288 + a * 8192 + b * 128]
  | .slabfwEnd d a => [0xf4000002 + d * 524288 + a * 8192]
  | .tlbinvVa d a b => [0xf6000000 + d * 524288 + a * 8192 + b * 128]
  | .tlbinvCtx d b => [0xf6000001 + d * 524288 + b * 128]
  | .tlbinvSlab d a b => [0xf6000002 + d * 524288 + a * 8192 + b * 128]
  | .tlbinvAll d => [0xf6000003 + d * 524288]
  | .vadd d a b p q m => [0x2000000 + d * 1048576 + a * 32768 + b * 1024 + p * 128 + q * 16 + m]
  | .vsub d a b p q m => [0x4000000 + d * 1048576 + a * 32768 + b * 1024 + p * 128 + q * 16 + m]
  | .vmul d a b p q m => [0x6000000 + d * 1048576 + a * 32768 + b * 1024 + p * 128 + q * 16 + m]
  | .vfma d a b p q m c u => [0x8000000 + d * 1048576 + a * 32768 + b * 1024 + p * 128 + q * 16 + m, c * 134217728 + u * 16777216]
  | .vfms d a b p q m c u => [0xa000000 + d * 1048576 + a * 32768 + b * 1024 + p * 128 + q * 16 + m, c * 134217728 + u * 16777216]
  | .vfnma d a b p q m c u => [0xc000000 + d * 1048576 + a * 32768 + b * 1024 + p * 128 + q * 16 + m, c * 134217728 + u * 16777216]
  | .vmin d a b p q m => [0xe000000 + d * 1048576 + a * 32768 + b * 1024 + p * 128 + q * 16 + m]
  | .vmax d a b p q m => [0x10000000 + d * 1048576 + a * 32768 + b * 1024 + p * 128 + q * 16 + m]
  | .vabs d a p m => [0x12000000 + d * 1048576 + a * 32768 + p * 128 + m]
  | .vneg d a p m => [0x14000000 + d * 1048576 + a * 32768 + p * 128 + m]
  | .vcmp d a b p q m cc => [0x16000000 + d * 1048576 + a * 32768 + b * 1024 + p * 128 + q * 16 + m, cc]
  | .vsel d a b p q s => [0x18000000 + d * 1048576 + a * 32768 + b * 1024 + p * 128 + q * 16 + s]
  | .vclamp d a b p q m c u => [0x1a000000 + d * 1048576 + a * 32768 + b * 1024 + p * 128 + q * 16 + m, c * 134217728 + u * 16777216]
  | .vand d a b p q m => [0x1c000000 + d * 1048576 + a * 32768 + b * 1024 + p * 128 + q * 16 + m]
  | .vor d a b p q m => [0x1e000000 + d * 1048576 + a * 32768 + b * 1024 + p * 128 + q * 16 + m]
  | .vxor d a b p q m => [0x20000000 + d * 1048576 + a * 32768 + b * 1024 + p * 128 + q * 16 + m]
  | .vnot d a p m => [0x22000000 + d * 1048576 + a * 32768 + p * 128 + m]
  | .vshl d a b p q m => [0x24000000 + d * 1048576 + a * 32768 + b * 1024 + p * 128 + q * 16 + m]
  | .vshr d a b p q m => [0x26000000 + d * 1048576 + a * 32768 + b * 1024 + p * 128 + q * 16 + m]
  | .vsar d a b p q m => [0x28000000 + d * 1048576 + a * 32768 + b * 1024 + p * 128 + q * 16 + m]
  | .vadds d a b p q m => [0x2a000000 + d * 1048576 + a * 32768 + b * 1024 + p * 128 + q * 16 + m]
  | .vsubs d a b p q m => [0x2c000000 + d * 1048576 + a * 32768 + b * 1024 + p * 128 + q * 16 + m]
  | .vmulh d a b p q m => [0x2e000000 + d * 1048576 + a * 32768 + b * 1024 + p * 128 + q * 16 + m]
  | .vcmul d a b p q m => [0x40000000 + d * 1048576 + a * 32768 + b * 1024 + p * 128 + q * 16 + m]
  | .vcmac d a b p q m c u => [0x42000000 + d * 1048576 + a * 32768 + b * 1024 + p * 128 + q * 16 + m, c * 134217728 + u * 16777216]
  | .vcmulj d a b p q m => [0x44000000 + d * 1048576 + a * 32768 + b * 1024 + p * 128 + q * 16 + m]
  | .vcmacj d a b p q m c u => [0x46000000 + d * 1048576 + a * 32768 + b * 1024 + p * 128 + q * 16 + m, c * 134217728 + u * 16777216]
  | .vconj d a p m => [0x48000000 + d * 1048576 + a * 32768 + p * 128 + m]
  | .vcabs2 d a p m => [0x4a000000 + d * 1048576 + a * 32768 + p * 128 + m]
  | .vshape r c t => [0x60000000 + r * 1048576 + c * 32768 + t * 1024]
  | .vmov d a p m => [0x62000000 + d * 1048576 + a * 32768 + p * 128 + m]
  | .vbcastMailbox d n m => [0x64000000 + d * 1048576 + n * 128 + m]
  | .vbcastElem d a j p m => [0x64002000 + d * 1048576 + a * 32768 + j * 128 + p * 16 + m]
  | .vbcastRow d a i p m => [0x64004000 + d * 1048576 + a * 32768 + i * 128 + p * 16 + m]
  | .vbcastCol d a j p m => [0x64006000 + d * 1048576 + a * 32768 + j * 128 + p * 16 + m]
  | .viota d k m => [0x66000000 + d * 1048576 + k * 128 + m]
  | .vtrans d a p m => [0x68000000 + d * 1048576 + a * 32768 + p * 128 + m]
  | .vld v a s e l i m => [0x6a000000 + v * 1048576 + a * 131072 + s * 16384 + e * 8192 + l * 1024 + i * 16 + m]
  | .vst v a s e l i m => [0x6c000000 + v * 1048576 + a * 131072 + s * 16384 + e * 8192 + l * 1024 + i * 16 + m]
  | .vldr d q m => [0x6e000000 + d * 1048576 + q * 65536 + m]
  | .vstr v q m => [0x70000000 + v * 1048576 + q * 65536 + m]
  | .vmskCopy n s => [0x72000000 + n * 1048576 + s]
  | .vmskNot n s => [0x72001000 + n * 1048576 + s]
  | .vmskNz n a p s => [0x72002000 + n * 1048576 + a * 32768 + p * 16 + s]
  | .vmskCols n c s => [0x72003000 + n * 1048576 + c * 128 + s]
  | .vmskRows n c s => [0x72004000 + n * 1048576 + c * 128 + s]
  | .vmskAnd n k s => [0x72005000 + n * 1048576 + k * 32768 + s]
  | .vmskOr n k s => [0x72006000 + n * 1048576 + k * 32768 + s]
  | .vmcnt k x => [0x74000000 + k * 32768 + x * 128]
  | .vtox a j x p => [0x76000000 + a * 32768 + j * 1024 + x * 128 + p * 16]
  | .vexp2 d a p m => [0x80000000 + d * 1048576 + a * 32768 + p * 16 + m]
  | .vexp d a p m => [0x82000000 + d * 1048576 + a * 32768 + p * 16 + m]
  | .vlog2 d a p m => [0x84000000 + d * 1048576 + a * 32768 + p * 16 + m]
  | .vln d a p m => [0x86000000 + d * 1048576 + a * 32768 + p * 16 + m]
  | .vrcp d a p m => [0x88000000 + d * 1048576 + a * 32768 + p * 16 + m]
  | .vrsq d a p m => [0x8a000000 + d * 1048576 + a * 32768 + p * 16 + m]
  | .vsqrt d a p m => [0x8c000000 + d * 1048576 + a * 32768 + p * 16 + m]
  | .vsigm d a p m => [0x8e000000 + d * 1048576 + a * 32768 + p * 16 + m]
  | .vsoftp d a p m => [0x90000000 + d * 1048576 + a * 32768 + p * 16 + m]
  | .vtanh d a p m => [0x92000000 + d * 1048576 + a * 32768 + p * 16 + m]
  | .vdiv d a b p q m => [0x94000000 + d * 1048576 + a * 32768 + b * 1024 + p * 128 + q * 16 + m]
  | .vreds d a r p s => [0xa0000000 + d * 1048576 + a * 32768 + r * 128 + p * 16 + s]
  | .vredm d a r p s => [0xa2000000 + d * 1048576 + a * 32768 + r * 128 + p * 16 + s]
  | .vredmIdx d a r p s => [0xa2000100 + d * 1048576 + a * 32768 + r * 128 + p * 16 + s]
  | .vredn d a r p s => [0xa4000000 + d * 1048576 + a * 32768 + r * 128 + p * 16 + s]
  | .vrednIdx d a r p s => [0xa4000100 + d * 1048576 + a * 32768 + r * 128 + p * 16 + s]
  | .vscans d a e r p s => [0xa6000000 + d * 1048576 + a * 32768 + e * 256 + r * 128 + p * 16 + s]
  | .vkey d a k p m => [0xa8000000 + d * 1048576 + a * 32768 + k * 128 + p * 16 + m]
  | .vhist d a c k b p m => [0xaa000000 + d * 1048576 + a * 32768 + c * 4096 + k * 512 + b * 128 + p * 16 + m]
  | .vpermb d a b p q m => [0xb0000000 + d * 1048576 + a * 32768 + b * 1024 + p * 128 + q * 16 + m]
  | .vbitg d a b p q m => [0xb2000000 + d * 1048576 + a * 32768 + b * 1024 + p * 128 + q * 16 + m]
  | .vbits d a b p q m => [0xb4000000 + d * 1048576 + a * 32768 + b * 1024 + p * 128 + q * 16 + m]
  | .vshuf d a b p q m => [0xb6000000 + d * 1048576 + a * 32768 + b * 1024 + p * 128 + q * 16 + m]
  | .vcomp d a k r p s => [0xb8000000 + d * 1048576 + a * 32768 + k * 256 + r * 128 + p * 16 + s]
  | .vexpd d a k r p s => [0xba000000 + d * 1048576 + a * 32768 + k * 256 + r * 128 + p * 16 + s]
  | .vcvt d a o p m st dt rnd sx imm => [0xc0000000 + d * 1048576 + a * 32768 + o * 128 + p * 16 + m, st * 524288 + dt * 16384 + rnd * 2048 + sx * 256 + imm]
  | .vpack d a p m st dt rnd sx imm => [0xc2000000 + d * 1048576 + a * 32768 + p * 16 + m, st * 524288 + dt * 16384 + rnd * 2048 + sx * 256 + imm]
  | .vunpk d a p m st dt rnd sx imm => [0xc4000000 + d * 1048576 + a * 32768 + p * 16 + m, st * 524288 + dt * 16384 + rnd * 2048 + sx * 256 + imm]
  | .vsrnd d a p m st dt rnd sx imm => [0xc6000000 + d * 1048576 + a * 32768 + p * 16 + m, st * 524288 + dt * 16384 + rnd * 2048 + sx * 256 + imm]
  | .vqnt d a b p q m st dt rnd sx imm => [0xc8000000 + d * 1048576 + a * 32768 + b * 1024 + p * 128 + q * 16 + m, st * 524288 + dt * 16384 + rnd * 2048 + sx * 256 + imm]
  | .mm qa qb md fi ta tb m n k acc => [qa * 2097152 + qb * 131072 + md * 32768 + fi * 16384 + ta * 512 + tb * 16, m * 8388608 + n * 8192 + k, acc * 262144]
  | .mmc qa qb md fi ta tb m n k acc cr cc => [0x2000000 + qa * 2097152 + qb * 131072 + md * 32768 + fi * 16384 + ta * 512 + tb * 16, m * 8388608 + n * 8192 + k, acc * 262144 + cr * 65536 + cc * 16384]
  | .mmt qa qb md fi ta tb m n k acc => [0x4000000 + qa * 2097152 + qb * 131072 + md * 32768 + fi * 16384 + ta * 512 + tb * 16, m * 8388608 + n * 8192 + k, acc * 262144]
  | .aczero fn acc rows cols => [0x10000000 + fn * 256, acc * 262144 + rows * 2048 + cols * 8]
  | .acdrain q dt fn acc rows cols => [0x12000000 + q * 2097152 + dt * 65536 + fn * 256, acc * 262144 + rows * 2048 + cols * 8]
  | .acsmx q dt dd acc rows cols => [0x14000000 + q * 2097152 + dt * 65536 + dd * 4096, acc * 262144 + rows * 2048 + cols * 8]
  | .acscale acc rows cols => [0x16000000, acc * 262144 + rows * 2048 + cols * 8]
  | .acnorm acc rows cols => [0x18000000, acc * 262144 + rows * 2048 + cols * 8]
  | .acmov q dt fn acc rows cols => [0x1a000000 + q * 2097152 + dt * 65536 + fn * 256, acc * 262144 + rows * 2048 + cols * 8]
  | .scdr qi qo flip emit g slot lay n => [qi * 2097152 + qo * 131072 + flip * 65536 + emit * 32768 + g * 512, slot * 16777216 + lay * 4096 + n * 64]
  | .scdc qi qo flip emit g slot lay n => [0x2000000 + qi * 2097152 + qo * 131072 + flip * 65536 + emit * 32768 + g * 512, slot * 16777216 + lay * 4096 + n * 64]
  | .scgk qi qo flip emit g slot lay n => [0x4000000 + qi * 2097152 + qo * 131072 + flip * 65536 + emit * 32768 + g * 512, slot * 16777216 + lay * 4096 + n * 64]
  | .scch qi qo flip emit g slot lay n => [0x6000000 + qi * 2097152 + qo * 131072 + flip * 65536 + emit * 32768 + g * 512, slot * 16777216 + lay * 4096 + n * 64]
  | .scout qo pend g slot lay => [0x8000000 + qo * 131072 + pend * 32768 + g * 512, slot * 16777216 + lay * 4096]
  | .scmode i => [0xa000000 + i]
  | .krin d a b => [d * 524288 + a * 8192 + b * 128]
  | .krout d b => [0x2000000 + d * 524288 + b * 128]
  | .ksnap d a => [0x4000000 + d * 524288 + a * 8192]
  | .kfork d a b => [0x6000000 + d * 524288 + a * 8192 + b * 128]
  | .krollC d b => [0x8000000 + d * 524288 + b * 128]
  | .krollP d a => [0x8000001 + d * 524288 + a * 8192]
  | .krollS d a b => [0x8000002 + d * 524288 + a * 8192 + b * 128]
  | .kcommit d a b => [0xa000000 + d * 524288 + a * 8192 + b * 128]
  | .kattach d a => [0xc000000 + d * 524288 + a * 8192]
  | .kdetach d a => [0xe000000 + d * 524288 + a * 8192]
  | .kstatSlot d b => [0x10000000 + d * 524288 + b * 128]
  | .kstatCask d a => [0x10000001 + d * 524288 + a * 8192]
  | .kwait d b => [0x12000000 + d * 524288 + b * 128]
  | .xld a b c => [a * 524288 + b * 8192 + c * 128]
  | .xldAcq a b c => [0x1 + a * 524288 + b * 8192 + c * 128]
  | .xldr b c q => [0x2000000 + b * 8192 + c * 128 + q]
  | .xgath a b c => [0x4000000 + a * 524288 + b * 8192 + c * 128]
  | .xcpy a b c t s => [0x6000000 + a * 524288 + b * 8192 + c * 128 + t * 2 + s]
  | .xfenceXl => [0x8000000]
  | .xmsgrx a h => [0xa000000 + a * 524288 + h]
  | .xst a b c => [a * 524288 + b * 8192 + c * 128]
  | .xstRing b c q => [0x10 + b * 8192 + c * 128 + q]
  | .xsta a b c => [0x2000000 + a * 524288 + b * 8192 + c * 128]
  | .xscat a b c => [0x4000000 + a * 524288 + b * 8192 + c * 128]
  | .xhring a b c => [0x6000000 + a * 524288 + b * 8192 + c * 128]
  | .xfenceXs => [0x8000000]
  | .xmsgtx a b c h => [0xa000000 + a * 524288 + b * 8192 + c * 128 + h]
  | .xstrel a b => [0xc000000 + a * 524288 + b * 8192]
  | .ctri a b all ch cnt dd => [0x20000000 + a * 524288 + b * 8192 + all * 8 + ch, cnt * 2048 + dd * 8]
  | .chist a b c all ch dt cnt mass bb => [0x22000000 + a * 524288 + b * 8192 + c * 128 + all * 8 + ch, dt * 134217728 + cnt * 2048 + mass * 32 + bb * 8]
  | .cmaxi a b all ch dt cnt mn => [0x24000000 + a * 524288 + b * 8192 + all * 8 + ch, dt * 134217728 + cnt * 2048 + mn * 8]
  | .csum a b c all ch dt cnt => [0x26000000 + a * 524288 + b * 8192 + c * 128 + all * 8 + ch, dt * 134217728 + cnt * 2048]
  | .cbcast a b ch cnt root => [0x28000000 + a * 524288 + b * 8192 + ch, cnt * 2048 + root * 8]
  | .cwait a h => [0x2a000000 + a * 524288 + h]
  | .fetchLine _ => []
  | .heldPost _ _ => []
  | .trapDelivery _ => []
  | .mmSlice _ => []
  | .scanStep _ => []
  | .commitWaitRecheck _ => []
  | .rackInComplete _ _ _ => []
  | .rackOutComplete _ _ _ => []
  | .xcpyComplete _ _ _ => []
  | .transferComplete _ _ _ => []
  | .portOperation _ => []
  | .portReply _ => []
  | .bwaitNotification _ => []
  | .barrierDeadline _ _ => []
  | .messageArrival _ => []
  | .instanceBegin _ _ _ => []
  | .instanceDelivery _ _ _ => []
  | .scratchRefillComplete _ _ => []
  | .scratchWritebackComplete _ _ => []
  | .invalidationAck _ _ => []
  | .stopComplete _ => []
  | .stopTimeout _ => []
  | .textLoadComplete _ _ => []
  | .launchAtStart _ => []
  | .launchRetry _ => []
  | .dispatcherChoice => []
  | .acceptCommand _ => []
  | .watchdog _ => []
  | .eventRecordAppend _ => []
  | .coalescingTimeout _ _ => []
  | .msixUnmask _ => []
  | .cmdNop _ => []
  | .launch _ => []
  | .launchAt _ => []
  | .copy _ _ => []
  | .fill _ _ => []
  | .signal _ => []
  | .wait _ => []
  | .cond _ => []
  | .timestamp _ => []
  | .hostring _ => []
  | .caskop _ => []
  | .commitWrite _ _ => []
  | .qcfgWrite _ _ => []
  | .qctlEnable _ => []
  | .qctlPause _ => []
  | .qctlResume _ => []
  | .qctlReset _ => []
  | .qctlRewind _ _ => []
  | .cdescWrite _ _ => []
  | .create _ => []
  | .bind _ => []
  | .unbind _ => []
  | .rebind _ => []
  | .clear _ => []
  | .discard _ => []
  | .destroy _ => []
  | .registerWrite _ _ _ => []
  | .hostMemoryWrite _ _ _ => []
  | .hostMemoryRead _ _ => []
  | .linkEnable _ => []
  | .trainingComplete _ => []
  | .trainingFailure _ => []
  | .pskExchange _ => []
  | .pskFinish _ _ => []
  | .keyDelivery _ _ => []
  | .routeTable _ => []
  | .data _ _ _ _ _ _ _ _ => []
  | .idle _ _ => []
  | .hold _ _ _ _ => []
  | .release _ _ _ _ => []
  | .mgmt _ _ => []
  | .keyack _ _ => []
  | .lack _ _ _ => []
  | .drain _ _ => []
  | .fcntLimit _ _ => []
  | .lctlRekeyDir0 _ => []
  | .lctlRekeyDir1 _ => []
  | .retrain _ => []
  | .ideKm _ _ => []
  | .getVersion => []
  | .getCapabilities => []
  | .negotiateAlgorithms _ _ _ _ => []
  | .challenge _ => []
  | .getMeasurements _ _ => []
  | .keyExchange _ => []
  | .finish _ _ => []
  | .heartbeat _ => []
  | .keyUpdate _ => []
  | .endSession _ => []
  | .chunkSend _ _ _ => []
  | .chunkGet _ _ => []
  | .unsupportedRequest _ => []
  | .keyset _ _ _ _ _ => []
  | .keyretire _ _ => []
  | .rootadd _ _ _ _ => []
  | .rootrevoke _ _ => []
  | .diereset _ _ => []
  | .status _ => []
  | .dieKeyAck _ => []
  | .powerUp => []
  | .powerOff => []
  | .measurementReply _ _ => []
  | .measurementTimeout _ => []
  | .controlLogicFault _ => []
  | .dieResetComplete _ => []
  | .ppsEdge _ => []
  | .ppsMiss => []
  | .ptcSlew => []
  | .ptcadjWrite _ => []
  | .ptcstepWrite _ => []
  | .ptcrateWrite _ => []
  | .ptccfgWrite _ => []
  | .pwrcapWrite _ => []
  | .dvfsPointChange _ _ _ => []
  | .arrayPowerDown _ => []
  | .arrayWakeWave _ _ => []
  | .errorRegisterWrite _ _ => []
  | .stailWrite _ _ => []
  | .sendDescriptor _ => []
  | .unassignedOpcode => []
  | .copyPageFault _ _ => []
  | .writeForward _ _ _ => []
  | .scheduledRekey _ _ => []

/-- The lanes of an instruction as 32-bit words. -/
def encode (i : Instr) : List Lane := (encodeNat i).map (BitVec.ofNat 32)

/-- How many lanes an opcode has (the Lanes columns of R84 to R87); `none` for an unassigned opcode. -/
def opLanes (g : Eng) (op : Nat) : Option Nat :=
  match g with
  | .ce => if op ≤ 27 ∨ 32 ≤ op ∧ op ≤ 40 ∨ op = 43 ∨ 48 ≤ op ∧ op ≤ 53 ∨ 64 ≤ op ∧ op ≤ 69 ∨ 72 ≤ op ∧ op ≤ 76 ∨ 80 ≤ op ∧ op ≤ 85 ∨ 88 ≤ op ∧ op ≤ 93 ∨ 96 ≤ op ∧ op ≤ 110 ∨ 112 ≤ op ∧ op ≤ 115 ∨ 117 ≤ op ∧ op ≤ 118 ∨ 120 ≤ op ∧ op ≤ 123 then some 1 else if 41 ≤ op ∧ op ≤ 42 ∨ op = 116 then some 2 else none
  | .ve => if 1 ≤ op ∧ op ≤ 3 ∨ 7 ≤ op ∧ op ≤ 10 ∨ op = 12 ∨ 14 ≤ op ∧ op ≤ 23 ∨ op = 32 ∨ op = 34 ∨ 36 ≤ op ∧ op ≤ 37 ∨ 48 ≤ op ∧ op ≤ 59 ∨ 64 ≤ op ∧ op ≤ 74 ∨ 80 ≤ op ∧ op ≤ 85 ∨ 88 ≤ op ∧ op ≤ 93 then some 1 else if 4 ≤ op ∧ op ≤ 6 ∨ op = 11 ∨ op = 13 ∨ op = 33 ∨ op = 35 ∨ 96 ≤ op ∧ op ≤ 100 then some 2 else none
  | .me => if 8 ≤ op ∧ op ≤ 13 then some 2 else if op ≤ 2 then some 3 else none
  | .se => if op = 5 then some 1 else if op ≤ 4 then some 2 else none
  | .xl => if op ≤ 5 then some 1 else none
  | .xs => if op ≤ 6 ∨ op = 21 then some 1 else if 16 ≤ op ∧ op ≤ 20 then some 2 else none
  | .ke => if op ≤ 9 then some 1 else none

/-- The privileged opcodes of the CE (R84: CTXSAVE to RESUME, PGPIN to TLBINV). -/
def privileged (g : Eng) (op : Nat) : Bool :=
  g == .ce && (decide (0x6A ≤ op ∧ op ≤ 0x6E) || decide (0x78 ≤ op ∧ op ≤ 0x7B))

/-- The rows of the CE that an opcode may stand for, their fields read from the head `h` and continuation lanes `c`, `e`. -/
def rowsCe (op h c _e : Nat) : List Instr :=
  match op with
  | 0 => [.nop]
  | 1 => [.add (h / 524288 % 64) (h / 8192 % 64) (h / 128 % 64)]
  | 2 => [.sub (h / 524288 % 64) (h / 8192 % 64) (h / 128 % 64)]
  | 3 => [.and (h / 524288 % 64) (h / 8192 % 64) (h / 128 % 64)]
  | 4 => [.or (h / 524288 % 64) (h / 8192 % 64) (h / 128 % 64)]
  | 5 => [.xor (h / 524288 % 64) (h / 8192 % 64) (h / 128 % 64)]
  | 6 => [.shl (h / 524288 % 64) (h / 8192 % 64) (h / 128 % 64)]
  | 7 => [.shr (h / 524288 % 64) (h / 8192 % 64) (h / 128 % 64)]
  | 8 => [.sar (h / 524288 % 64) (h / 8192 % 64) (h / 128 % 64)]
  | 9 => [.mul (h / 524288 % 64) (h / 8192 % 64) (h / 128 % 64)]
  | 10 => [.mulh (h / 524288 % 64) (h / 8192 % 64) (h / 128 % 64)]
  | 11 => [.mulhn (h / 524288 % 64) (h / 8192 % 64) (h / 128 % 64)]
  | 12 => [.div (h / 524288 % 64) (h / 8192 % 64) (h / 128 % 64)]
  | 13 => [.divn (h / 524288 % 64) (h / 8192 % 64) (h / 128 % 64)]
  | 14 => [.rem (h / 524288 % 64) (h / 8192 % 64) (h / 128 % 64)]
  | 15 => [.remn (h / 524288 % 64) (h / 8192 % 64) (h / 128 % 64)]
  | 16 => [.min (h / 524288 % 64) (h / 8192 % 64) (h / 128 % 64)]
  | 17 => [.max (h / 524288 % 64) (h / 8192 % 64) (h / 128 % 64)]
  | 18 => [.minn (h / 524288 % 64) (h / 8192 % 64) (h / 128 % 64)]
  | 19 => [.maxn (h / 524288 % 64) (h / 8192 % 64) (h / 128 % 64)]
  | 20 => [.slt (h / 524288 % 64) (h / 8192 % 64) (h / 128 % 64)]
  | 21 => [.sltn (h / 524288 % 64) (h / 8192 % 64) (h / 128 % 64)]
  | 22 => [.seq (h / 524288 % 64) (h / 8192 % 64) (h / 128 % 64)]
  | 23 => [.clz (h / 524288 % 64) (h / 8192 % 64)]
  | 24 => [.popc (h / 524288 % 64) (h / 8192 % 64)]
  | 25 => [.bext (h / 524288 % 64) (h / 8192 % 64) (h / 128 % 64) (h % 64)]
  | 26 => [.bins (h / 524288 % 64) (h / 8192 % 64) (h / 128 % 64) (h % 64)]
  | 27 => [.brev (h / 524288 % 64) (h / 8192 % 64)]
  | 32 => [.addi (h / 524288 % 64) (h / 8192 % 64) (h % 8192)]
  | 33 => [.andi (h / 524288 % 64) (h / 8192 % 64) (h % 8192)]
  | 34 => [.ori (h / 524288 % 64) (h / 8192 % 64) (h % 8192)]
  | 35 => [.xori (h / 524288 % 64) (h / 8192 % 64) (h % 8192)]
  | 36 => [.shli (h / 524288 % 64) (h / 8192 % 64) (h % 64)]
  | 37 => [.shri (h / 524288 % 64) (h / 8192 % 64) (h % 64)]
  | 38 => [.sari (h / 524288 % 64) (h / 8192 % 64) (h % 64)]
  | 39 => [.slti (h / 524288 % 64) (h / 8192 % 64) (h % 8192)]
  | 40 => [.ldi (h / 524288 % 64) (h % 8192)]
  | 41 => [.ldiw (h / 524288 % 64) c]
  | 42 => [.ldih (h / 524288 % 64) (h / 8192 % 64) c]
  | 43 => [.muli (h / 524288 % 64) (h / 8192 % 64) (h % 8192)]
  | 48 => [.lds (h / 524288 % 64) (h / 8192 % 64) (h / 1024 % 8) (h % 1024)]
  | 49 => [.sts (h / 524288 % 64) (h / 8192 % 64) (h / 1024 % 8) (h % 1024)]
  | 50 => [.lda (h / 524288 % 64) (h / 8192 % 64) (h / 1024 % 8) (h % 1024)]
  | 51 => [.stl (h / 524288 % 64) (h / 8192 % 64) (h / 1024 % 8) (h % 1024)]
  | 52 => [.fence, .fenceAcq, .fenceRel]
  | 53 => [.cflush (h / 8192 % 64) (h % 8192)]
  | 64 => [.b (h % 524288)]
  | 65 => [.bc (h / 524288 % 64) (h / 8192 % 64) (h / 1024 % 8) (h % 1024)]
  | 66 => [.bz (h / 524288 % 64) (h / 1024 % 8) (h % 1024)]
  | 67 => [.call (h / 524288 % 64) (h % 524288)]
  | 68 => [.ret (h / 8192 % 64)]
  | 69 => [.jr (h / 8192 % 64)]
  | 72 => [.loop (h / 4194304 % 8) (h / 65536 % 64) (h % 8192)]
  | 73 => [.loopx (h / 4194304 % 8) (h / 65536 % 64) (h % 8192)]
  | 74 => [.lcrd (h / 524288 % 64) (h % 8), .lcrdTrips (h / 524288 % 64) (h % 8)]
  | 75 => [.stage (h % 8), .stageSet (h / 8192 % 64) (h % 8)]
  | 76 => [.rotb (h / 8192 % 64) (h % 16)]
  | 80 => [.tkwait (h % 64)]
  | 81 => [.tkpost (h % 64)]
  | 82 => [.tkset (h / 8192 % 64) (h % 64)]
  | 83 => [.tkrd (h / 524288 % 64) (h % 64)]
  | 84 => [.mbrd (h / 524288 % 64) (h % 8)]
  | 85 => [.mbwr (h / 8192 % 64) (h % 8)]
  | 88 => [.binit (h / 8192 % 64) (h % 256)]
  | 89 => [.barv (h % 256)]
  | 90 => [.bwait (h / 524288 % 64) (h % 256)]
  | 91 => [.bdrop (h % 256)]
  | 92 => [.binval (h % 256)]
  | 93 => [.btime (h / 8192 % 64) (h % 256)]
  | 96 => [.csrrd (h / 524288 % 64) (h % 4096)]
  | 97 => [.csrwr (h / 8192 % 64) (h % 4096)]
  | 98 => [.ptcrd (h / 524288 % 64)]
  | 99 => [.trap (h % 256)]
  | 100 => [.tret]
  | 101 => [.yield]
  | 102 => [.endK]
  | 103 => [.halt]
  | 104 => [.evpost (h / 8192 % 64) (h / 128 % 64)]
  | 105 => [.brk (h % 8192)]
  | 106 => [.ctxsave (h / 524288 % 64) (h / 8192 % 64) (h % 2), .ctxsavePark (h / 524288 % 64) (h / 8192 % 64) (h % 2)]
  | 107 => [.ctxload (h / 524288 % 64) (h / 8192 % 64) (h % 2), .ctxloadUnpark (h / 524288 % 64) (h / 8192 % 64) (h % 2)]
  | 108 => [.ctxmap (h / 524288 % 64) (h / 8192 % 64) (h / 128 % 64)]
  | 109 => [.preempt (h / 524288 % 64) (h / 8192 % 64), .preemptY (h / 524288 % 64) (h / 8192 % 64)]
  | 110 => [.resume (h / 524288 % 64) (h / 8192 % 64), .resumeM (h / 524288 % 64) (h / 8192 % 64) (h / 128 % 64), .resumeSkip (h / 524288 % 64) (h / 8192 % 64) (h / 128 % 64), .resumeEnd (h / 524288 % 64) (h / 8192 % 64) (h / 128 % 64)]
  | 112 => [.atadd (h / 524288 % 64) (h / 8192 % 64) (h / 128 % 64) (h % 8)]
  | 113 => [.atmax (h / 524288 % 64) (h / 8192 % 64) (h / 128 % 64) (h % 8)]
  | 114 => [.atmin (h / 524288 % 64) (h / 8192 % 64) (h / 128 % 64) (h % 8)]
  | 115 => [.atxchg (h / 524288 % 64) (h / 8192 % 64) (h / 128 % 64) (h % 8)]
  | 116 => [.atcas (h / 524288 % 64) (h / 8192 % 64) (h / 128 % 64) (h % 8) (c / 67108864)]
  | 117 => [.atincnz (h / 524288 % 64) (h / 8192 % 64) (h % 8)]
  | 118 => [.atdec (h / 524288 % 64) (h / 8192 % 64) (h % 8)]
  | 120 => [.pgpin (h / 524288 % 64) (h / 8192 % 64) (h / 128 % 64)]
  | 121 => [.pgunpin (h / 524288 % 64) (h / 8192 % 64) (h / 128 % 64), .pgunpinEv (h / 524288 % 64) (h / 8192 % 64) (h / 128 % 64)]
  | 122 => [.slabfwSt (h / 524288 % 64) (h / 8192 % 64) (h / 128 % 64), .slabfwMw (h / 524288 % 64) (h / 8192 % 64) (h / 128 % 64), .slabfwEnd (h / 524288 % 64) (h / 8192 % 64)]
  | 123 => [.tlbinvVa (h / 524288 % 64) (h / 8192 % 64) (h / 128 % 64), .tlbinvCtx (h / 524288 % 64) (h / 128 % 64), .tlbinvSlab (h / 524288 % 64) (h / 8192 % 64) (h / 128 % 64), .tlbinvAll (h / 524288 % 64)]
  | _ => []

/-- The rows of the VE that an opcode may stand for, their fields read from the head `h` and continuation lanes `c`, `e`. -/
def rowsVe (op h c _e : Nat) : List Instr :=
  match op with
  | 1 => [.vadd (h / 1048576 % 32) (h / 32768 % 32) (h / 1024 % 32) (h / 128 % 8) (h / 16 % 8) (h % 16)]
  | 2 => [.vsub (h / 1048576 % 32) (h / 32768 % 32) (h / 1024 % 32) (h / 128 % 8) (h / 16 % 8) (h % 16)]
  | 3 => [.vmul (h / 1048576 % 32) (h / 32768 % 32) (h / 1024 % 32) (h / 128 % 8) (h / 16 % 8) (h % 16)]
  | 4 => [.vfma (h / 1048576 % 32) (h / 32768 % 32) (h / 1024 % 32) (h / 128 % 8) (h / 16 % 8) (h % 16) (c / 134217728) (c / 16777216 % 8)]
  | 5 => [.vfms (h / 1048576 % 32) (h / 32768 % 32) (h / 1024 % 32) (h / 128 % 8) (h / 16 % 8) (h % 16) (c / 134217728) (c / 16777216 % 8)]
  | 6 => [.vfnma (h / 1048576 % 32) (h / 32768 % 32) (h / 1024 % 32) (h / 128 % 8) (h / 16 % 8) (h % 16) (c / 134217728) (c / 16777216 % 8)]
  | 7 => [.vmin (h / 1048576 % 32) (h / 32768 % 32) (h / 1024 % 32) (h / 128 % 8) (h / 16 % 8) (h % 16)]
  | 8 => [.vmax (h / 1048576 % 32) (h / 32768 % 32) (h / 1024 % 32) (h / 128 % 8) (h / 16 % 8) (h % 16)]
  | 9 => [.vabs (h / 1048576 % 32) (h / 32768 % 32) (h / 128 % 8) (h % 16)]
  | 10 => [.vneg (h / 1048576 % 32) (h / 32768 % 32) (h / 128 % 8) (h % 16)]
  | 11 => [.vcmp (h / 1048576 % 32) (h / 32768 % 32) (h / 1024 % 32) (h / 128 % 8) (h / 16 % 8) (h % 16) (c % 256)]
  | 12 => [.vsel (h / 1048576 % 32) (h / 32768 % 32) (h / 1024 % 32) (h / 128 % 8) (h / 16 % 8) (h % 16)]
  | 13 => [.vclamp (h / 1048576 % 32) (h / 32768 % 32) (h / 1024 % 32) (h / 128 % 8) (h / 16 % 8) (h % 16) (c / 134217728) (c / 16777216 % 8)]
  | 14 => [.vand (h / 1048576 % 32) (h / 32768 % 32) (h / 1024 % 32) (h / 128 % 8) (h / 16 % 8) (h % 16)]
  | 15 => [.vor (h / 1048576 % 32) (h / 32768 % 32) (h / 1024 % 32) (h / 128 % 8) (h / 16 % 8) (h % 16)]
  | 16 => [.vxor (h / 1048576 % 32) (h / 32768 % 32) (h / 1024 % 32) (h / 128 % 8) (h / 16 % 8) (h % 16)]
  | 17 => [.vnot (h / 1048576 % 32) (h / 32768 % 32) (h / 128 % 8) (h % 16)]
  | 18 => [.vshl (h / 1048576 % 32) (h / 32768 % 32) (h / 1024 % 32) (h / 128 % 8) (h / 16 % 8) (h % 16)]
  | 19 => [.vshr (h / 1048576 % 32) (h / 32768 % 32) (h / 1024 % 32) (h / 128 % 8) (h / 16 % 8) (h % 16)]
  | 20 => [.vsar (h / 1048576 % 32) (h / 32768 % 32) (h / 1024 % 32) (h / 128 % 8) (h / 16 % 8) (h % 16)]
  | 21 => [.vadds (h / 1048576 % 32) (h / 32768 % 32) (h / 1024 % 32) (h / 128 % 8) (h / 16 % 8) (h % 16)]
  | 22 => [.vsubs (h / 1048576 % 32) (h / 32768 % 32) (h / 1024 % 32) (h / 128 % 8) (h / 16 % 8) (h % 16)]
  | 23 => [.vmulh (h / 1048576 % 32) (h / 32768 % 32) (h / 1024 % 32) (h / 128 % 8) (h / 16 % 8) (h % 16)]
  | 32 => [.vcmul (h / 1048576 % 32) (h / 32768 % 32) (h / 1024 % 32) (h / 128 % 8) (h / 16 % 8) (h % 16)]
  | 33 => [.vcmac (h / 1048576 % 32) (h / 32768 % 32) (h / 1024 % 32) (h / 128 % 8) (h / 16 % 8) (h % 16) (c / 134217728) (c / 16777216 % 8)]
  | 34 => [.vcmulj (h / 1048576 % 32) (h / 32768 % 32) (h / 1024 % 32) (h / 128 % 8) (h / 16 % 8) (h % 16)]
  | 35 => [.vcmacj (h / 1048576 % 32) (h / 32768 % 32) (h / 1024 % 32) (h / 128 % 8) (h / 16 % 8) (h % 16) (c / 134217728) (c / 16777216 % 8)]
  | 36 => [.vconj (h / 1048576 % 32) (h / 32768 % 32) (h / 128 % 8) (h % 16)]
  | 37 => [.vcabs2 (h / 1048576 % 32) (h / 32768 % 32) (h / 128 % 8) (h % 16)]
  | 48 => [.vshape (h / 1048576 % 32) (h / 32768 % 32) (h / 1024 % 32)]
  | 49 => [.vmov (h / 1048576 % 32) (h / 32768 % 32) (h / 128 % 8) (h % 16)]
  | 50 => [.vbcastMailbox (h / 1048576 % 32) (h / 128 % 8) (h % 16), .vbcastElem (h / 1048576 % 32) (h / 32768 % 32) (h / 128 % 32) (h / 16 % 8) (h % 16), .vbcastRow (h / 1048576 % 32) (h / 32768 % 32) (h / 128 % 32) (h / 16 % 8) (h % 16), .vbcastCol (h / 1048576 % 32) (h / 32768 % 32) (h / 128 % 32) (h / 16 % 8) (h % 16)]
  | 51 => [.viota (h / 1048576 % 32) (h / 128 % 4) (h % 16)]
  | 52 => [.vtrans (h / 1048576 % 32) (h / 32768 % 32) (h / 128 % 8) (h % 16)]
  | 53 => [.vld (h / 1048576 % 32) (h / 131072 % 8) (h / 16384 % 8) (h / 8192 % 2) (h / 1024 % 8) (h / 16 % 64) (h % 16)]
  | 54 => [.vst (h / 1048576 % 32) (h / 131072 % 8) (h / 16384 % 8) (h / 8192 % 2) (h / 1024 % 8) (h / 16 % 64) (h % 16)]
  | 55 => [.vldr (h / 1048576 % 32) (h / 65536 % 16) (h % 16)]
  | 56 => [.vstr (h / 1048576 % 32) (h / 65536 % 16) (h % 16)]
  | 57 => [.vmskCopy (h / 1048576 % 16) (h % 16), .vmskNot (h / 1048576 % 16) (h % 16), .vmskNz (h / 1048576 % 16) (h / 32768 % 32) (h / 16 % 8) (h % 16), .vmskCols (h / 1048576 % 16) (h / 128 % 32) (h % 16), .vmskRows (h / 1048576 % 16) (h / 128 % 32) (h % 16), .vmskAnd (h / 1048576 % 16) (h / 32768 % 16) (h % 16), .vmskOr (h / 1048576 % 16) (h / 32768 % 16) (h % 16)]
  | 58 => [.vmcnt (h / 32768 % 16) (h / 128 % 8)]
  | 59 => [.vtox (h / 32768 % 32) (h / 1024 % 32) (h / 128 % 8) (h / 16 % 8)]
  | 64 => [.vexp2 (h / 1048576 % 32) (h / 32768 % 32) (h / 16 % 8) (h % 16)]
  | 65 => [.vexp (h / 1048576 % 32) (h / 32768 % 32) (h / 16 % 8) (h % 16)]
  | 66 => [.vlog2 (h / 1048576 % 32) (h / 32768 % 32) (h / 16 % 8) (h % 16)]
  | 67 => [.vln (h / 1048576 % 32) (h / 32768 % 32) (h / 16 % 8) (h % 16)]
  | 68 => [.vrcp (h / 1048576 % 32) (h / 32768 % 32) (h / 16 % 8) (h % 16)]
  | 69 => [.vrsq (h / 1048576 % 32) (h / 32768 % 32) (h / 16 % 8) (h % 16)]
  | 70 => [.vsqrt (h / 1048576 % 32) (h / 32768 % 32) (h / 16 % 8) (h % 16)]
  | 71 => [.vsigm (h / 1048576 % 32) (h / 32768 % 32) (h / 16 % 8) (h % 16)]
  | 72 => [.vsoftp (h / 1048576 % 32) (h / 32768 % 32) (h / 16 % 8) (h % 16)]
  | 73 => [.vtanh (h / 1048576 % 32) (h / 32768 % 32) (h / 16 % 8) (h % 16)]
  | 74 => [.vdiv (h / 1048576 % 32) (h / 32768 % 32) (h / 1024 % 32) (h / 128 % 8) (h / 16 % 8) (h % 16)]
  | 80 => [.vreds (h / 1048576 % 32) (h / 32768 % 32) (h / 128 % 2) (h / 16 % 8) (h % 16)]
  | 81 => [.vredm (h / 1048576 % 32) (h / 32768 % 32) (h / 128 % 2) (h / 16 % 8) (h % 16), .vredmIdx (h / 1048576 % 32) (h / 32768 % 32) (h / 128 % 2) (h / 16 % 8) (h % 16)]
  | 82 => [.vredn (h / 1048576 % 32) (h / 32768 % 32) (h / 128 % 2) (h / 16 % 8) (h % 16), .vrednIdx (h / 1048576 % 32) (h / 32768 % 32) (h / 128 % 2) (h / 16 % 8) (h % 16)]
  | 83 => [.vscans (h / 1048576 % 32) (h / 32768 % 32) (h / 256 % 2) (h / 128 % 2) (h / 16 % 8) (h % 16)]
  | 84 => [.vkey (h / 1048576 % 32) (h / 32768 % 32) (h / 128 % 2) (h / 16 % 8) (h % 16)]
  | 85 => [.vhist (h / 1048576 % 32) (h / 32768 % 32) (h / 4096 % 2) (h / 512 % 8) (h / 128 % 4) (h / 16 % 8) (h % 16)]
  | 88 => [.vpermb (h / 1048576 % 32) (h / 32768 % 32) (h / 1024 % 32) (h / 128 % 8) (h / 16 % 8) (h % 16)]
  | 89 => [.vbitg (h / 1048576 % 32) (h / 32768 % 32) (h / 1024 % 32) (h / 128 % 8) (h / 16 % 8) (h % 16)]
  | 90 => [.vbits (h / 1048576 % 32) (h / 32768 % 32) (h / 1024 % 32) (h / 128 % 8) (h / 16 % 8) (h % 16)]
  | 91 => [.vshuf (h / 1048576 % 32) (h / 32768 % 32) (h / 1024 % 32) (h / 128 % 8) (h / 16 % 8) (h % 16)]
  | 92 => [.vcomp (h / 1048576 % 32) (h / 32768 % 32) (h / 256 % 2) (h / 128 % 2) (h / 16 % 8) (h % 16)]
  | 93 => [.vexpd (h / 1048576 % 32) (h / 32768 % 32) (h / 256 % 2) (h / 128 % 2) (h / 16 % 8) (h % 16)]
  | 96 => [.vcvt (h / 1048576 % 32) (h / 32768 % 32) (h / 128 % 2) (h / 16 % 8) (h % 16) (c / 524288 % 32) (c / 16384 % 32) (c / 2048 % 8) (c / 256 % 8) (c % 256)]
  | 97 => [.vpack (h / 1048576 % 32) (h / 32768 % 32) (h / 16 % 8) (h % 16) (c / 524288 % 32) (c / 16384 % 32) (c / 2048 % 8) (c / 256 % 8) (c % 256)]
  | 98 => [.vunpk (h / 1048576 % 32) (h / 32768 % 32) (h / 16 % 8) (h % 16) (c / 524288 % 32) (c / 16384 % 32) (c / 2048 % 8) (c / 256 % 8) (c % 256)]
  | 99 => [.vsrnd (h / 1048576 % 32) (h / 32768 % 32) (h / 16 % 8) (h % 16) (c / 524288 % 32) (c / 16384 % 32) (c / 2048 % 8) (c / 256 % 8) (c % 256)]
  | 100 => [.vqnt (h / 1048576 % 32) (h / 32768 % 32) (h / 1024 % 32) (h / 128 % 8) (h / 16 % 8) (h % 16) (c / 524288 % 32) (c / 16384 % 32) (c / 2048 % 8) (c / 256 % 8) (c % 256)]
  | _ => []

/-- The rows of the ME that an opcode may stand for, their fields read from the head `h` and continuation lanes `c`, `e`. -/
def rowsMe (op h c e : Nat) : List Instr :=
  match op with
  | 0 => [.mm (h / 2097152 % 16) (h / 131072 % 16) (h / 32768 % 4) (h / 16384 % 2) (h / 512 % 32) (h / 16 % 32) (c / 8388608) (c / 8192 % 1024) (c % 8192) (e / 262144)]
  | 1 => [.mmc (h / 2097152 % 16) (h / 131072 % 16) (h / 32768 % 4) (h / 16384 % 2) (h / 512 % 32) (h / 16 % 32) (c / 8388608) (c / 8192 % 1024) (c % 8192) (e / 262144) (e / 65536 % 4) (e / 16384 % 4)]
  | 2 => [.mmt (h / 2097152 % 16) (h / 131072 % 16) (h / 32768 % 4) (h / 16384 % 2) (h / 512 % 32) (h / 16 % 32) (c / 8388608) (c / 8192 % 1024) (c % 8192) (e / 262144)]
  | 8 => [.aczero (h / 256 % 256) (c / 262144) (c / 2048 % 128) (c / 8 % 256)]
  | 9 => [.acdrain (h / 2097152 % 16) (h / 65536 % 32) (h / 256 % 256) (c / 262144) (c / 2048 % 128) (c / 8 % 256)]
  | 10 => [.acsmx (h / 2097152 % 16) (h / 65536 % 32) (h / 4096 % 16) (c / 262144) (c / 2048 % 128) (c / 8 % 256)]
  | 11 => [.acscale (c / 262144) (c / 2048 % 128) (c / 8 % 256)]
  | 12 => [.acnorm (c / 262144) (c / 2048 % 128) (c / 8 % 256)]
  | 13 => [.acmov (h / 2097152 % 16) (h / 65536 % 32) (h / 256 % 256) (c / 262144) (c / 2048 % 128) (c / 8 % 256)]
  | _ => []

/-- The rows of the SE that an opcode may stand for, their fields read from the head `h` and continuation lanes `c`, `e`. -/
def rowsSe (op h c _e : Nat) : List Instr :=
  match op with
  | 0 => [.scdr (h / 2097152 % 16) (h / 131072 % 16) (h / 65536 % 2) (h / 32768 % 2) (h / 512 % 64) (c / 16777216) (c / 4096 % 4096) (c / 64 % 64)]
  | 1 => [.scdc (h / 2097152 % 16) (h / 131072 % 16) (h / 65536 % 2) (h / 32768 % 2) (h / 512 % 64) (c / 16777216) (c / 4096 % 4096) (c / 64 % 64)]
  | 2 => [.scgk (h / 2097152 % 16) (h / 131072 % 16) (h / 65536 % 2) (h / 32768 % 2) (h / 512 % 64) (c / 16777216) (c / 4096 % 4096) (c / 64 % 64)]
  | 3 => [.scch (h / 2097152 % 16) (h / 131072 % 16) (h / 65536 % 2) (h / 32768 % 2) (h / 512 % 64) (c / 16777216) (c / 4096 % 4096) (c / 64 % 64)]
  | 4 => [.scout (h / 131072 % 16) (h / 32768 % 2) (h / 512 % 64) (c / 16777216) (c / 4096 % 4096)]
  | 5 => [.scmode (h % 65536)]
  | _ => []

/-- The rows of the XL that an opcode may stand for, their fields read from the head `h` and continuation lanes `c`, `e`. -/
def rowsXl (op h _c _e : Nat) : List Instr :=
  match op with
  | 0 => [.xld (h / 524288 % 64) (h / 8192 % 64) (h / 128 % 64), .xldAcq (h / 524288 % 64) (h / 8192 % 64) (h / 128 % 64)]
  | 1 => [.xldr (h / 8192 % 64) (h / 128 % 64) (h % 16)]
  | 2 => [.xgath (h / 524288 % 64) (h / 8192 % 64) (h / 128 % 64)]
  | 3 => [.xcpy (h / 524288 % 64) (h / 8192 % 64) (h / 128 % 64) (h / 2 % 2) (h % 2)]
  | 4 => [.xfenceXl]
  | 5 => [.xmsgrx (h / 524288 % 64) (h % 8)]
  | _ => []

/-- The rows of the XS that an opcode may stand for, their fields read from the head `h` and continuation lanes `c`, `e`. -/
def rowsXs (op h c _e : Nat) : List Instr :=
  match op with
  | 0 => [.xst (h / 524288 % 64) (h / 8192 % 64) (h / 128 % 64), .xstRing (h / 8192 % 64) (h / 128 % 64) (h % 16)]
  | 1 => [.xsta (h / 524288 % 64) (h / 8192 % 64) (h / 128 % 64)]
  | 2 => [.xscat (h / 524288 % 64) (h / 8192 % 64) (h / 128 % 64)]
  | 3 => [.xhring (h / 524288 % 64) (h / 8192 % 64) (h / 128 % 64)]
  | 4 => [.xfenceXs]
  | 5 => [.xmsgtx (h / 524288 % 64) (h / 8192 % 64) (h / 128 % 64) (h % 8)]
  | 6 => [.xstrel (h / 524288 % 64) (h / 8192 % 64)]
  | 16 => [.ctri (h / 524288 % 64) (h / 8192 % 64) (h / 8 % 2) (h % 8) (c / 2048 % 65536) (c / 8 % 16)]
  | 17 => [.chist (h / 524288 % 64) (h / 8192 % 64) (h / 128 % 64) (h / 8 % 2) (h % 8) (c / 134217728) (c / 2048 % 65536) (c / 32 % 2) (c / 8 % 4)]
  | 18 => [.cmaxi (h / 524288 % 64) (h / 8192 % 64) (h / 8 % 2) (h % 8) (c / 134217728) (c / 2048 % 65536) (c / 8 % 2)]
  | 19 => [.csum (h / 524288 % 64) (h / 8192 % 64) (h / 128 % 64) (h / 8 % 2) (h % 8) (c / 134217728) (c / 2048 % 65536)]
  | 20 => [.cbcast (h / 524288 % 64) (h / 8192 % 64) (h % 8) (c / 2048 % 65536) (c / 8 % 8)]
  | 21 => [.cwait (h / 524288 % 64) (h % 8)]
  | _ => []

/-- The rows of the KE that an opcode may stand for, their fields read from the head `h` and continuation lanes `c`, `e`. -/
def rowsKe (op h _c _e : Nat) : List Instr :=
  match op with
  | 0 => [.krin (h / 524288 % 64) (h / 8192 % 64) (h / 128 % 64)]
  | 1 => [.krout (h / 524288 % 64) (h / 128 % 64)]
  | 2 => [.ksnap (h / 524288 % 64) (h / 8192 % 64)]
  | 3 => [.kfork (h / 524288 % 64) (h / 8192 % 64) (h / 128 % 64)]
  | 4 => [.krollC (h / 524288 % 64) (h / 128 % 64), .krollP (h / 524288 % 64) (h / 8192 % 64), .krollS (h / 524288 % 64) (h / 8192 % 64) (h / 128 % 64)]
  | 5 => [.kcommit (h / 524288 % 64) (h / 8192 % 64) (h / 128 % 64)]
  | 6 => [.kattach (h / 524288 % 64) (h / 8192 % 64)]
  | 7 => [.kdetach (h / 524288 % 64) (h / 8192 % 64)]
  | 8 => [.kstatSlot (h / 524288 % 64) (h / 128 % 64), .kstatCask (h / 524288 % 64) (h / 8192 % 64)]
  | 9 => [.kwait (h / 524288 % 64) (h / 128 % 64)]
  | _ => []

/-- The rows of an engine for an opcode. -/
def rowsOf (g : Eng) (op h c e : Nat) : List Instr :=
  match g with
  | .ce => rowsCe op h c e
  | .ve => rowsVe op h c e
  | .me => rowsMe op h c e
  | .se => rowsSe op h c e
  | .xl => rowsXl op h c e
  | .xs => rowsXs op h c e
  | .ke => rowsKe op h c e

/-- The opcode of a head lane (R74). -/
def opOf (h : Nat) : Nat := h / 33554432

/-- Decodes the head and continuation lanes of an instruction of engine `g`: checks 1, 2 and 4 of R88, in that order.
A row is taken only when it is well-formed and its encoding gives back every lane, so a non-zero reserved bit is refused (R83). -/
def decode (g : Eng) (ls : List Lane) : Except DecodeError Instr :=
  match ls with
  | [] => .error .illegalLane
  | l :: rest =>
    match opLanes g (opOf l.toNat) with
    | none => .error .illegalOp
    | some n =>
      if rest.length + 1 = n then
        match (rowsOf g (opOf l.toNat) l.toNat ((rest.headD 0).toNat) ((rest.tail.headD 0).toNat)).find? (fun i => wellFormed i && encode i == ls) with
        | some i => .ok i
        | none => .error .reservedField
      else .error .illegalLane

/-- What `decode` gives, as an option. -/
def decode? (g : Eng) (ls : List Lane) : Option Instr :=
  match decode g ls with
  | .ok i => some i
  | .error _ => none

/-- The engines in the order in which `decodeTableWord` tries them. -/
def engines : List Eng := [.ce, .ve, .me, .se, .xl, .xs, .ke]

/-- The lanes of an instruction whose bits are `w` for engine `g`: as many as its opcode has (bits above those given are 0). -/
def lanesOfBits (g : Eng) (w : Nat) : List Lane :=
  (List.range ((opLanes g (opOf (w % 4294967296))).getD 1)).map (fun k => BitVec.ofNat 32 (w / 2 ^ (32 * k) % 4294967296))

/-- The engine and instruction that the bits `w` stand for: a head lane does not name its engine (the line's nibble does, R66),
so the engines are tried in the order of their nibble codes and the first whose decoder accepts the lanes is taken (DESIGN CHOICE, log entry 13). -/
def decodeBits (w : Nat) : Option (Eng × Instr) :=
  engines.findSome? (fun g => (decode? g (lanesOfBits g w)).map (fun i => (g, i)))

/-- The instruction the decoder reads from the bits `w`, numbered as the opcode table numbers them. -/
def decodeTableWord (_nbits w : Nat) : Option Instr := (decodeBits w).map (·.2)

end Sys2Proof
end

