-- ==== Sys2Proof/Machine/Mem.lean ====
section
/-! DEFINITION. The two containers of the state: `Tab`, a table of registers or records by number, and `Mem`, bytes by address
in one canonical form; and the byte-order, bit-field and sign-extension helpers. -/

namespace Sys2Proof.Machine

/-- A table by number: strictly rising keys; an absent key reads as the default its reader names. -/
abbrev Tab (α : Type) := List (Nat × α)

/-- The entry of key `k`. -/
def tget {α : Type} (t : Tab α) (k : Nat) : Option α :=
  match t with
  | [] => none
  | (i, v) :: r => if i = k then some v else if k < i then none else tget r k

/-- The entry of key `k`, or `d` when it has none. -/
def tgetD {α : Type} (t : Tab α) (k : Nat) (d : α) : α := (tget t k).getD d

/-- Sets the entry of key `k`. -/
def tset {α : Type} (t : Tab α) (k : Nat) (v : α) : Tab α :=
  match t with
  | [] => [(k, v)]
  | (i, u) :: r => if i = k then (k, v) :: r else if k < i then (k, v) :: (i, u) :: r else (i, u) :: tset r k v

/-- Removes the entry of key `k`. -/
def tdel {α : Type} (t : Tab α) (k : Nat) : Tab α :=
  match t with
  | [] => []
  | (i, u) :: r => if i = k then r else if k < i then (i, u) :: r else (i, u) :: tdel r k

/-- Applies `f` to every entry, keeping the keys. -/
def tmap {α β : Type} (f : Nat → α → β) (t : Tab α) : Tab β := t.map (fun p => (p.1, f p.1 p.2))

/-- The keys of a table. -/
def tkeys {α : Type} (t : Tab α) : List Nat := t.map (·.1)

/-- Bytes by address: addresses strictly rising, and no entry holds 0, which is what an unlisted address reads as. -/
abbrev Mem := List Host.Cell

/-- The byte at address `a`; an unlisted address reads 0. -/
def mget (m : Mem) (a : Nat) : Byte := tgetD m a 0

/-- Writes the byte at `a`; writing 0 removes the entry, so that equal memories are equal data. -/
def mset (m : Mem) (a : Nat) (b : Byte) : Mem := if b = 0 then tdel m a else tset m a b

/-- The canonical form from address `lo` on. -/
def wfFrom (lo : Nat) (m : Mem) : Bool :=
  match m with
  | [] => true
  | (a, b) :: r => decide (lo ≤ a) && (b != 0) && wfFrom (a + 1) r

/-- The canonical form of a memory: strictly rising addresses, no entry equal to what an unlisted address reads as. -/
def Mem.wf (m : Mem) : Bool := wfFrom 0 m

/-- `n` bytes from address `a`. -/
def mread (m : Mem) (a n : Nat) : List Byte := (List.range n).map (fun i => mget m (a + i))

/-- Writes a list of bytes from address `a` on. -/
def mwrite (m : Mem) (a : Nat) (bs : List Byte) : Mem :=
  match bs with
  | [] => m
  | b :: r => mwrite (mset m a b) (a + 1) r

/-- A little-endian number from its bytes. -/
def leNat (bs : List Byte) : Nat :=
  match bs with
  | [] => 0
  | b :: r => b.toNat + 256 * leNat r

/-- The `n` little-endian bytes of a number. -/
def leBytes (n v : Nat) : List Byte :=
  match n with
  | 0 => []
  | k + 1 => BitVec.ofNat 8 v :: leBytes k (v / 256)

/-- A little-endian number of `n` bytes at address `a`. -/
def mnat (m : Mem) (a n : Nat) : Nat := leNat (mread m a n)

/-- Writes a number as `n` little-endian bytes at `a`. -/
def mputNat (m : Mem) (a n v : Nat) : Mem := mwrite m a (leBytes n v)

/-- Bits `hi` down to `lo` of a number. -/
def bits (v hi lo : Nat) : Nat := v / 2 ^ lo % 2 ^ (hi + 1 - lo)

/-- Bit `i` of a number. -/
def bit (v i : Nat) : Bool := v / 2 ^ i % 2 == 1

/-- The number with bits `hi` down to `lo` replaced by the low bits of `x`. -/
def setBits (v hi lo x : Nat) : Nat :=
  v - bits v hi lo * 2 ^ lo + (x % 2 ^ (hi + 1 - lo)) * 2 ^ lo

/-- A Boolean as 0 or 1. -/
def b2n (b : Bool) : Nat := if b then 1 else 0

/-- The signed value of the low `w` bits of a number. -/
def toSigned (w v : Nat) : Int :=
  let u := v % 2 ^ w
  if u < 2 ^ (w - 1) then (u : Int) else (u : Int) - (2 ^ w : Nat)

/-- A signed value as a number modulo `2 ^ w`. -/
def ofSigned (w : Nat) (v : Int) : Nat := (v % ((2 ^ w : Nat) : Int)).toNat

/-- Sign extension of the low `w` bits to 64 bits. -/
def sext64 (w v : Nat) : Word := BitVec.ofNat 64 (ofSigned 64 (toSigned w v))

/-- Ceiling division. -/
def cdiv (a b : Nat) : Nat := (a + b - 1) / b

/-- The base-2 logarithm, rounded down (0 for 0). -/
def log2n (n : Nat) : Nat := n.log2

/-- The number of bits of a number (0 for 0). -/
def bitLen (n : Nat) : Nat := if n = 0 then 0 else n.log2 + 1

/-- Replaces element `i` of a list. -/
def setNth {α : Type} (l : List α) (i : Nat) (v : α) : List α := l.set i v

/-- Whether a list holds a number. -/
def has (l : List Nat) (n : Nat) : Bool := l.contains n

/-- Inserts a number once. -/
def addOnce (l : List Nat) (n : Nat) : List Nat := if l.contains n then l else l ++ [n]

end Sys2Proof.Machine
end

