-- ==== Sys2Proof/Machine/State.lean ====
section
/-! DEFINITION. The state of the VX-8 as plain data, the reasons a step can stop, and the machine after bring-up.
INVENTORY.md lists every field with the rule that names it and its reset value. -/

namespace Sys2Proof.Machine

/-- Reasons a step stops with a fault. -/
inductive Fault where
  /-- No step raises it: every exceptional condition that the specification describes is a trap, a record or a status. Safe. -/
  | noSuchEngine
  deriving DecidableEq, Repr

/-- Reasons an instruction has no meaning. -/
inductive Refusal where
  /-- The instruction's meaning is not written yet; raised by `exec`. Safe. -/
  | notModelled (mnemonic : String)
  deriving DecidableEq, Repr

/-- A trap with the values its record holds (16 R389); `copy` is one more than the bulk copy that faulted, or 0 (09 R232); `named` is the core that
an MM_COOP record names (10 R254; DEDUCED, log entry 17). -/
structure Trap where
  cause : Nat
  code : Nat := 0
  exc : Nat := 0
  wlvl : Nat := 0
  wkind : Nat := 0
  taddr : Nat := 0
  prog : Nat := 0
  copy : Nat := 0
  named : Nat := 0
  deriving DecidableEq, Repr

/-- A translated place in memory: target 0 HBM, 1 host, 2 CXL; physical address; the key value data is encrypted under;
the scope of its page (12 R304 to R310); and the device virtual address by which it was reached, 0 when none, which an error record names (25 R497). -/
structure Loc where
  tgt : Nat := 0
  pa : Nat := 0
  key : Nat := 0
  scope : Nat := 0
  va : Nat := 0
  deriving DecidableEq, Repr

/-- A write on its way from a core to its home (13 R330): the core that made it, the place of its sector, the bytes by offset in it, and whether it is a
write-back of the L1, which a release waits for (05 R125). -/
structure MemWrite where
  core : Nat
  loc : Loc
  data : List (Nat × Byte)
  ce : Bool := false
  deriving DecidableEq, Repr

/-- One end of a data movement: a translated device address (with its virtual address), a scratch virtual address,
words of a core's accumulator SRAM (core, OFFSET, accumulator address), or given bytes. -/
inductive Place where
  | dev (va : Nat) (loc : Loc)
  | scratch (a : Nat)
  | acc (core off va : Nat)
  | lit (bs : List Byte)
  deriving DecidableEq, Repr

/-- A movement of at most one 64-byte sector. -/
structure Move where
  src : Place
  dst : Place
  len : Nat
  deriving DecidableEq, Repr

/-- What fetch stamps on an instruction at dealing (05 R138, R140, R144): RRB, stage tag and its predicate, LC as it stands, the pipelined
level whose LC the tag lowers, format-table index, g. -/
structure Stamp where
  rrb : Nat := 0
  tag : Option Nat := none
  pred : Bool := true
  lcs : List Word := []
  plvl : Option Nat := none
  fidx : Nat := 0
  g : Nat := 255
  deriving DecidableEq, Repr

/-- An instruction in a stream queue or in flight (03 R90, R95): its lanes, prefix, place in the text, the number of the dealing of its line, and stamp;
whether it has issued, whether it only has its post left to make, whether it runs on at the head of its queue; the operand values read at issue (before it, in a commit wait, the PTC of the last read of COMMITW, 11 R275); the sectors moved, and the numbers of those moved ahead of their turn (13 R327); the
translations it holds (`none` once parked, 12 R313);
bytes it carries; the window bases of slabs that it has read (12 R322), by core · 2^20 + OFFSET; the PTC when it issued; and, with its effects made and STRICT = 1, the PTC and the count of clocks (`Power.mclk`) at which it completes
(01 R32), each 0 when it waits for none; and `era`, the number that the next invalidation had when it made its translations (12 R314). -/
structure Entry where
  lanes : List Lane := []
  pfx : Option Lane := none
  line : Nat := 0
  lane : Nat := 1
  seqNo : Nat := 0
  stamp : Stamp := {}
  issued : Bool := false
  skip : Bool := false
  busy : Bool := false
  opv : List Nat := []
  moved : Nat := 0
  moves : Option (List Move) := none
  buf : List Byte := []
  wbs : Tab Nat := []
  ahead : List Nat := []
  t0 : Nat := 0
  pad : Nat := 0
  clk : Nat := 0
  era : Nat := 0
  deriving DecidableEq, Repr

/-- A hardware loop on the loop stack (05 R130 to R136). `stages` is 0 for a loop that is not pipelined. -/
structure Loop where
  lvl : Nat
  i : Nat
  e : Nat
  first : Nat
  last : Nat
  stages : Nat := 0
  deriving DecidableEq, Repr

/-- The fetch unit of a member (03 R90 to R95, 05 R136 to R140). `loops` is innermost first; `waitCE` says that fetch waits for the control instruction of
line `next`, `sets` how many ROTB and set-form STAGE of the line dealt last the CE has not executed, and `past` the line that fetch goes on past then. -/
structure Fetch where
  next : Nat := 0
  waitCE : Bool := false
  sets : Nat := 0
  past : Option Nat := none
  stopped : Bool := false
  loops : List Loop := []
  rrb : Nat := 0
  g : Nat := 255
  tag : Option Nat := none
  deriving DecidableEq, Repr

/-- What EnterHandler sets aside (16 R390): the seven queues with the trapped instruction, the engines that have stopped, fetch's state, and the trap taken
(the engine that stopped, 0 for a fetch trap), and the dealing number from which on the handler's instructions count. -/
structure SetAside where
  queues : Tab (List Entry) := []
  stuck : List (Nat × Trap) := []
  fetch : Fetch := {}
  eng : Nat := 0
  cause : Nat := 0
  seq0 : Nat := 0
  deriving DecidableEq, Repr

/-- An operand ring (09 R217 to R219). `pushBy`, `popBy` name the engine with a push or pop in flight (0 none) of `pushN`, `popN` slots;
COUNT includes the slots being read. -/
structure Ring where
  base : Nat := 0
  slotb : Nat := 64
  n : Nat := 1
  head : Nat := 0
  tail : Nat := 0
  count : Nat := 0
  pushBy : Nat := 0
  pushN : Nat := 0
  popBy : Nat := 0
  popN : Nat := 0
  deriving DecidableEq, Repr

/-- A loop-table entry (04 R108). -/
structure LoopEnt where
  reg : Nat := 0
  stages : Nat := 0
  pipe : Bool := false
  kind : Nat := 0
  count : Nat := 1
  deriving DecidableEq, Repr

/-- A format-table entry (04 R109); the scales are signed bytes as read. -/
structure FmtEnt where
  ta : Nat := 0
  tb : Nat := 0
  td : Nat := 0
  sa : Nat := 0
  sb : Nat := 0
  sd : Nat := 0
  rsv : Nat := 0
  deriving DecidableEq, Repr

/-- What a member uses of the verified image (04 R106 to R113). -/
structure Kernel where
  image : Nat := 0
  digest : Nat := 0
  textoff : Nat := 0
  textn : Nat := 0
  loops : List LoopEnt := []
  fmts : List FmtEnt := []
  fmtsel : Nat := 0
  rings : Tab Ring := []
  caskn : Nat := 0
  nlayers : Nat := 0
  bankb : Nat := 0
  args : List Nat := []
  init : List Nat := []
  hl : Option Nat := none
  hmask : Nat := 0
  relocs : List (Nat × Nat) := []
  deriving DecidableEq, Repr

/-- A barrier record of a member (14 R344). -/
structure BarRec where
  c : Bool := false
  a : Bool := false
  l : Bool := false
  g : Nat := 0
  deriving DecidableEq, Repr

/-- A collective channel of a member (18 R420 to R423): issue and delivery counts, fail mark (0 none). -/
structure Chan where
  issued : Nat := 0
  delivered : Nat := 0
  fail : Nat := 0
  deriving DecidableEq, Repr

/-- Whether a member runs, or is halted with a cause (16 R388). -/
inductive MemberStatus where
  | running
  | halted (cause : Nat)
  deriving DecidableEq, Repr

/-- A member: everything of 05 R119 and of the engines' registers (01 R20). Storage row i of physical tile t stands under 32t + i of `tiles`,
of tap n under 32n + i of `taps` (07 R165, R169), mask n under n of `masks` (R168); an absent one is zero. `oldMode` is what FPMODE and SCMODE held before the
last CSRWR to one of them, and `stale` lists the engines that may still sample it (01 R29). -/
structure Member where
  status : MemberStatus := .running
  group : Nat := 0
  rank : Nat := 0
  kern : Kernel := {}
  s : Tab Word := []
  lc : Tab Word := []
  trips : Tab Nat := []
  k : Tab Nat := []
  x : Tab Word := []
  fetch : Fetch := {}
  nextSeq : Nat := 0
  queues : Tab (List Entry) := []
  flight : Tab (List Entry) := []
  held : Tab (List Nat) := []
  senior : List Nat := []
  stuck : List (Nat × Trap) := []
  fetchTrap : Option (Nat × Nat) := none
  fpmode : Nat := 0
  scmode : Nat := 1
  vshape : Nat := 33521664
  kstep : Nat := 0
  cstep : Nat := 0
  strictmiss : Nat := 0
  trapcause : Nat := 0
  trapline : Nat := 0
  traplane : Nat := 0
  aside : Option SetAside := none
  yielded : Bool := false
  tiles : Tab (BitVec 1024) := []
  taps : Tab (BitVec 1024) := []
  masks : Tab (BitVec 1024) := []
  partialP : Tab (BitVec 32) := []
  rings : Tab Ring := []
  bars : Tab BarRec := []
  chans : Tab Chan := []
  oldMode : Nat × Nat := (0, 1)
  stale : List Nat := []
  deriving DecidableEq, Repr

/-- State of a cask slot (11 R274). -/
inductive SlotState where
  | empty | rackingIn | resident | active | rackingOut
  deriving DecidableEq, Repr

/-- A slot record of a core's cask store (11 R274). `ctl` is the accumulator address of the control block, `wset` and `pn` are by layer,
`unit` the 64-byte units racked, `ent` the racking instruction and `by_` the core that issued it, `srcs` the handle that holds each layer's banks. -/
structure Slot where
  state : SlotState := .empty
  ctx : Nat := 0
  handle : Nat := 0
  first : Nat := 0
  nl : Nat := 0
  off : Nat := 0
  ctl : Nat := 0
  nlayers : Nat := 1
  bankb : Nat := 64
  snap : Bool := false
  damaged : Bool := false
  held : Bool := false
  wset : Tab (List Nat) := []
  pn : Tab Nat := []
  unit : Nat := 0
  srcs : Tab Nat := []
  ent : Entry := {}
  by_ : Nat := 0
  deriving DecidableEq, Repr

/-- A bulk copy in flight (09 R232); `far` says that it has touched a TGT 1 or TGT 2 page, `srcLoc` and `dstLoc` hold the places of the next
sectors in the pages that it is copying, once these are translated (12 R313), each with the number that the next invalidation had then. -/
structure Copy where
  ent : Entry := {}
  dst : Nat := 0
  src : Nat := 0
  len : Nat := 0
  done : Nat := 0
  far : Bool := false
  srcLoc : Option (Nat × Loc) := none
  dstLoc : Option (Nat × Loc) := none
  deriving DecidableEq, Repr

/-- A channel of an inbox (09 R239): messages oldest first, and places reserved for messages on their way (R241). -/
structure Inbox where
  msgs : List (List Byte) := []
  reserved : Nat := 0
  deriving DecidableEq, Repr

/-- What a context keeps on one core, which an image holds (16 R382): the member if one stands there, accumulator SRAM and its LIVE blocks
(10 R244), armed barrier pairs (14 R343), FADE, cask store, slot records and bulk copies. -/
structure Seat where
  present : Bool := false
  mem : Member := {}
  acc : Mem := []
  live : List Nat := []
  armed : List Nat := []
  fade : Nat := 0
  cask : Mem := []
  slots : Tab Slot := []
  copies : Tab Copy := []
  deriving DecidableEq, Repr

/-- Whether a core is free, runs, holds or is loaded with a context (16 R378). -/
inductive CoreStatus where
  | free | running | holding | loaded
  deriving DecidableEq, Repr

/-- A line of the L1 (05 R123, 13 R331): place of its first byte, its 512 bytes, and the offsets of its dirty bytes. -/
structure L1Line where
  loc : Loc := {}
  data : List Byte := []
  dirty : List Nat := []
  deriving DecidableEq, Repr

/-- A translation-cache entry (12 R311): context, level, the bits of the address above the level's index, the table entry. -/
structure TlbEnt where
  ctx : Nat
  lvl : Nat
  va : Nat
  ent : Nat
  deriving DecidableEq, Repr

/-- A slab-cache entry (12 R311, R324): context, slab, the 32 descriptor bytes as a number. -/
structure SlabEnt where
  ctx : Nat
  slab : Nat
  desc : Nat
  deriving DecidableEq, Repr

/-- State of a physical scratch page (12 R316). -/
inductive PageState where
  | refilling | pinned | writingBack | departed
  deriving DecidableEq, Repr

/-- A physical scratch page in use: context, page number, state, hold, dirty sectors, last access, whether PGPIN waits for it, and the PTC at which with
STRICT = 1 its refill or write-back completes (01 R32). -/
structure SPage where
  ctx : Nat := 0
  page : Nat := 0
  state : PageState := .refilling
  held : Bool := false
  pin : Bool := false
  dirty : List Nat := []
  last : Nat := 0
  due : Nat := 0
  deriving DecidableEq, Repr

/-- What a port operation asks for (10 R263, 14 R345). -/
inductive PortOp where
  | atomic (op t b c : Nat)
  | binit (v u : Nat)
  | barv
  | bdrop
  | bwait (g : Option Nat) (late : Bool)
  | binval
  | btime (v : Nat)
  deriving DecidableEq, Repr

/-- A port operation in flight from a CE (10 R265, R266): owning core and offset, the accumulator address, the operation, the instruction,
and once performed its result or its trap. -/
structure PortReq where
  owner : Nat
  off : Nat
  addr : Nat := 0
  op : PortOp
  ent : Entry
  bar : Nat := 0
  done : Bool := false
  result : Nat := 0
  trap : Nat := 0
  deriving DecidableEq, Repr

/-- A BWAIT registered at a port for notification (14 R350): the pair, the generation, whether its record was late; and, once the
generation has its outcome, the word it returns and the PTC of that. -/
structure BWaitReg where
  owner : Nat
  off : Nat
  gen : Nat
  late : Bool
  bar : Nat
  result : Option (Nat × Nat) := none
  deriving DecidableEq, Repr

/-- A core or sequencer. `wants` lists the scratch pages that wait for a physical page in the order in which they were first presented, each with whether PGPIN
asked for it and when that was, and `refills` the physical pages that refill, in that order (12 R317). `idleNs` is the PTC at which its matrix array was last busy, `waking` says that the array waits for its wave (25 R492). -/
structure Core where
  status : CoreStatus := .free
  ctx : Nat := 0
  cfg : Nat := 0
  seat : Seat := {}
  seqctx : Nat := 0
  lines : Tab (List Lane) := []
  text : Nat × Nat := (0, 0)
  l1 : List L1Line := []
  fifo : List Loc := []
  outq : List MemWrite := []
  tlb : List TlbEnt := []
  slabs : List SlabEnt := []
  pages : Tab SPage := []
  wants : List (Nat × Bool × Nat) := []
  refills : List Nat := []
  scratch : Mem := []
  port : Option PortReq := none
  bwait : Option BWaitReg := none
  arrayOn : Bool := false
  idleNs : Nat := 0
  waking : Bool := false
  deriving DecidableEq, Repr

/-- An image of a context for one core (16 R382): its context, its number (which names its free CONTROL bytes), its seal (R385), what it holds,
and for a parked image how many messages each inbox channel held, the pages of its park place, and whether a write there was lost (R386). -/
structure Image where
  ctx : Nat := 0
  num : Nat := 0
  mac : Nat := 0
  seat : Seat := {}
  counts : List Nat := []
  pages : List Loc := []
  lost : Bool := false
  deriving DecidableEq, Repr

/-- A flit (17 R401): FCNT, TYPE, GEN, VC, CLASS, SDIE, DDIE, ESEQ; the hops of its route after the current one (R406); for a LACK its NAK bit; how
often it has been replayed (R402); one more than the (link · 2 + direction) whose buffer it occupies; at a scale-out port the window
offset and value of the 64-byte sector it writes (R419); for a LACK the low 16 bits of the FCNT it names (`aux`); the name of the key that sealed it; and, on
VC1, how many flits of each VC it acknowledges end to end (`acks`, R407). -/
structure Flit where
  fcnt : Nat := 0
  type : Nat := 0
  gen : Nat := 0
  vc : Nat := 0
  cls : Nat := 0
  src : Nat := 0
  dst : Nat := 0
  eseq : Nat := 0
  path : List Nat := []
  nak : Bool := false
  replays : Nat := 0
  via : Nat := 0
  roff : Nat := 0
  val : Nat := 0
  aux : Nat := 0
  key : Nat := 0
  acks : List Nat := []
  agen : Nat := 0
  deriving DecidableEq, Repr

/-- State of a C-die (19 R442). -/
inductive DieState where
  | off | heldReset | measured | joined | quarantined | resetting
  deriving DecidableEq, Repr

/-- A C-die: reset state, ordering-point queue (13 R330), error register (25 R496), barrier-map cache (16 R375), the
walker's translation cache (12 R311), cellar frames
(16 R382, frame k of core n under 2n + k), route table and the one that replaces it (hop numbers by destination), end-to-end counts
(17 R407, by 4·other die + VC: the next ESEQ to send, how many of those sent are acknowledged, and how many of those received are performed), the flits that it
has sent and keeps until they are acknowledged, destinations whose pair is draining, flits in its router, those at their destination among them, wake request
time; whether its management port is up (19 R440), the nonce of the key TK under which that port is sealed (R439), and the epoch of the PSK that the die holds
for each link. -/
structure Die where
  state : DieState := .joined
  ordq : List MemWrite := []
  errCe : Nat := 0
  errUe : Nat := 0
  errDrop : Nat := 0
  maps : Tab Nat := []
  tlb : List TlbEnt := []
  frames : Tab Image := []
  routes : Tab (List Nat) := []
  newRoutes : Tab (List Nat) := []
  draining : List Nat := []
  eseqTx : Tab Nat := []
  eseqAck : Tab Nat := []
  eseqRx : Tab Nat := []
  kept : List Flit := []
  transit : List Flit := []
  wake : Option Nat := none
  mgmt : Bool := true
  tkn : Nat := 0
  psks : Tab Nat := []
  deriving DecidableEq, Repr

/-- One direction of a link (17 R401, R402, R404, R411, R412): sender's next FCNT and GEN, receiver's expected FCNT and GEN, whether the
direction holds a key, whether the receiver holds K and K′ both, replay buffer, pending NAK, the (VC, CLASS) sets on which the sender is held and the
receiver has sent HOLD, buffer occupancy by 4·VC + CLASS, rekey step (0 none, 1 requested, 2 K′ installed at the receiver, 3 the sender has switched)
and whether a second request waits; the names of the sender's key, the receiver's and K′; whether a NAK has asked the sender to go back, and whether the limit
of FCNT holds the direction until its rekey completes (R411); and whether the receiver has discarded a flit of K that it has yet to accept (R412 step 4). -/
structure LinkDir where
  keyed : Bool := false
  fcnt : Nat := 0
  gen : Nat := 0
  exp : Nat := 0
  rgen : Nat := 0
  both : Bool := false
  replay : List Flit := []
  nak : Bool := false
  heldBy : List Nat := []
  occ : Tab Nat := []
  holding : List Nat := []
  rekey : Nat := 0
  again : Bool := false
  key : Nat := 0
  rkey : Nat := 0
  next : Nat := 0
  rewind : Bool := false
  stopped : Bool := false
  gap : Bool := false
  deriving DecidableEq, Repr

/-- A send descriptor in progress (17 R419): LOCAL, ROFF, LEN, TAG and how many of its bytes have been sent. -/
structure SendJob where
  loc : Nat := 0
  roff : Nat := 0
  len : Nat := 0
  tag : Nat := 0
  off : Nat := 0
  deriving DecidableEq, Repr

/-- State of a link (17 R410). -/
inductive LinkState where
  | down | training | attesting | keying | up | rekeying | quarantined | reset
  deriving DecidableEq, Repr

/-- A link with its registers (17 R413, R418), and the send descriptor in progress. `exchange` says that its PSK_EXCHANGE is done, `attFails` how often its
attestation failed, `epoch` counts as 19 R439 says, `attested` that it has begun to attest in that epoch, and `peer` names the slot under which the peer package
attests (R443). -/
structure Link where
  state : LinkState := .down
  trains : Nat := 0
  fails : Nat := 0
  tagfail : Nat := 0
  replays : Nat := 0
  dir0 : LinkDir := {}
  dir1 : LinkDir := {}
  exchange : Bool := false
  attFails : Nat := 0
  epoch : Nat := 0
  attested : Bool := false
  peer : Option Nat := none
  pctx : Nat := 0
  psz : Nat := 0
  sring : Nat := 0
  stail : Nat := 0
  shead : Nat := 0
  rwin : Nat := 0
  rlen : Nat := 0
  job : Option SendJob := none
  deriving DecidableEq, Repr

/-- State of a kernel-table entry (05 R116). -/
inductive KernState where
  | verified | active | resident | evicted
  deriving DecidableEq, Repr

/-- A kernel-table entry (05 R114, R116); `old` says that a later LAUNCH found another DIGEST at its image address (R118). -/
structure KernEnt where
  kern : Kernel := {}
  state : KernState := .verified
  last : Nat := 0
  old : Bool := false
  deriving DecidableEq, Repr

/-- A host ring or the event ring (15 R372, R373). -/
structure HRing where
  on : Bool := false
  base : Nat := 0
  log2n : Nat := 4
  cnt : Nat := 0
  time : Nat := 0
  vec : Nat := 0
  waddr : Nat := 0
  widx : Nat := 0
  p : Nat := 0
  t0 : Nat := 0
  deriving DecidableEq, Repr

/-- A stop in progress (16 R381, R394): at once, or pending at YIELDs; its start; the sequencer dies whose PREEMPT waits;
the queues whose watchdog asked for it (15 R371); whether DESTROY did. -/
structure Stop where
  atOnce : Bool := true
  start : Nat := 0
  waiters : List Nat := []
  dogs : List Nat := []
  destroy : Bool := false
  deriving DecidableEq, Repr

/-- State of a context (16 R378). -/
inductive CtxState where
  | free | created | bound | running | preempting | saved | parked | faulted | destroying
  deriving DecidableEq, Repr

/-- A context: control block, descriptor copy, current CTXCFG and CTXSTAT.RDY, kernel table, rings, waiting event records (each with
whether it is an error record), stop, inboxes by (o·64+n)·8+channel
(09 R239), parked images by o·64+n, the PTC at which the last stop began, and whether PART names an arc to which it was bound (R378, R380). -/
structure Ctx where
  state : CtxState := .free
  cause : Nat := 0
  result : Nat := 0
  cdesc : Nat := 0
  root : Nat := 0
  sbase : Nat := 0
  xbase : Nat := 0
  pbase : Nat := 0
  slabt : Nat := 0
  slabn : Nat := 0
  quota : Nat := 1
  kind : Nat := 0
  cfg0 : Nat := 0
  cfg : Nat := 0
  ad : Nat := 0
  sq : Nat := 0
  nq : Nat := 0
  rdy : Nat := 0
  kerns : Tab KernEnt := []
  rings : Tab HRing := []
  hrread : Tab Nat := []
  waiting : List (Bool × List Byte) := []
  stop : Option Stop := none
  inbox : Tab Inbox := []
  parked : Tab Image := []
  stopped : Nat := 0
  bound : Bool := false
  deriving DecidableEq, Repr

/-- State of a group (06 R158). -/
inductive GroupState where
  | forming | loading | running | partly | faulted | suspended
  deriving DecidableEq, Repr

/-- A collective instance that has begun (18 R421): team, channel, number, the PTC at which it began, its fail mark (0 none), whether its
destinations are accumulator frames, the receiving ranks with their destination addresses, the result bytes by offset, the units already written (sectors, or
8-byte words of a frame), as 8·unit + place of the receiver, and, by receiving rank, channel and number, the instances whose instructions stood before this
one's in the receiver's XS and had not begun (R433). -/
structure Inst where
  team : Nat
  ch : Nat
  k : Nat
  t0 : Nat
  fail : Nat := 0
  acc : Bool := false
  dsts : List (Nat × Nat) := []
  data : List (Nat × List Byte) := []
  done : List Nat := []
  behind : List (Nat × Nat × Nat) := []
  deriving DecidableEq, Repr

/-- A group (06 R153 to R160): context, launching queue and journal entry, kernel-table entry, die and core extents, anchor offset,
starting quarter on each die, unretired ranks, loaded ranks, state (and the state before a suspension), first member's cause, AT tick,
whether it started late, whether a halted member was ended without resumption, HOLD as its cores run with it (16 R379), arguments, and collective instances
that have begun. -/
structure Group where
  ctx : Nat := 0
  queue : Nat := 0
  jidx : Nat := 0
  kern : Nat := 0
  d : Nat := 1
  c : Nat := 1
  anchor : Nat := 0
  quarters : List Nat := []
  alive : List Nat := []
  loaded : List Nat := []
  state : GroupState := .forming
  prev : GroupState := .running
  cause : Nat := 0
  started : Bool := false
  at? : Option Nat := none
  late : Bool := false
  lost : Bool := false
  hold : Bool := false
  args : List Nat := []
  insts : List Inst := []
  deriving DecidableEq, Repr

/-- State of an accepted command (15 R369). -/
inductive CmdState where
  | accepted | chosen | started | completed | faulted | dropped
  deriving DecidableEq, Repr

/-- An accepted command: slot count, bytes, journal fields, progress, the group it formed (one more than its number), one more than the number of the reservation
that its LAUNCH, lacking quarters, has on the partition, the pair and generation that a WAIT waits for and the word it is to return, one more than the PTC at which it
became a candidate, whether a RESUME released it, whether it is chosen and cannot start, and whether it was STARTED when a journal write failed, so that its end is not recorded (R357). -/
structure Cmd where
  slot : Nat := 0
  bytes : List Byte := []
  state : CmdState := .accepted
  rearm : Bool := false
  late : Bool := false
  replay : Bool := false
  info : Nat := 0
  cause : Nat := 0
  tacc : Nat := 0
  tstart : Nat := 0
  tend : Nat := 0
  done : Nat := 0
  group : Nat := 0
  reserved : Nat := 0
  reg : Option (Nat × Nat × Nat) := none
  got : Option Nat := none
  age : Nat := 0
  rel : Bool := false
  stuck : Bool := false
  mute : Bool := false
  deriving DecidableEq, Repr

/-- State of a queue (15 R359). -/
inductive QState where
  | disabled | idle | active | paused | faulted
  deriving DecidableEq, Repr

/-- A queue (15 R356, R358). `cmds` is by journal entry count, `jwr` counts entries without end, `replaying` is one more than the slot count from which
acceptance is no replay (R370), 0 when none is under way, and `replayAt` the slot count that the replay accepts next; `dog` is how many nanoseconds the watchdog has
run since its last restart (R371); `halted` says that the journal's page failed (R357). -/
structure Queue where
  state : QState := .disabled
  cause : Nat := 0
  rep : Nat := 0
  qbase : Nat := 0
  jbase : Nat := 0
  wdog : Nat := 0
  jsz : Nat := 0
  sz : Nat := 0
  prio : Nat := 0
  ctx : Nat := 0
  commit : Nat := 0
  jread : Nat := 0
  accept : Nat := 0
  released : Nat := 0
  jwr : Nat := 0
  cmds : Tab Cmd := []
  replaying : Nat := 0
  replayAt : Nat := 0
  halted : Bool := false
  dog : Nat := 0
  deriving DecidableEq, Repr

/-- An invalidation that collects acknowledgements (12 R314): its requester (package core number of a sequencer, or 0x3FF), what it
covers (kind 0 address, 1 context, 2 slab, 3 all, 4 barrier-map entry), context, argument, dies that acknowledged, and those that did
by entering reset; `after` says what completes then: 0 TLBINV, 1 SLABFW or CTXMAP, 2 KEYRETIRE, 3 DESTROY. -/
structure Inval where
  core : Nat
  kind : Nat
  ctx : Nat
  arg : Nat
  acked : Nat := 0
  resets : Nat := 0
  after : Nat := 0
  deriving DecidableEq, Repr

/-- A key-table entry (19 R446): the name of its key (`keyBytes`), its context, the dies that use it. -/
structure KeyEnt where
  val : Nat
  ctx : Nat
  dies : Nat := 0
  deriving DecidableEq, Repr

/-- An owner-root slot (19 R437): kind and key. -/
structure RootSlot where
  kind : Nat := 0
  key : Nat := 0
  deriving DecidableEq, Repr

/-- An SPDM session (19 R444): the slot it authenticates, whether mutual authentication finished, its key generation. -/
structure Session where
  slot : Nat := 0
  auth : Bool := false
  gen : Nat := 0
  deriving DecidableEq, Repr

/-- The Trifort die (19): PHASE, EXH, boot count, boot-tree leaves left, owner roots and revocations, key table, the running vendor request
(1 KEYSET, 2 KEYRETIRE; session, key id, dies still to acknowledge) and those that wait, the die under measurement, since when and with what nonce (R441),
negotiated SPDM state, sessions, chunk transfers (how many chunks of each have passed, the bytes of a request so far, the signed response whose parts CHUNK_GET
gives), keyed IDE streams, responses sent to the host. -/
structure Trifort where
  phase : Nat := 2
  exh : Bool := false
  boots : Nat := 1
  lsig : Nat := 32768
  slots : Tab RootSlot := []
  revoke : Nat := 0
  keys : Tab KeyEnt := []
  req : Option (Nat × Nat × Nat × Nat) := none
  reqq : List (List Nat) := []
  measuring : Option Nat := none
  measT0 : Nat := 0
  nonce : Nat := 0
  version : Bool := false
  caps : Bool := false
  algs : Bool := false
  sessions : Tab Session := []
  chunks : Tab Nat := []
  parts : Tab (List Byte) := []
  large : List Nat := []
  ide : List Nat := []
  resp : List (List Nat) := []
  deriving DecidableEq, Repr

/-- PWRCAP and the power controller (25 R490, R491); `wrote` is the PTC of the last PWRCAP write, `mclk` the thousandths of clocks of the arithmetic clock
that have passed, each nanosecond counted at the point then in force (00 R6). -/
structure Power where
  on : Bool := true
  cap : Nat := 2800
  req : Nat := 1
  point : Nat := 1
  capped : Bool := false
  gate : Bool := false
  meas : Nat := 0
  wrote : Nat := 0
  mclk : Nat := 0
  deriving DecidableEq, Repr

/-- The time unit (25 R493 to R495). -/
structure TimeUnit where
  ptc : Nat := 0
  frac : Nat := 0
  pend : Int := 0
  rate : Int := 0
  phase : Nat := 0
  slew : Nat := 100
  ppslock : Bool := false
  ppsedge : Bool := false
  ppsen : Bool := false
  edge : Nat := 0
  edges : Nat := 0
  miss : Nat := 0
  sincePps : Option Nat := none
  sinceSlew : Nat := 0
  deriving DecidableEq, Repr

/-- An MSI-X vector (17 R416). -/
structure Msix where
  addr : Nat := 0
  data : Nat := 0
  masked : Bool := true
  pending : Bool := false
  deriving DecidableEq, Repr

/-- The dispatcher's round robin (15 R366): context last served and its choices so far, by priority; and its translation cache. -/
structure Disp where
  lastCtx : Tab Nat := []
  used : Tab Nat := []
  tlb : List TlbEnt := []
  deriving DecidableEq, Repr

/-- How the instruction being executed ends. `idle`: its meaning has settled its queue and tokens itself (or it is an event); `done`: it
completes; `wait`: it does not issue yet; `running`: it has issued and runs on at the head of its queue; `flying`: it has issued and runs on
among the engine's instructions in flight; `gone`: it has issued and its entry stands elsewhere; `trap`: it traps before it issues;
`trapIssued`: it traps after it issued; `trapDone`: it traps with its effects made, and counts as completed when the member resumes. -/
inductive Status where
  | idle
  | done
  | wait
  | running
  | flying
  | gone
  | trap (t : Trap)
  | trapIssued (t : Trap)
  | trapDone (t : Trap)
  deriving DecidableEq, Repr

/-- The instruction being executed: its core (package number), its engine, its queue entry, and how it ends. -/
structure Cur where
  core : Nat := 0
  eng : Eng := .ce
  ent : Entry := {}
  status : Status := .idle
  deriving DecidableEq, Repr

/-- What a turn does: an engine issues the head of its queue, or an event of the table happens. -/
inductive Act where
  | issue (core : Nat) (eng : Eng)
  | event (i : Instr)
  deriving DecidableEq, Repr

/-- What an uncorrectable error strikes: a 64-byte unit of memory by target and number (`code` names the structure that held it, 25 R497: 2 the L2, 8 the
L1, else the memory), a 4-byte word of a core's accumulator SRAM, a 64-byte unit of a core's scratch addresses, a storage row (`kind` 0 of a physical
tile, 1 of a tap, 2 a mask) of the member whose turn it is, an 8-byte pair of a core's cask store, a 64-byte unit of frame `k` of a core's cellar
frames. -/
inductive Strike where
  | mem (code tgt unit : Nat)
  | acc (core word : Nat)
  | scratch (core unit : Nat)
  | row (kind n i : Nat)
  | pair (core n : Nat)
  | frame (core k unit : Nat)
  deriving DecidableEq, Repr

/-- A turn: nanoseconds that pass first; what uncorrectable errors strike during it, and the dies on which errors are corrected (25 R496; DESIGN CHOICE,
log entry 23); and what happens. -/
structure Turn where
  ns : Nat := 0
  ue : List Strike := []
  ce : List Nat := []
  act : Act
  deriving DecidableEq, Repr

/-- The whole machine. `irqs` and `reads` list what the outside has seen, `lost` the writes that the present turn lost on their way home (17 R409), which leave
error records when it ends; `fresh`, `ue`, `agenda` and `cur` are the model's own (log entry 1). -/
structure State where
  cores : Tab Core := []
  dies : Tab Die := []
  links : Tab Link := []
  ctxs : Tab Ctx := []
  queues : Tab Queue := []
  groups : Tab Group := []
  invals : Tab Inval := []
  hbm : Mem := []
  hbmKey : Tab Nat := []
  hostMem : Mem := []
  cxlMem : Mem := []
  tri : Trifort := {}
  power : Power := {}
  time : TimeUnit := {}
  msix : Tab Msix := []
  fmask : Bool := false
  irqs : List Nat := []
  reads : List (Option Nat) := []
  lost : List MemWrite := []
  disp : Disp := {}
  nextId : Nat := 0
  fresh : Nat := 0
  ue : List Strike := []
  agenda : List Turn := []
  cur : Cur := {}
  deriving DecidableEq, Repr

/-- Link `l` after bring-up: UP with a generation 0 key of its own in each direction (17 R411, 25 R488 step 5), TRAINS at its Reset value (17 R413; DEDUCED, log
entry 10). -/
def Link.boot (l : Nat) : Link :=
  { state := .up, attested := true
    dir0 := { keyed := true, key := 2 * l + 1, rkey := 2 * l + 1 }, dir1 := { keyed := true, key := 2 * l + 2, rkey := 2 * l + 2 } }

/-- The Trifort die after bring-up: slot 0 holds the purchaser's host root, key id 0 is installed on every die for the supervisor
(19 R437, R446; DESIGN CHOICE, log entry 5). -/
def Trifort.boot : Trifort :=
  { slots := [(0, { kind := 1, key := 1 })], keys := [(0, { val := 4, ctx := 256, dies := 255 })], ide := [0] }

/-- The machine at bring-up step 6 (25 R488, R489): every die JOINED, the trellis links and the host link UP, every queue DISABLED,
every context FREE, the PTC 0. An absent core, die, context or queue holds its default state. -/
def State.reset : State :=
  { links := (List.range 16).map (fun l => (l, Link.boot l)) ++ [(32, Link.boot 32)]
    nextId := 67
    tri := Trifort.boot }

end Sys2Proof.Machine
end

