-- ==== Sys2Proof/Config.lean ====
section
/-! DEFINITION. What an implementation fixes and the values the specification leaves open.
Every `opaque` below is a free value: it has no body, so nothing can be proved of the value it takes.
Most are applied to the counter `State.fresh`, which each use advances; the others to what they depend on. -/

namespace Sys2Proof.Config

/-- The next turn when the agenda is empty: nanoseconds that pass, and the event or the engine issue that happens
(nothing in the specification fixes which agent moves next; DESIGN CHOICE, log entry 1). `none` for the instruction means an engine issue. -/
opaque freeTurnNs : Nat → Nat
/-- The event of a free turn, or `none` when the turn is an issue. -/
opaque freeTurnEvent : Nat → Option Instr
/-- The core and engine nibble of a free issue turn. -/
opaque freeTurnIssue : Nat → Nat × Nat
/-- What uncorrectable errors strike during a free turn, and the dies on which errors are corrected (DESIGN CHOICE, log entry 23). -/
opaque freeTurnUe : Nat → List Machine.Strike
opaque freeTurnCe : Nat → List Nat
/-- A free choice between two outcomes the specification allows. -/
opaque freeBit : Nat → Bool
/-- A free number, used modulo the range of the choice (the victim of an L1 eviction, a random draw, a measured power). -/
opaque freeNat : Nat → Nat
/-- A raw HBM block that was never written, as read under a key: `rawBlock key block` (25 R488: the XTS decryption of the raw zero pattern). -/
opaque rawBlock : Nat → Nat → BitVec 128
/-- A block read under a key other than the one that last wrote it: `foreignBlock written read block plain` (12 R309). -/
opaque foreignBlock : Nat → Nat → Nat → BitVec 128 → BitVec 128
/-- KBOOT and the seed of the boot tree, which the boot ROM draws at boot number `n` (19 R438). -/
opaque kboot : Nat → BitVec 256
opaque bootSeed : Nat → BitVec 384
/-- The CONTROL bytes of an image that hold the state which has no published layout (16 R382), by image number. -/
opaque controlByte : Nat → Nat → Byte
/-- The parts of an LMS signature (19 R438, RFC 8554) that hash chains and a Merkle tree give: the randomizer and chain values by tree seed, leaf and message, the
path by seed and leaf, and the root of a tree by its seed. The specification does not say how the keys of a tree come from its seed. -/
opaque lmotsBody : Nat → Nat → List Nat → Nat
opaque lmsPath : Nat → Nat → Nat
opaque lmsRoot : Nat → Nat

/-- A counter of 16 bits after an increment past them, by the word or count before it (ARRIVED of a barrier, 14 R345; REP of a queue, 15 R368;
DESIGN CHOICE, log entry 47). -/
opaque counterPast : Nat → Nat

/-- The fuses of the Trifort die (19 R437): ROMD, the digest of the boot ROM; TOPSEED, the private seed and the identifier I of the top tree; and DIETAB, by
position: DIEID, DSEC and GOLD. -/
opaque romd : Nat
opaque topSeed : BitVec 384
opaque dieId : Nat → BitVec 64
opaque dieSecret : Nat → BitVec 256
opaque gold : Nat → BitVec 256
/-- The 256 ciphertext bytes and the tag of a flit (17 R401): AES-GCM-256 under a key, by key, nonce, header and payload. -/
opaque flitCipher : Nat → Nat → Nat → Nat → Nat
opaque flitTag : Nat → Nat → Nat → Nat → Nat

end Sys2Proof.Config
end

