-- ==== Sys2Proof/Machine/Sha.lean ====
section
/-! DEFINITION. SHA-256 and HMAC-SHA-256 (FIPS 180-4, FIPS 198-1), which the specification names for DIGEST (04 R106) and for seals (16 R385). -/

namespace Sys2Proof.Machine

/-- The 64 round constants. -/
def shaK : List (BitVec 32) :=
  [0x428a2f98, 0x71374491, 0xb5c0fbcf, 0xe9b5dba5, 0x3956c25b, 0x59f111f1, 0x923f82a4, 0xab1c5ed5]
    ++ [0xd807aa98, 0x12835b01, 0x243185be, 0x550c7dc3, 0x72be5d74, 0x80deb1fe, 0x9bdc06a7, 0xc19bf174]
    ++ [0xe49b69c1, 0xefbe4786, 0x0fc19dc6, 0x240ca1cc, 0x2de92c6f, 0x4a7484aa, 0x5cb0a9dc, 0x76f988da]
    ++ [0x983e5152, 0xa831c66d, 0xb00327c8, 0xbf597fc7, 0xc6e00bf3, 0xd5a79147, 0x06ca6351, 0x14292967]
    ++ [0x27b70a85, 0x2e1b2138, 0x4d2c6dfc, 0x53380d13, 0x650a7354, 0x766a0abb, 0x81c2c92e, 0x92722c85]
    ++ [0xa2bfe8a1, 0xa81a664b, 0xc24b8b70, 0xc76c51a3, 0xd192e819, 0xd6990624, 0xf40e3585, 0x106aa070]
    ++ [0x19a4c116, 0x1e376c08, 0x2748774c, 0x34b0bcb5, 0x391c0cb3, 0x4ed8aa4a, 0x5b9cca4f, 0x682e6ff3]
    ++ [0x748f82ee, 0x78a5636f, 0x84c87814, 0x8cc70208, 0x90befffa, 0xa4506ceb, 0xbef9a3f7, 0xc67178f2]

/-- The eight working words. -/
structure Sha where
  a : BitVec 32 := 0x6a09e667
  b : BitVec 32 := 0xbb67ae85
  c : BitVec 32 := 0x3c6ef372
  d : BitVec 32 := 0xa54ff53a
  e : BitVec 32 := 0x510e527f
  f : BitVec 32 := 0x9b05688c
  g : BitVec 32 := 0x1f83d9ab
  h : BitVec 32 := 0x5be0cd19
  deriving DecidableEq, Repr

/-- Rotation right. -/
def rotr (x : BitVec 32) (n : Nat) : BitVec 32 := (x >>> n) ||| (x <<< (32 - n))

/-- The message schedule, newest word first, extended by `n` words. -/
def shaExtend (w : List (BitVec 32)) (n : Nat) : List (BitVec 32) :=
  match n with
  | 0 => w
  | k + 1 =>
    let x := w.getD 14 0
    let y := w.getD 1 0
    let s0 := rotr x 7 ^^^ rotr x 18 ^^^ (x >>> 3)
    let s1 := rotr y 17 ^^^ rotr y 19 ^^^ (y >>> 10)
    shaExtend ((w.getD 15 0 + s0 + w.getD 6 0 + s1) :: w) k

/-- One round. -/
def Sha.round (s : Sha) (kw : BitVec 32 × BitVec 32) : Sha :=
  let t1 := s.h + (rotr s.e 6 ^^^ rotr s.e 11 ^^^ rotr s.e 25) + ((s.e &&& s.f) ^^^ ((~~~ s.e) &&& s.g)) + kw.1 + kw.2
  let t2 := (rotr s.a 2 ^^^ rotr s.a 13 ^^^ rotr s.a 22) + ((s.a &&& s.b) ^^^ (s.a &&& s.c) ^^^ (s.b &&& s.c))
  { a := t1 + t2, b := s.a, c := s.b, d := s.c, e := s.d + t1, f := s.e, g := s.f, h := s.g }

/-- Sum by words. -/
def Sha.add (s t : Sha) : Sha :=
  { a := s.a + t.a, b := s.b + t.b, c := s.c + t.c, d := s.d + t.d, e := s.e + t.e, f := s.f + t.f, g := s.g + t.g, h := s.h + t.h }

/-- A big-endian number from bytes. -/
def beNat (bs : List Byte) : Nat := bs.foldl (fun n b => n * 256 + b.toNat) 0

/-- The `n` big-endian bytes of a number. -/
def beBytes (n v : Nat) : List Byte := (leBytes n v).reverse

/-- The words of a block, newest first. -/
def shaWords (bs : List Byte) (n : Nat) (w : List (BitVec 32)) : List (BitVec 32) :=
  match n with
  | 0 => w
  | k + 1 => shaWords (bs.drop 4) k (BitVec.ofNat 32 (beNat (bs.take 4)) :: w)

/-- The compression of one 64-byte block. -/
def Sha.block (s : Sha) (bs : List Byte) : Sha :=
  s.add ((shaK.zip (shaExtend (shaWords bs 16 []) 48).reverse).foldl Sha.round s)

/-- The blocks of a padded message. -/
def Sha.blocks (s : Sha) (n : Nat) (bs : List Byte) : Sha :=
  match n with
  | 0 => s
  | k + 1 => Sha.blocks (s.block (bs.take 64)) k (bs.drop 64)

/-- The padded message. -/
def shaPad (bs : List Byte) : List Byte :=
  bs ++ [0x80] ++ List.replicate ((119 - bs.length % 64) % 64) 0 ++ beBytes 8 (8 * bs.length)

/-- SHA-256. -/
def sha256 (bs : List Byte) : List Byte :=
  let p := shaPad bs
  let s := ({} : Sha).blocks (p.length / 64) p
  [s.a, s.b, s.c, s.d, s.e, s.f, s.g, s.h].flatMap (fun w => beBytes 4 w.toNat)

/-- HMAC-SHA-256. -/
def hmac (key msg : List Byte) : List Byte :=
  let k0 := if 64 < key.length then sha256 key else key
  let k := k0 ++ List.replicate (64 - k0.length) 0
  sha256 (k.map (fun b => b ^^^ 0x5c) ++ sha256 (k.map (fun b => b ^^^ 0x36) ++ msg))

end Sys2Proof.Machine
end

