-- ==== Sys2Proof/Machine/Keys.lean ====
section
/-! DEFINITION. What the Trifort die derives from its fuses and from the KBOOT of a boot (19): keys (R439), the HSS key and signatures of the package root
(R437, R438), and what proves the measurement of a die (R441). A boot is known by its number, since each burns its own BOOTCNT bit (R438). Numbers enter a text
in little-endian bytes, a link in 1 and an epoch in 4 (DESIGN CHOICE, log entry 57). -/

namespace Sys2Proof.Machine

/-- HM(KBOOT, text) of boot `n` (19 R439). -/
def bootKey (n : Nat) (text : List Byte) : List Byte := hmac (leBytes 32 (Config.kboot n).toNat) text

/-- KSEAL of boot `n`: HM(KBOOT, "seal") (19 R439). -/
def kseal (n : Nat) : List Byte := bootKey n [0x73, 0x65, 0x61, 0x6C]

/-- PSK(L, e) of boot `n`: HM(KBOOT, "psk" ‖ L ‖ e) (19 R439). -/
def psk (n l e : Nat) : List Byte := bootKey n ([0x70, 0x73, 0x6B] ++ leBytes 1 l ++ leBytes 4 e)

/-- TK(i) under KBOOT-nonce `k`: HM(DSEC(i), "tk" ‖ k) (19 R439). -/
def tk (i k : Nat) : List Byte := hmac (leBytes 32 (Config.dieSecret i).toNat) ([0x74, 0x6B] ++ leBytes 32 k)

/-- Names of keys in the key table: that of the supervisor at boot `n`, a drawn one, a supplied one (19 R446). -/
def supKey (n : Nat) : Nat := 4 * n
def drawnKey (r : Nat) : Nat := 4 * r + 2
def givenKey (v : Nat) : Nat := 2 * (v % 2 ^ 512) + 1

/-- The 64 bytes of the XTS-256 key of a name: the supervisor's is HM(KBOOT, "sup") ‖ HM(KBOOT, "sup2") (19 R439), a drawn one is its random number. -/
def keyBytes (v : Nat) : List Byte :=
  if v % 2 = 1 then leBytes 64 (v / 2)
  else if v % 4 = 2 then leBytes 64 (v / 4)
  else bootKey (v / 4) [0x73, 0x75, 0x70] ++ bootKey (v / 4) [0x73, 0x75, 0x70, 0x32]

/-- The private seed and identifier of an LMS tree: 0 is the top tree, `n` the boot tree of boot `n` (19 R437, R438). -/
def treeSeed (n : Nat) : Nat := if n = 0 then Config.topSeed.toNat else (Config.bootSeed n).toNat

/-- The public key of a tree (RFC 8554): LMS_SHA256_M32_H15, LMOTS_SHA256_N32_W4, I and the root. -/
def lmsPub (n : Nat) : List Byte := beBytes 4 7 ++ beBytes 4 3 ++ leBytes 16 (treeSeed n / 2 ^ 256) ++ leBytes 32 (Config.lmsRoot (treeSeed n))

/-- TOPPUB: the 60-byte HSS public key of the package root, of two levels (19 R437). -/
def topPub : List Byte := beBytes 4 2 ++ lmsPub 0

/-- The LMS signature of a message with leaf `q` of a tree (RFC 8554). -/
def lmsSign (n q : Nat) (msg : List Nat) : List Byte :=
  beBytes 4 q ++ beBytes 4 3 ++ leBytes 2176 (Config.lmotsBody (treeSeed n) q msg) ++ beBytes 4 7 ++ leBytes 480 (Config.lmsPath (treeSeed n) q)

/-- The HSS signature of a message at boot `n` with leaf `q` of its boot tree: 5,396 bytes, with the boot tree's key signed by leaf n − 1 of the top tree
(19 R438). -/
def hssSign (n q : Nat) (msg : List Nat) : List Byte :=
  beBytes 4 1 ++ lmsSign 0 (n - 1) ((lmsPub n).map (fun b => b.toNat)) ++ lmsPub n ++ lmsSign n q msg

/-- T of die `i`, which answers nonce `N` with DIEID `id` and `m`: HM(DSEC(i), N ‖ DIEID ‖ M ‖ i) (19 R441). -/
def dieTag (i nonce id m : Nat) : Nat :=
  leNat (hmac (leBytes 32 (Config.dieSecret i).toNat) (leBytes 32 nonce ++ leBytes 8 id ++ leBytes 32 m ++ leBytes 1 i))

/-- Whether the reply of die `i` passes: DIEID and T match DIETAB, and M equals GOLD (19 R441). -/
def dieJudged (i nonce id m t : Nat) : Bool :=
  id == (Config.dieId i).toNat && m == (Config.gold i).toNat && t == dieTag i nonce id m

/-- The measurement of a die that passed, SHA-256(DIEID ‖ M), whose M is GOLD (19 R441). -/
def dieMeasure (i : Nat) : Nat := leNat (sha256 (leBytes 8 (Config.dieId i).toNat ++ leBytes 32 (Config.gold i).toNat))

end Sys2Proof.Machine
end

