-- ==== Sys2Proof/Machine/Ops.lean ====
section
/-! DEFINITION. Access to the parts of the state: cores, dies, contexts, the instruction being executed and its registers,
free values, tokens, and the mode bits. -/

namespace Sys2Proof.Machine

/-- The outcome type of every meaning. -/
abbrev Out := Host.Outcome State Fault Refusal

/-- The nibble code of an engine (01 R20). -/
def engCode (g : Eng) : Nat :=
  match g with
  | .ce => 1 | .ve => 2 | .me => 3 | .se => 4 | .xl => 5 | .xs => 6 | .ke => 7

/-- Whether a package core number names a sequencer (01 R17). -/
def isSeq (c : Nat) : Bool := decide (512 ≤ c)

/-- The die of a core or sequencer (01 R17), or of a scale-out port; the dispatcher counts as standing on die 0. -/
def dieOf (c : Nat) : Nat := if c < 512 then c / 64 else if c < 520 then c - 512 else (c - 1024) % 8

/-- The core number on its die (01 R17). -/
def coreOnDie (c : Nat) : Nat := c % 64

/-- The party number of the dispatcher and of a reduction unit (25 R497). -/
def partyDispatcher : Nat := 1023

/-- The party of a scale-out port, which stands on die `port` div 2 (17 R400). -/
def partyPort (port : Nat) : Nat := 1024 + port / 2 % 8

def State.core (s : State) (c : Nat) : Core := tgetD s.cores c {}
def State.setCore (s : State) (c : Nat) (x : Core) : State := { s with cores := tset s.cores c x }
def State.modCore (s : State) (c : Nat) (f : Core → Core) : State := s.setCore c (f (s.core c))
def State.seat (s : State) (c : Nat) : Seat := (s.core c).seat
def State.modSeat (s : State) (c : Nat) (f : Seat → Seat) : State := s.modCore c (fun x => { x with seat := f x.seat })
def State.mem (s : State) (c : Nat) : Member := (s.seat c).mem
def State.modMem (s : State) (c : Nat) (f : Member → Member) : State := s.modSeat c (fun x => { x with mem := f x.mem })
def State.die (s : State) (d : Nat) : Die := tgetD s.dies d {}
def State.modDie (s : State) (d : Nat) (f : Die → Die) : State := { s with dies := tset s.dies d (f (s.die d)) }
def State.link (s : State) (l : Nat) : Link := tgetD s.links l {}
def State.modLink (s : State) (l : Nat) (f : Link → Link) : State := { s with links := tset s.links l (f (s.link l)) }
def State.ctx (s : State) (c : Nat) : Ctx := tgetD s.ctxs c {}
def State.modCtx (s : State) (c : Nat) (f : Ctx → Ctx) : State := { s with ctxs := tset s.ctxs c (f (s.ctx c)) }
def State.queue (s : State) (q : Nat) : Queue := tgetD s.queues q {}
def State.modQueue (s : State) (q : Nat) (f : Queue → Queue) : State := { s with queues := tset s.queues q (f (s.queue q)) }
def State.group (s : State) (g : Nat) : Group := tgetD s.groups g {}
def State.modGroup (s : State) (g : Nat) (f : Group → Group) : State := { s with groups := tset s.groups g (f (s.group g)) }

/-- The package time counter in nanoseconds (25 R493). -/
def State.ptc (s : State) : Nat := s.time.ptc

/-- A free bit: `Config.freeBit` at the counter, which advances. -/
def State.freeBit (s : State) : Bool × State := (Config.freeBit s.fresh, { s with fresh := s.fresh + 1 })

/-- A free number: `Config.freeNat` at the counter, which advances. -/
def State.freeNat (s : State) : Nat × State := (Config.freeNat s.fresh, { s with fresh := s.fresh + 1 })

/-- The member whose instruction is being executed. -/
def State.cm (s : State) : Member := s.mem s.cur.core

/-- Changes that member. -/
def State.modCm (s : State) (f : Member → Member) : State := s.modMem s.cur.core f

/-- The host link passes more than its link registers and DOE: its stream is keyed, and C-die 0 is not QUARANTINED (17 R415, R417). -/
def State.hostKeyed (s : State) : Bool := (s.link 32).state == .up && (s.die 0).state != .quarantined

/-- The host reaches BAR2 as well: bring-up is over (25 R488 step 6). -/
def State.hostUp (s : State) : Bool := s.hostKeyed && s.tri.phase == 2

/-- Scalar register `n` of a member; s0 reads zero (03 R79). -/
def Member.rs (m : Member) (n : Nat) : Word := if n = 0 then 0 else tgetD m.s n 0

/-- Writes scalar register `n` of a member; a write to s0 is discarded (03 R79). -/
def Member.putS (m : Member) (n : Nat) (v : Word) : Member := if n = 0 then m else { m with s := tset m.s n v }

/-- Scalar register `n` as the executing instruction reads it. -/
def State.rs (s : State) (n : Nat) : Word := s.cm.rs n

/-- Scalar register `n` as an unsigned number. -/
def State.rn (s : State) (n : Nat) : Nat := (s.rs n).toNat

/-- Writes scalar register `n` of the executing member. -/
def State.putS (s : State) (n : Nat) (v : Word) : State := s.modCm (fun m => m.putS n v)

/-- Marks how the instruction being executed ends. -/
def State.finish (s : State) (st : Status) : State := { s with cur := { s.cur with status := st } }

/-- The instruction completes. -/
def State.done (s : State) : Out := .next (s.finish .done)

/-- The instruction cannot issue yet. -/
def State.waits (s : State) : Out := .next (s.finish .wait)

/-- The instruction traps before it issues, with no effect (03 R88). -/
def State.trap (s : State) (c : Nat) : Out := .next (s.finish (.trap { cause := c }))

/-- As `State.trap`, with the record's other values. -/
def State.trapWith (s : State) (t : Trap) : Out := .next (s.finish (.trap t))

/-- Changes the queue entry of the instruction being executed. -/
def State.modEnt (s : State) (f : Entry → Entry) : State := { s with cur := { s.cur with ent := f s.cur.ent } }

/-- The stamp of the instruction being executed. -/
def State.stamp (s : State) : Stamp := s.cur.ent.stamp

/-- The clock of a DVFS point in MHz (25 R491), which is the thousandths of a clock in a nanosecond. -/
def clockMhz (p : Nat) : Nat :=
  match p with
  | 0 => 900 | 1 => 1250 | 2 => 1400 | 3 => 1500 | _ => 1600

/-- The context of a core. -/
def State.ctxOn (s : State) (c : Nat) : Nat := (s.core c).ctx

/-- The supervisor context, if one exists (16 R377). -/
def State.supervisor (s : State) : Option Nat :=
  (s.ctxs.find? (fun p => p.2.kind == 1 && p.2.state != .free)).map (·.1)

/-- The context whose translation a party uses: the core's own, or the supervisor's for a sequencer (16 R377, R499). -/
def State.xctx (s : State) (c : Nat) : Nat := if isSeq c then s.supervisor.getD 256 else s.ctxOn c

/-- PRECISE, STRICT and HOLD as the cores of a context run with them (16 R379). -/
def State.precise (s : State) (c : Nat) : Bool := bit (s.core c).cfg 0
def State.strict (s : State) (c : Nat) : Bool := bit (s.core c).cfg 1

/-- STRICTMISS rises by one, saturating, while STRICT = 1 (01 R32). -/
def State.strictMiss (s : State) (c : Nat) : State :=
  if s.strict c then s.modMem c (fun m => { m with strictmiss := min (m.strictmiss + 1) 0xFFFFFFFF }) else s

/-- Whether an uncorrectable error strikes the unit. -/
def State.hit (s : State) (k : Strike) : Bool := s.ue.contains k

/-- The structure code of the error that strikes the 64-byte unit of memory at a place, if one does (25 R497); `l1` says whether the L1 is read. -/
def State.memHit (s : State) (l1 : Bool) (l : Loc) : Option Nat :=
  s.ue.findSome? (fun k => match k with
    | .mem code t u => if t = l.tgt ∧ u = l.pa / 64 then some (if code = 2 then 2 else if code = 8 ∧ l1 = true then 8 else 1) else none
    | _ => none)

/-- Whether an error strikes a word of `n` bytes at `off` of a core's accumulator SRAM. -/
def State.accHit (s : State) (c off n : Nat) : Bool :=
  s.ue.any (fun k => match k with
    | .acc w u => w == c && decide (off / 4 ≤ u ∧ 4 * u < off + n)
    | _ => false)

/-- Token `n` of a member. -/
def Member.tok (m : Member) (n : Nat) : Nat := tgetD m.k n 0

/-- The tokens that the enabled waits of a prefix name (03 R69). -/
def prefixWaits (p : Option Lane) : List Nat :=
  match p with
  | none => []
  | some l =>
    (if bit l.toNat 25 then [bits l.toNat 12 7] else []) ++ (if bit l.toNat 26 then [bits l.toNat 18 13] else [])
      ++ (if bit l.toNat 27 then [bits l.toNat 24 19] else [])

/-- The token that a prefix posts (03 R69). -/
def prefixPost (p : Option Lane) : Option Nat :=
  match p with
  | none => none
  | some l => if bit l.toNat 6 then some (bits l.toNat 5 0) else none

/-- How many enabled wait fields name token `n`. -/
def countWaits (ws : List Nat) (n : Nat) : Nat := (ws.filter (fun x => x == n)).length

/-- The counts cover every enabled wait (03 R70). -/
def Member.covered (m : Member) (ws : List Nat) : Bool := ws.all (fun n => decide (countWaits ws n ≤ m.tok n))

/-- Takes one from each token named (03 R70). -/
def Member.takeWaits (m : Member) (ws : List Nat) : Member :=
  { m with k := ws.foldl (fun k n => tset k n (tgetD k n 0 - 1)) m.k }

/-- A post of token `n` by engine `g`: it is made, or held while the token stands at 63 (03 R71). -/
def Member.post (m : Member) (g n : Nat) : Member :=
  if m.tok n < 63 then { m with k := tset m.k n (m.tok n + 1) }
  else { m with held := tset m.held g (tgetD m.held g [] ++ [n]) }

/-- The post of a prefix, if it has one. -/
def Member.postPrefix (m : Member) (g : Nat) (p : Option Lane) : Member :=
  match prefixPost p with
  | none => m
  | some n => m.post g n

/-- The stream queue and the instructions in flight of engine `g`. -/
def Member.q (m : Member) (g : Nat) : List Entry := tgetD m.queues g []
def Member.fl (m : Member) (g : Nat) : List Entry := tgetD m.flight g []
def Member.setQ (m : Member) (g : Nat) (l : List Entry) : Member := { m with queues := tset m.queues g l }
def Member.setFl (m : Member) (g : Nat) (l : List Entry) : Member := { m with flight := tset m.flight g l }

/-- LC of a level as an instruction with stamp `st` sees it (05 R138). -/
def Stamp.lcOf (st : Stamp) (lvl : Nat) : Word :=
  if st.plvl = some lvl then st.lcs.getD lvl 0 - BitVec.ofNat 64 (st.tag.getD 0) else st.lcs.getD lvl 0

/-- ORs flags into FPMODE.FLAGS, bits [13:8] (02 R40, R41): invalid 1, divzero 2, overflow 4, underflow 8, inexact 16, saturate 32. -/
def Member.setFlags (m : Member) (e : Nat) : Member :=
  { m with fpmode := setBits m.fpmode 13 8 (bits m.fpmode 13 8 ||| e) }

end Sys2Proof.Machine
end

