-- ==== Sys2Proof/Machine/Route.lean ====
section
/-! DEFINITION. The trellis (17 R400) and the routes over it (R406). -/

namespace Sys2Proof.Machine

/-- The dies at the ends of a link: for a scale-out port both are the port's die, for the host link die 0 (17 R400). -/
def linkEnds (l : Nat) : Nat × Nat :=
  if l < 8 then (l, (l + 1) % 8) else if l < 16 then (l - 8, (l - 6) % 8) else if l < 32 then ((l - 16) / 2, (l - 16) / 2) else (0, 0)

/-- Whether a link joins two C-dies. -/
def isTrellis (l : Nat) : Bool := decide (l < 16)

/-- The links of a die: four of the trellis, two scale-out ports, and on die 0 the host link. -/
def linksOf (d : Nat) : List Nat := (List.range 33).filter (fun l => (linkEnds l).1 == d || (linkEnds l).2 == d)

/-- A hop out of die `d`: ring ascending, ring descending, chord ascending, chord descending, in the order of preference of R406; the link, its
direction and the die it leads to. -/
def hop (d k : Nat) : Nat × Nat × Nat :=
  match k with
  | 0 => (d, 0, (d + 1) % 8)
  | 1 => ((d + 7) % 8, 1, (d + 7) % 8)
  | 2 => (8 + d, 0, (d + 2) % 8)
  | _ => (8 + (d + 6) % 8, 1, (d + 6) % 8)

/-- A link carries DATA flits (17 R410). -/
def Link.carries (x : Link) : Bool :=
  match x.state with
  | .up => true
  | .rekeying => true
  | _ => false

/-- A die that a route may pass through. -/
def State.passable (s : State) (d : Nat) : Bool := (s.die d).state != .quarantined

/-- The preferred route of exactly `n` hops from die `d` to die `t`, as hop numbers (17 R406). -/
def State.routeIn (s : State) (n d t : Nat) : Option (List Nat) :=
  match n with
  | 0 => if d = t then some [] else none
  | k + 1 =>
    (List.range 4).findSome? (fun h =>
      let x := hop d h
      if (s.link x.1).carries ∧ (k = 0 ∨ s.passable x.2.2 = true) then (s.routeIn k x.2.2 t).map (fun r => h :: r) else none)

/-- The route from die `d` to die `t` over the links as they stand (17 R406): fewest hops, at most 3; `none` when the pair is unreachable. -/
def State.route (s : State) (d t : Nat) : Option (List Nat) :=
  if d = t then some []
  else
    match s.routeIn 1 d t with
    | some r => some r
    | none =>
      match s.routeIn 2 d t with
      | some r => some r
      | none => s.routeIn 3 d t

end Sys2Proof.Machine
end

