-- ==== Sys2Proof/Machine/Order.lean ====
section
/-! DEFINITION. The memory path (13 R330, R331): home memory with its encryption (12 R309), the ordering points, the memory ports and
the L1 (05 R123 to R126), and the pushing of writes toward their coherence points. -/

namespace Sys2Proof.Machine

/-- The key value of the supervisor's key id 0, under which tables, descriptors and host accesses read HBM (DEDUCED, log entry 14). -/
def State.key0 (s : State) : Nat := ((tget s.tri.keys 0).map (·.val)).getD 0

/-- The 16 bytes of a 128-bit block, lowest first. -/
def blockBytes (b : BitVec 128) : List Byte := leBytes 16 b.toNat

/-- A plain block that was encrypted under key `k` as it reads decrypted under key `key` (12 R309). -/
def foreign (k key blk plain : Nat) : List Byte :=
  blockBytes (Config.foreignBlock (leNat (keyBytes k)) (leNat (keyBytes key)) blk (BitVec.ofNat 128 plain))

/-- The 16-byte HBM block `blk` as it reads under the key named `key` (12 R309, 25 R488). -/
def State.hbmBlock (s : State) (key blk : Nat) : List Byte :=
  match tget s.hbmKey blk with
  | none => blockBytes (Config.rawBlock (leNat (keyBytes key)) blk)
  | some k => if k = key then mread s.hbm (16 * blk) 16 else foreign k key blk (mnat s.hbm (16 * blk) 16)

/-- The die that holds a granule of HBM (12 R308). -/
def homeDie (pa : Nat) : Nat := 2 * (pa / 2 ^ 38 % 4) + pa / 4096 % 2

/-- Whether die `h` answers die `d`: it is JOINED, and a route reaches it (17 R406, R409, 19 R442). -/
def State.reaches (s : State) (d h : Nat) : Bool := (s.die h).state == .joined && (h == d || (s.route d h).isSome)

/-- Whether a place answers an access from die `d` (17 R409, R417): HBM of a die that answers; host and CXL memory while C-die 0 does and the host link is
UP. -/
def State.reachable (s : State) (d : Nat) (l : Loc) : Bool :=
  s.reaches d (if l.tgt = 0 then homeDie l.pa else 0) && (l.tgt == 0 || (s.link 32).state == .up)

/-- The byte at home of place `l`, offset `i`. -/
def State.homeByte (s : State) (l : Loc) (i : Nat) : Byte :=
  if l.tgt = 0 then (s.hbmBlock l.key ((l.pa + i) / 16)).getD ((l.pa + i) % 16) 0
  else if l.tgt = 1 then mget s.hostMem (l.pa + i)
  else mget s.cxlMem (l.pa + i)

/-- `n` bytes at home, read from die `d`; a place that does not answer reads as zeros (17 R409). -/
def State.homeRead (s : State) (d : Nat) (l : Loc) (n : Nat) : List Byte :=
  if s.reachable d l then (List.range n).map (s.homeByte l) else List.replicate n 0

/-- Makes the 16-byte block hold, under key value `key`, what it reads as under it: a write re-encrypts the block it writes (12 R309). -/
def State.rekeyBlock (s : State) (key blk : Nat) : State :=
  if tget s.hbmKey blk = some key then s
  else { s with hbm := mwrite s.hbm (16 * blk) (s.hbmBlock key blk), hbmKey := tset s.hbmKey blk key }

/-- Writes one byte at home. -/
def State.homePut (s : State) (l : Loc) (i : Nat) (b : Byte) : State :=
  if l.tgt = 0 then
    let s1 := s.rekeyBlock l.key ((l.pa + i) / 16)
    { s1 with hbm := mset s1.hbm (l.pa + i) b }
  else if l.tgt = 1 then { s with hostMem := mset s.hostMem (l.pa + i) b }
  else { s with cxlMem := mset s.cxlMem (l.pa + i) b }

/-- Writes bytes, each with its offset, at home, from die `d`; a write to a place that does not answer is discarded (17 R409). -/
def State.homeWrite (s : State) (d : Nat) (l : Loc) (bs : List (Nat × Byte)) : State :=
  if s.reachable d l then bs.foldl (fun s p => s.homePut l p.1 p.2) s else s

/-- A held write leaves the ordering point of die `d` for its home; one whose home no longer answers is lost, and reported when the turn ends (17 R409). -/
def State.homeForward (s : State) (d : Nat) (w : MemWrite) : State :=
  if s.reachable d w.loc then s.homeWrite d w.loc w.data else { s with lost := s.lost ++ [w] }

/-- Bytes with their offsets from 0. -/
def withOffsets (bs : List Byte) : List (Nat × Byte) := (List.range bs.length).zip bs

/-- The place `n` bytes further. -/
def Loc.add (l : Loc) (n : Nat) : Loc := { l with pa := l.pa + n, va := l.va + n }

/-- The 64-byte sector of a place. -/
def Loc.sector (l : Loc) : Nat × Nat := (l.tgt, l.pa / 64)

/-- The byte at address `pa` of target `tgt` as a queue of writes leaves it; a write under another key reads as ciphertext (12 R309). -/
def overlay (ws : List MemWrite) (l : Loc) (i : Nat) (b : Byte) : Byte :=
  ws.foldl (fun b w =>
    if w.loc.tgt = l.tgt ∧ w.loc.pa ≤ l.pa + i then
      match w.data.find? (fun p => p.1 == l.pa + i - w.loc.pa) with
      | none => b
      | some p =>
        if w.loc.key = l.key then p.2
        else (foreign w.loc.key l.key ((l.pa + i) / 16) p.2.toNat).getD ((l.pa + i) % 16) 0
    else b) b

/-- `n` bytes of a place as a read of core `c` sees them past the L1: its memory port, then the die's ordering point, then home (13 R331). -/
def State.devRead (s : State) (c : Nat) (l : Loc) (n : Nat) : List Byte :=
  if s.reachable (dieOf c) l then
    (List.range n).map (fun i => overlay (s.core c).outq l i (overlay (s.die (dieOf c)).ordq l i (s.homeByte l i)))
  else List.replicate n 0

/-- `n` bytes as a party reads them (13 R331): a core or sequencer past what its port and its die's ordering point hold; the dispatcher and a scale-out port, which
have neither, at home. -/
def State.partyRead (s : State) (c : Nat) (l : Loc) (n : Nat) : List Byte := if c < 520 then s.devRead c l n else s.homeRead (dieOf c) l n

/-- `n` bytes as the walker reads them for party `c`: at the SYSTEM coherence point of its pages, the home L2 (12 R305, 13 R336). -/
def State.tableRead (s : State) (c : Nat) (l : Loc) (n : Nat) : List Byte := s.homeRead (dieOf c) l n

/-- Splits bytes at a place into writes that each lie in one 64-byte sector (13 R327). -/
def splitSectors (fuel : Nat) (c : Nat) (l : Loc) (bs : List Byte) : List MemWrite :=
  match fuel with
  | 0 => []
  | k + 1 =>
    if bs = [] then []
    else
      let n := 64 - l.pa % 64
      { core := c, loc := l, data := withOffsets (bs.take n) } :: splitSectors k c (l.add n) (bs.drop n)

/-- Puts a write of core `c` at its memory port; one to a place that does not answer is discarded there (17 R409). -/
def State.portWrite (s : State) (c : Nat) (l : Loc) (bs : List Byte) : State :=
  if s.reachable (dieOf c) l then s.modCore c (fun x => { x with outq := x.outq ++ splitSectors (bs.length + 1) c l bs }) else s

/-- What leaves an ordering point with the writes whose sector satisfies `p`, seen from the newest write back: the sectors, and the cores whose host writes, that
older writes must go before (13 R330, R338); whether each write goes stands in `out`, newest last. -/
structure Drain where
  secs : List (Nat × Nat) := []
  cores : List Nat := []
  out : List (Bool × MemWrite) := []

/-- One write of the queue. -/
def Drain.take (p : Nat × Nat → Bool) (w : MemWrite) (x : Drain) : Drain :=
  let host := w.loc.tgt != 0
  if p w.loc.sector || x.secs.contains w.loc.sector || (host && x.cores.contains w.core) then
    { secs := w.loc.sector :: x.secs, cores := if host then w.core :: x.cores else x.cores, out := (true, w) :: x.out }
  else { x with out := (false, w) :: x.out }

/-- Each write of an ordering point with whether it is performed, when the writes whose sector satisfies `p` are: with them go the older writes to the same
sectors, and to the host from the same memory port (13 R338). -/
def drained (p : Nat × Nat → Bool) (q : List MemWrite) : List (Bool × MemWrite) := (q.foldr (Drain.take p) {}).out

/-- Performs at home every write of the ordering point of die `d` whose sector satisfies `p`, and those that must stand before it, oldest first. -/
def State.drainOrd (s : State) (d : Nat) (p : Nat × Nat → Bool) : State :=
  let q := drained p (s.die d).ordq
  let s1 := s.modDie d (fun x => { x with ordq := (q.filter (fun w => !w.1)).map (·.2) })
  (q.filter (fun w => w.1)).foldl (fun s w => s.homeForward d w.2) s1

/-- The scope point a write of scope `sc` must reach: 0 the port, 1 the ordering point, 2 or 3 home (13 R330). -/
def pointOf (sys : Bool) (sc : Nat) : Nat := if sys then 3 else sc

/-- Moves the writes of core `c` whose sector satisfies `p` to the scope point of each (SYSTEM when `sys`), and with them the writes
of the ordering point to the same sectors that must stand before them. -/
def State.pushWrites (s : State) (c : Nat) (sys : Bool) (p : Nat × Nat → Bool) : State :=
  let q := (s.core c).outq
  let go := q.filter (fun w => p w.loc.sector && decide (1 ≤ pointOf sys w.loc.scope))
  -- the link keeps the posted writes of a memory port in order (13 R338)
  let host := go.any (fun w => w.loc.tgt != 0)
  let secs := (if host then go ++ q.filter (fun w => w.loc.tgt != 0) else go).map (fun w => w.loc.sector)
  let s1 := s.modCore c (fun x => { x with outq := q.filter (fun w => !secs.contains w.loc.sector) })
  let s2 := s1.modDie (dieOf c) (fun x => { x with ordq := x.ordq ++ q.filter (fun w => secs.contains w.loc.sector) })
  let far := ((s2.die (dieOf c)).ordq.filter (fun w => w.core == c && p w.loc.sector && decide (2 ≤ pointOf sys w.loc.scope) || (host && w.core == c && w.loc.tgt != 0))).map (fun w => w.loc.sector)
  s2.drainOrd (dieOf c) (fun x => far.contains x)

/-- Moves every write to the listed sectors, of pages of the scope of `l`, to that scope's point. -/
def State.pushSectors (s : State) (c : Nat) (l : Loc) (ss : List (Nat × Nat)) : State :=
  let s1 := s.pushWrites c false (fun x => ss.contains x)
  if 2 ≤ l.scope then s1.drainOrd (dieOf c) (fun x => ss.contains x) else s1

/-- Moves every write to the sector of place `l` to the scope point of `l`, so that a read there is performed at that point (05 R124). -/
def State.pushSector (s : State) (c : Nat) (l : Loc) : State := s.pushSectors c l [l.sector]

/-- Writes bytes at a place and performs them at its scope's point (13 R332). -/
def State.performWrite (s : State) (c : Nat) (l : Loc) (bs : List Byte) : State :=
  (s.portWrite c l bs).pushWrites c false (fun x => (splitSectors (bs.length + 1) c l bs).any (fun w => w.loc.sector == x))

/-- The first byte of the 512-byte line of a place. -/
def Loc.line (l : Loc) : Loc := { l with pa := l.pa / 512 * 512, va := l.va - l.pa % 512 }

/-- Whether an L1 line holds place `l`. -/
def L1Line.holds (x : L1Line) (l : Loc) : Bool := x.loc.tgt == l.tgt && x.loc.pa == l.pa / 512 * 512 && x.loc.key == l.key

/-- The dirty bytes of a line in sector `k`, with offsets in the sector. -/
def L1Line.dirtyIn (x : L1Line) (k : Nat) : List (Nat × Byte) :=
  (x.dirty.filter (fun i => i / 64 == k)).map (fun i => (i - 64 * k, x.data.getD i 0))

/-- The writes that write back a dirty line: one for each sector with dirty bytes (13 R327; DEDUCED, log entry 15). -/
def L1Line.writebacks (c : Nat) (x : L1Line) : List MemWrite :=
  (List.range 8).filterMap (fun k => if x.dirtyIn k = [] then none else some { core := c, loc := x.loc.add (64 * k), data := x.dirtyIn k, ce := true })

/-- Starts the write-back of a line and marks it clean, removing it from the dirty-line FIFO. -/
def State.writeBack (s : State) (c : Nat) (x : L1Line) : State :=
  s.modCore c (fun k => { k with
    outq := k.outq ++ x.writebacks c
    l1 := k.l1.map (fun y => if y.holds x.loc then { y with dirty := [] } else y)
    fifo := k.fifo.filter (fun l => !(x.holds l)) })

/-- Removes a line from the L1, writing it back first when it is dirty. -/
def State.evictLine (s : State) (c : Nat) (x : L1Line) : State :=
  (if x.dirty = [] then s else s.writeBack c x).modCore c (fun k => { k with l1 := k.l1.filter (fun y => !(y.holds x.loc)) })

/-- The line of the L1 of core `c` that holds a place. -/
def State.l1Line (s : State) (c : Nat) (l : Loc) : Option L1Line := (s.core c).l1.find? (fun x => x.holds l)

/-- Brings the line of a place into the L1 when it is absent; a full L1 (128 lines) gives up a line of free choice. -/
def State.l1Fill (s : State) (c : Nat) (l : Loc) : State :=
  match s.l1Line c l with
  | some _ => s
  | none =>
    let s1 := if (s.core c).l1.length < 128 then s
      else
        let (n, s') := s.freeNat
        match (s'.core c).l1[n % 128]? with
        | some x => s'.evictLine c x
        | none => s'
    let x : L1Line := { loc := l.line, data := s1.devRead c l.line 512 }
    s1.modCore c (fun k => { k with l1 := k.l1 ++ [x] })

/-- A CE load of `n` bytes through the L1 (05 R123, 13 R331). -/
def State.l1Read (s : State) (c : Nat) (l : Loc) (n : Nat) : List Byte × State :=
  let s1 := s.l1Fill c l
  match s1.l1Line c l with
  | some x => ((x.data.drop (l.pa % 512)).take n, s1)
  | none => (s1.devRead c l n, s1)

/-- A CE store through the L1: the line is allocated, marked dirty, and appended to the dirty-line FIFO once (05 R123). -/
def State.l1Write (s : State) (c : Nat) (l : Loc) (bs : List Byte) : State :=
  let s1 := s.l1Fill c l
  let o := l.pa % 512
  s1.modCore c (fun k => { k with
    l1 := k.l1.map (fun y => if y.holds l then
      { y with data := y.data.take o ++ bs ++ y.data.drop (o + bs.length)
               dirty := ((List.range bs.length).map (· + o)).foldl addOnce y.dirty } else y)
    fifo := if k.fifo.contains l.line then k.fifo else k.fifo ++ [l.line] })

/-- The sectors of the L1 write-backs of core `c` that its memory port or its die's ordering point holds. -/
def State.backSectors (s : State) (c : Nat) : List (Nat × Nat) :=
  (((s.core c).outq ++ (s.die (dieOf c)).ordq).filter (fun w => w.core == c && w.ce)).map (fun w => w.loc.sector)

/-- The release part of FENCE, STL and END (05 R124, R125): every dirty line in FIFO order is written back, and it and every earlier write-back
is performed at its scope's point (at SYSTEM when `sys`), with the writes that stand before it there. Other engines' writes it leaves where they are. -/
def State.release (s : State) (c : Nat) (sys : Bool) : State :=
  let s1 := ((s.core c).fifo).foldl (fun s l => match s.l1Line c l with
    | some x => s.writeBack c x
    | none => s) s
  s1.pushWrites c sys (fun x => (s1.backSectors c).contains x)

/-- The sectors of TGT 0 memory that a release writes back. -/
def State.dirtySectors (s : State) : Nat :=
  ((s.core s.cur.core).l1.filter (fun x => x.loc.tgt == 0)).foldl (fun n x => n + (x.writebacks s.cur.core).length) 0

/-- Every write of core `c` that its memory port or its die's ordering point holds is performed at SYSTEM scope (13 R339, 15 R365). -/
def State.flush (s : State) (c : Nat) : State := s.pushWrites c true (fun _ => true)

/-- The acquire part of LDA and FENCE: the L1 drops every clean line (05 R124, R125). -/
def State.acquire (s : State) (c : Nat) : State :=
  s.modCore c (fun k => { k with l1 := k.l1.filter (fun x => x.dirty != []) })

/-- A load-acquire of `n` bytes (05 R124): a dirty line that covers them is written back first, the whole of it performed at the scope's point, and the read is
taken there. -/
def State.acquireRead (s : State) (c : Nat) (l : Loc) (n : Nat) : List Byte × State :=
  let s2 := match s.l1Line c l with
    | some x => (s.writeBack c x).pushSectors c l (l.sector :: (x.writebacks c).map (fun (w : MemWrite) => w.loc.sector))
    | none => s.pushSector c l
  (s2.devRead c l n, s2.acquire c)

/-- A store-release (05 R124): the release, then the store at its scope's point, leaving no dirty byte of it in the L1. -/
def State.releaseWrite (s : State) (c : Nat) (l : Loc) (bs : List Byte) : State :=
  let s1 := (s.release c false).performWrite c l bs
  let o := l.pa % 512
  s1.modCore c (fun k => { k with l1 := k.l1.map (fun y => if y.holds l then
      { y with data := y.data.take o ++ bs ++ y.data.drop (o + bs.length) } else y) })

/-- A write of party `c` that is performed at home at once (13 R338). A core's or sequencer's passes its memory port and its die's ordering point, behind the older
writes that they hold for its sectors (R330), and one to the host behind every older write of its port to the host; the dispatcher has neither. -/
def State.systemWrite (s : State) (c : Nat) (l : Loc) (bs : List Byte) : State :=
  let p := fun (x : Nat × Nat) => (splitSectors (bs.length + 1) c l bs).any (fun (w : MemWrite) => w.loc.sector == x)
  (if c < 520 then (s.pushWrites c true (fun x => p x || (l.tgt != 0 && x.1 != 0))).drainOrd (dieOf c) p else s).homeWrite (dieOf c) l (withOffsets bs)

end Sys2Proof.Machine
end

