-- ==== Sys2Proof/Machine/Walk.lean ====
section
/-! DEFINITION. Address translation (12): the walk with its caches, KV slabs, and the choice a stale cache entry leaves; error records (25 R496, R497). -/

namespace Sys2Proof.Machine

/-- Kinds of access a walk is made for (12 R305, 16 R389 WKIND). -/
inductive Access where
  | read | write | text
  deriving DecidableEq, Repr

/-- WKIND of a trap record (16 R389). -/
def Access.code (k : Access) : Nat :=
  match k with
  | .read => 0 | .write => 1 | .text => 2

/-- Page size exponent of a SIZE code (12 R303). -/
def pageBits (size : Nat) : Nat :=
  match size with
  | 0 => 12 | 1 => 16 | 2 => 21 | 3 => 25 | 4 => 30 | _ => 34

/-- The SIZE codes a leaf may have at a level (12 R303). -/
def sizeAllowed (lvl size : Nat) : Bool :=
  match lvl with
  | 0 => size == 0 || size == 1
  | 1 => size == 2 || size == 3
  | 2 => size == 4 || size == 5
  | _ => false

/-- An HBM physical address that 12 R308 assigns. -/
def hbmAssigned (pa : Nat) : Bool := decide (pa / 2 ^ 40 = 0 ∧ pa % 2 ^ 38 < 192 * 2 ^ 30)

/-- A table entry is well-formed at its level (12 R304, R305). -/
def entryWellFormed (e lvl : Nat) : Bool :=
  let pa := bits e 51 12 * 4096
  bits e 63 60 == 0 && !bit e 11 &&
  (if bit e 1 then
    decide (lvl ≤ 2) && decide (bits e 10 9 < 3) && sizeAllowed lvl (bits e 4 2) && pa % 2 ^ pageBits (bits e 4 2) == 0
      && (bits e 10 9 == 0 || (bits e 59 52 == 0 && bits e 8 7 == 3))
      && (bits e 10 9 != 0 || hbmAssigned pa)
  else
    decide (0 < lvl) && bits e 59 52 == 0 && bits e 10 2 == 0 && hbmAssigned pa)

/-- Key id `k` is installed on the die, and bound to the context (12 R309, 19 R446); id 0 is bound to the supervisor context. -/
def State.keyUsable (s : State) (c ctx k : Nat) : Bool :=
  match tget s.tri.keys k with
  | none => false
  | some e => bit e.dies (dieOf c) && (e.ctx == ctx || (e.ctx == 256 && (s.ctx ctx).kind == 1 && (s.ctx ctx).state != .free))

/-- The value of key id `k`. -/
def State.keyVal (s : State) (k : Nat) : Nat := ((tget s.tri.keys k).map (·.val)).getD 0

/-- The translation cache of a party: a core's or sequencer's own, or the dispatcher's; a scale-out port has none. -/
def State.tlb (s : State) (c : Nat) : List TlbEnt := if c < 520 then (s.core c).tlb else if c < 1024 then s.disp.tlb else []

/-- Replaces that cache. -/
def State.setTlb (s : State) (c : Nat) (t : List TlbEnt) : State :=
  if c < 520 then s.modCore c (fun x => { x with tlb := t }) else if c < 1024 then { s with disp := { s.disp with tlb := t } } else s

-- Error records.

/-- DROP of a die's error register rises, saturating (25 R496). -/
def State.drop (s : State) (d : Nat) : State := s.modDie d (fun x => { x with errDrop := min (x.errDrop + 1) 0xFFFF })

/-- UE of a die's error register rises, saturating (25 R496). -/
def State.countUe (s : State) (d : Nat) : State := s.modDie d (fun x => { x with errUe := min (x.errUe + 1) 0xFFFF })

/-- The 64 bytes of an error record (25 R497). -/
def errorBytes (code src ptc payload vaddr which : Nat) : List Byte :=
  leBytes 2 3 ++ leBytes 2 code ++ leBytes 2 src ++ leBytes 2 0 ++ leBytes 8 ptc ++ leBytes 8 payload ++ leBytes 8 vaddr
    ++ leBytes 4 which ++ leBytes 28 0

/-- The ring number of the event ring in a context's table (15 R361). -/
def eventRing : Nat := 64

/-- The free entries of a ring (15 R372). -/
def Ctx.ringFree (x : Ctx) (n : Nat) : Nat :=
  let r := tgetD x.rings n {}
  if r.on then 2 ^ r.log2n - (r.widx + 2 ^ 32 - tgetD x.hrread n 0) % 2 ^ 32 else 0

/-- The error records of a context that find its event ring full: those behind the records for which it has room. -/
def Ctx.recordsHeld (x : Ctx) : Nat := ((x.waiting.drop (x.ringFree eventRing)).filter (fun w => w.1)).length

/-- Puts a record on the waiting list of a context's event ring; at most 64 error records wait for room, and one beyond them counts in DROP of die `d`, where its
error was met (25 R496, R498). -/
def State.queueRecord (s : State) (c d : Nat) (isErr : Bool) (bs : List Byte) : State :=
  if isErr ∧ 64 ≤ (s.ctx c).recordsHeld then s.drop d
  else s.modCtx c (fun x => { x with waiting := x.waiting ++ [(isErr, bs)] })

/-- An error record for an error of die `d` met by party `src` in context `c` (25 R497, R498): it goes to the event ring of a tenant context, else, and always
for a sequencer's access, to the supervisor's; with no supervisor it is discarded. UE of the die rises, and, but for a lost write, so does the STRICTMISS of the
member that stands on `src` (01 R32). The record is appended by EVENT_RECORD_APPEND. -/
def State.errorAt (s : State) (d src c code payload vaddr which : Nat) : State :=
  let s1 := (if code = 11 ∨ (s.seat src).present = false ∨ s.ctxOn src ≠ c then s else s.strictMiss src).countUe d
  let bs := errorBytes code (min src partyDispatcher) s.ptc payload vaddr which
  if (s.ctx c).state != .free ∧ (s.ctx c).kind = 0 ∧ c < 256 ∧ ¬(512 ≤ src ∧ src < 520) then s1.queueRecord c d true bs
  else
    match s.supervisor with
    | some v => s1.queueRecord v d true bs
    | none => s1.drop d

/-- An error record for an error on the party's own die. -/
def State.errorRecord (s : State) (src c code payload vaddr which : Nat) : State := s.errorAt (dieOf src) src c code payload vaddr which

/-- The die whose structure fails when party `src` reads place `l` (25 R496): its own for its L1, else the one that holds the place; what lies behind the host
link counts on the party's die. -/
def structDie (src code : Nat) (l : Loc) : Nat := if code = 8 ∨ l.tgt ≠ 0 then dieOf src else homeDie l.pa

/-- An error record for an error of structure `code` that strikes the 64-byte unit of place `l`. -/
def State.memError (s : State) (src c code : Nat) (l : Loc) (vaddr which : Nat) : State :=
  s.errorAt (structDie src code l) src c code (l.pa / 64 * 64) vaddr which

/-- The error records of a read of `n` bytes at a place that does not answer (17 R409). -/
def State.noteUnreachable (s : State) (src c va : Nat) (l : Loc) : State :=
  if s.reachable (dieOf src) l then s else s.errorRecord src c 10 (l.pa / 64 * 64) va 0

-- Walks.

/-- Reads a table entry at the SYSTEM coherence point, for address `va` (12 R305). An uncorrectable error makes it read as zero, and so does a place
that does not answer (17 R409): an error record is written (25 R497). -/
def State.entryRead (s : State) (c ctx va pa : Nat) : Nat × State :=
  let l : Loc := { tgt := 0, pa := pa, key := s.key0, scope := 3 }
  if (s.memHit false l).isSome then (0, s.memError c ctx 9 l va 0)
  else
    let s1 := s.noteUnreachable c ctx va l
    (leNat (s1.tableRead c l 8), s1)

/-- Whether a cached entry is that of context `ctx` at level `lvl` with tag `tag`. -/
def TlbEnt.hits (ctx lvl tag : Nat) (t : TlbEnt) : Bool := t.ctx == ctx && t.lvl == lvl && t.va == tag

/-- A cache with entry `m` in place of the one it held; only entries with V = 1 are cached (12 R311). -/
def cacheEnt (l : List TlbEnt) (ctx lvl tag m : Nat) : List TlbEnt :=
  l.filter (fun t => !t.hits ctx lvl tag) ++ (if bit m 0 then [{ ctx := ctx, lvl := lvl, va := tag, ent := m }] else [])

/-- The walker of the party's die gives the entry of a table (12 R311): the one in memory, `m`, or an older one that its cache still holds. -/
def State.walkerEntry (s : State) (c ctx lvl tag m : Nat) : Nat × State :=
  let d := dieOf c
  match (s.die d).tlb.find? (fun t => t.hits ctx lvl tag) with
  | some t =>
    if t.ent = m then (m, s)
    else
      let (b, s1) := s.freeBit
      if b then (t.ent, s1) else (m, s1.modDie d (fun x => { x with tlb := cacheEnt x.tlb ctx lvl tag m }))
  | none => (m, if bit m 0 then s.modDie d (fun x => { x with tlb := cacheEnt x.tlb ctx lvl tag m }) else s)

/-- The entry a walk of `va` uses at level `lvl`: the one in memory, or, while an older one stands in the party's cache or its die's walker's, that one (12 R311).
A cached entry that equals memory changes nothing. -/
def State.walkEntry (s : State) (c ctx lvl va pa : Nat) : Nat × State :=
  let tag := va / 2 ^ (12 + 9 * lvl)
  let (m, s) := s.entryRead c ctx va pa
  let fill := fun (s : State) =>
    let (e, s1) := s.walkerEntry c ctx lvl tag m
    (e, s1.setTlb c (cacheEnt (s1.tlb c) ctx lvl tag e))
  match (s.tlb c).find? (fun t => t.hits ctx lvl tag) with
  | some t =>
    if t.ent = m then (m, s)
    else
      let (b, s1) := s.freeBit
      if b then (t.ent, s1) else fill s1
  | none => fill s

/-- A translation trap at walk level `lvl`. -/
def walkTrap (cause va : Nat) (k : Access) (lvl : Nat) : Trap := { cause := cause, wlvl := lvl, wkind := k.code, taddr := va }

/-- What a leaf gives for an access (12 R305). -/
def State.leaf (s : State) (c ctx va : Nat) (k : Access) (lvl e : Nat) : Except Trap Loc :=
  if k = .write ∧ bit e 5 = false then .error (walkTrap 0x22 va k lvl)
  else if k = .text ∧ bit e 6 = false then .error (walkTrap 0x23 va k lvl)
  else if bits e 10 9 = 0 ∧ s.keyUsable c ctx (bits e 59 52) = false then .error (walkTrap 0x24 va k lvl)
  else
    let b := pageBits (bits e 4 2)
    .ok { tgt := bits e 10 9, pa := bits e 51 12 * 4096 / 2 ^ b * 2 ^ b + va % 2 ^ b
          key := if bits e 10 9 = 0 then s.keyVal (bits e 59 52) else 0, scope := bits e 8 7, va := va }

/-- The walk from level `lvl` with table `t` (12 R305). -/
def State.walkFrom (s : State) (c ctx va : Nat) (k : Access) (lvl t : Nat) : Except Trap Loc × State :=
  let idx := if lvl = 4 then va / 2 ^ 48 % 256 else va / 2 ^ (12 + 9 * lvl) % 512
  let (e, s1) := s.walkEntry c ctx lvl va (t + 8 * idx)
  if bit e 0 = false then (.error (walkTrap 0x20 va k lvl), s1)
  else if entryWellFormed e lvl = false then (.error (walkTrap 0x21 va k lvl), s1)
  else if bit e 1 then (s1.leaf c ctx va k lvl e, s1)
  else
    match lvl with
    | 0 => (.error (walkTrap 0x21 va k 0), s1)
    | l + 1 => s1.walkFrom c ctx va k l (bits e 51 12 * 4096)

/-- The walk of a device virtual address that is not a slab address (12 R303, R305): root entry 255 is never read, and a FREE context has no tables. -/
def State.walk (s : State) (c ctx va : Nat) (k : Access) : Except Trap Loc × State :=
  if va / 2 ^ 48 % 256 = 255 ∨ (s.ctx ctx).state = .free then (.error (walkTrap 0x20 va k 4), s)
  else s.walkFrom c ctx va k 4 (s.ctx ctx).root

/-- The physical core that an accumulator address names in a context (01 R27): package core number and offset, or the cause.
A sequencer's DIE field is ignored, and LOC = 1 names the issuing core. -/
def State.accPlace (s : State) (c ctx a : Nat) : Except Nat (Nat × Nat) :=
  let core := bits a 27 22
  let off := a % 2 ^ 20
  let x := s.ctx ctx
  if bit a 31 ∧ bits a 30 22 ≠ 0 then .error 0x03
  else if bits a 21 20 ≠ 0 then .error 0x03
  else if bit a 31 then (if isSeq c then .error 0x12 else .ok (c, off))
  else if isSeq c then .ok ((c - 512) * 64 + core, off)
  else
    let d := bits a 30 28
    let q := d * 4 + core / 16
    if x.sq ≤ q ∧ q < x.sq + x.nq then .ok (((x.ad + d) % 8) * 64 + core, off) else .error 0x12

/-- The place of a slab's WCTL (12 R319, R322): for a party that is no core, LOC = 1 names none. -/
def State.windowPlace (s : State) (c ctx a : Nat) : Except Nat (Nat × Nat) :=
  if c < 520 then s.accPlace c ctx a else if bit a 31 then .error 0x12 else s.accPlace 0 ctx a

/-- The number of `n` bytes of a core's accumulator SRAM. -/
def State.accNat (s : State) (c off n : Nat) : Nat := mnat (s.seat c).acc off n

/-- The window base at a place, of accumulator address `a`, as the executing instruction uses it: read once at its port, and kept with its queue entry (12 R322). -/
def State.windowBase (s : State) (ctx a w off : Nat) : Nat × State :=
  match tget s.cur.ent.wbs (w * 2 ^ 20 + off) with
  | some v => (v, s)
  | none =>
    let far := !s.reaches (dieOf s.cur.core) (dieOf w)
    let (v, s1) := if far then (0, s.errorRecord s.cur.core ctx 10 (off / 64 * 64) a 0)
      else if s.accHit w off 4 then (0, s.errorAt (dieOf w) s.cur.core ctx 4 (off / 64 * 64) a 0)
      else (s.accNat w off 4, s)
    (v, s1.modEnt (fun e => { e with wbs := tset e.wbs (w * 2 ^ 20 + off) v }))

/-- The 32 bytes of the slab descriptor at a place, as party `c` reads them at address `va` (12 R319, 13 R331): zeros, with a record, where an error strikes or
the place does not answer. -/
def State.descRead (s : State) (c ctx va : Nat) (l : Loc) : Nat × State :=
  match s.memHit false l with
  | some code => (0, s.memError c ctx code l va 0)
  | none =>
    let s1 := s.noteUnreachable c ctx va l
    (leNat (s1.partyRead c l 32), s1)

/-- Resolves a slab address (12 R319 to R321) to the address that is then walked. The descriptor may be a cached one that memory no longer
holds, until an invalidation covers it (R311). A slab table that stands at a slab address is refused (R319). -/
def State.slabResolve (s : State) (c ctx va : Nat) (k : Access) : Except Trap Nat × State :=
  let n := va / 2 ^ 36 % 4096
  let x := s.ctx ctx
  let bad := fun (cause : Nat) => walkTrap cause va k 0
  if x.slabn ≤ n then (.error (bad 0x25), s)
  else if 255 * 2 ^ 48 ≤ x.slabt + 32 * n then (.error { cause := 0x10, taddr := x.slabt + 32 * n }, s)
  else
    match s.walk c ctx (x.slabt + 32 * n) .read with
    | (.error t, s1) => (.error t, s1)
    | (.ok l, s1) =>
      if l.tgt ≠ 0 then (.error (bad 0x26), s1)
      else
        let (m, s1) := s1.descRead c ctx (x.slabt + 32 * n) l
        let old := (s1.core c).slabs.find? (fun e => e.ctx == ctx && e.slab == n)
        let (D, s2) := match old with
          | some e => if e.desc = m then (m, s1) else
              let (b, s') := s1.freeBit
              (if b then e.desc else m, s')
          | none => (m, s1)
        let s3 := if c < 520 then s2.modCore c (fun y => { y with slabs := y.slabs.filter (fun e => !(e.ctx == ctx && e.slab == n)) ++ [{ ctx := ctx, slab := n, desc := D }] })
          else s2
        let base := D % 2 ^ 64
        let obase := bits D 127 64
        let mw := bits D 191 160
        let wctl := bits D 159 128
        let f := bits D 255 192
        let S := bits f 55 40
        let W := bits f 39 16
        let fwd := bit f 12
        let kind := bits f 11 10
        let lrow := bits f 9 5
        let cap := 2 ^ bits f 4 0
        if kind = 0 ∨ kind = 3 ∨ bits f 63 56 ≠ 0 ∨ bits f 15 13 ≠ 0 ∨ lrow < 6 ∨ 16 < lrow
            ∨ (kind = 2 ∧ (fwd = true ∨ cap < W + S)) then (.error (bad 0x26), s3)
        else
          let p := va % 2 ^ 36 / 2 ^ lrow
          let o := va % 2 ^ lrow
          if kind = 1 then
            if cap ≤ p then (.error (bad 0x25), s3)
            else (.ok ((if fwd ∧ mw ≤ p ∧ p < cap / 2 then obase else base) + p * 2 ^ lrow + o), s3)
          else
            match s3.windowPlace c ctx wctl with
            | .error cause => (.error { cause := cause, taddr := va }, s3)
            | .ok (w, off) =>
              let (wb, s4) := s3.windowBase ctx wctl w off
              if p < wb ∨ wb + W + S ≤ p then (.error (bad 0x25), s4)
              else (.ok (base + (p % cap) * 2 ^ lrow + o), s4)

/-- Translates address `va` for an access (12 R303, R305, R319): range, slab or plain. `slab` says whether the user accepts slab addresses. The address to which
a slab resolves is walked by its bits [55:0]; bits above them, which a descriptor may give it, count for nothing (DESIGN CHOICE, log entry 56: R321 gives no range
check there). -/
def State.translate (s : State) (c ctx va : Nat) (k : Access) (slab : Bool) : Except Trap Loc × State :=
  if 2 ^ 56 ≤ va then (.error { cause := 0x10, taddr := va }, s)
  else if va / 2 ^ 48 = 255 then
    if slab then
      match s.slabResolve c ctx va k with
      | (.error t, s1) => (.error t, s1)
      | (.ok v, s1) =>
        match s1.walk c ctx v k with
        | (.error t, s2) => (.error t, s2)
        | (.ok l, s2) => (.ok { l with va := va }, s2)
    else (.error { cause := 0x10, taddr := va }, s)
  else s.walk c ctx va k

/-- Translates a list of addresses in order; the first failure is the result. -/
def State.translateAll (s : State) (c ctx : Nat) (k : Access) (slab : Bool) (vas : List Nat) : Except Trap (List Loc) × State :=
  match vas with
  | [] => (.ok [], s)
  | v :: r =>
    match s.translate c ctx v k slab with
    | (.error t, s1) => (.error t, s1)
    | (.ok l, s1) =>
      match s1.translateAll c ctx k slab r with
      | (.error t, s2) => (.error t, s2)
      | (.ok ls, s2) => (.ok (l :: ls), s2)

end Sys2Proof.Machine
end

