-- ==== Sys2Proof/Machine/Events.lean ====
section
/-! DEFINITION. Host rings and the event ring (15 R372, R373, R501), interrupts (17 R416), event records and waiting error records (25 R498). -/

namespace Sys2Proof.Machine

/-- Signals an MSI-X vector: a message, or its pending bit while the vector or the function is masked (17 R416), or while the device may issue no request
(R415; DESIGN CHOICE, log entry 8). -/
def State.signal (s : State) (v : Nat) : State :=
  let m := tgetD s.msix v {}
  if m.masked || s.fmask || !s.hostKeyed then { s with msix := tset s.msix v { m with pending := true } }
  else { s with irqs := s.irqs ++ [v] }

/-- Sends a message for every vector that is pending and not masked. -/
def State.sendPending (s : State) : State :=
  let vs := (s.msix.filter (fun p => p.2.pending && !p.2.masked)).map (fun p => p.1)
  { s with msix := tmap (fun _ (m : Msix) => if m.pending && !m.masked then { m with pending := false } else m) s.msix, irqs := s.irqs ++ vs }

/-- Room for `j` entries (15 R372). -/
def State.ringRoom (s : State) (c n j : Nat) : Bool :=
  let r := tgetD (s.ctx c).rings n {}
  r.on && decide ((r.widx + j + 2 ^ 32 - tgetD (s.ctx c).hrread n 0) % 2 ^ 32 ≤ 2 ^ r.log2n)

/-- A write the device makes on its own to a ring's page (15 R501): performed at SYSTEM, or lost and reported. -/
def State.ringWrite (s : State) (c va : Nat) (bs : List Byte) : State :=
  match s.translate partyDispatcher c va .write false with
  | (.ok l, s1) => if s1.reachable 0 l then s1.systemWrite partyDispatcher l bs else s1.errorRecord partyDispatcher c 10 l.pa va 0
  | (.error _, s1) =>
    if (s.ctx c).kind = 1 then s1.drop 0
    else
      match s1.supervisor with
      | some v => (s1.countUe 0).queueRecord v 0 true (errorBytes 11 partyDispatcher s.ptc 0 va 0)
      | none => s1.drop 0

/-- Counts the entries a WIDX write covers and signals when CNT is reached (15 R373). -/
def State.ringCount (s : State) (c n j : Nat) : State :=
  let r := tgetD (s.ctx c).rings n {}
  let r1 := { r with p := r.p + j, t0 := if r.p = 0 then s.ptc else r.t0 }
  if r1.cnt ≠ 0 ∧ r1.cnt ≤ r1.p then
    (s.modCtx c (fun x => { x with rings := tset x.rings n { r1 with p := 0 } })).signal r1.vec
  else s.modCtx c (fun x => { x with rings := tset x.rings n r1 })

/-- Appends entries of 64 bytes to a ring that has room, then writes WIDX (15 R372). -/
def State.appendEntries (s : State) (c n : Nat) (es : List (List Byte)) : State :=
  let s1 := es.foldl (fun s e =>
    let r := tgetD (s.ctx c).rings n {}
    (s.ringWrite c (r.base + 64 * (r.widx % 2 ^ r.log2n)) e).modCtx c
      (fun x => { x with rings := tset x.rings n { tgetD x.rings n {} with widx := (r.widx + 1) % 2 ^ 32 } })) s
  let r := tgetD (s1.ctx c).rings n {}
  (s1.ringWrite c r.waddr (leBytes 8 r.widx)).ringCount c n es.length

/-- Appends a record to a context's event ring, or leaves it waiting in the dispatcher when the ring is full or others wait (16 R388, 25 R498). -/
def State.postRecord (s : State) (c : Nat) (bs : List Byte) : State :=
  if (s.ctx c).waiting = [] ∧ s.ringRoom c eventRing 1 = true then s.appendEntries c eventRing [bs]
  else s.queueRecord c 0 false bs

/-- The 64 bytes of an EVPOST or command event (15 R372). -/
def eventBytes (ekind code src queue ptc payload : Nat) : List Byte :=
  leBytes 2 ekind ++ leBytes 2 code ++ leBytes 2 src ++ leBytes 2 queue ++ leBytes 8 ptc ++ leBytes 8 payload ++ leBytes 40 0

/-- A waiting record as it is written: its PTC is that of the writing, but in an error record that of the detection (15 R372). -/
def stampPtc (now : Nat) (w : Bool × List Byte) : List Byte := if w.1 then w.2 else w.2.take 8 ++ leBytes 8 now ++ w.2.drop 16

/-- Appends the oldest waiting record when its ring has room (25 R498). -/
def State.appendWaiting (s : State) (c : Nat) : State :=
  match (s.ctx c).waiting with
  | [] => s
  | w :: r => if s.ringRoom c eventRing 1 then (s.modCtx c (fun x => { x with waiting := r })).appendEntries c eventRing [stampPtc s.ptc w] else s

/-- EVENT_RECORD_APPEND (25 R498): the oldest waiting record of context `c` is appended when room frees. -/
def execEventRecordAppend (c : Nat) (s : State) : Out := .next (s.appendWaiting c)

/-- COALESCING_TIMEOUT (15 R373): with TIME ≠ 0 and P ≥ 1, a ring whose first uncovered entry is TIME µs old signals its vector. -/
def execCoalescingTimeout (c n : Nat) (s : State) : Out :=
  let r := tgetD (s.ctx c).rings n {}
  if r.time ≠ 0 ∧ 1 ≤ r.p ∧ r.time * 1000 ≤ s.ptc - r.t0 then
    .next ((s.modCtx c (fun x => { x with rings := tset x.rings n { r with p := 0 } })).signal r.vec)
  else .next s

/-- MSIX_UNMASK (17 R416): the vector is unmasked; a pending signal sends one message. -/
def execMsixUnmask (v : Nat) (s : State) : Out :=
  if s.hostKeyed = false then .next s else
  let m := tgetD s.msix v {}
  if m.pending ∧ s.fmask = false then
    .next { s with msix := tset s.msix v { m with masked := false, pending := false }, irqs := s.irqs ++ [v] }
  else .next { s with msix := tset s.msix v { m with masked := false } }

end Sys2Proof.Machine
end

