-- ==== Sys2Proof/Machine/Num.lean ====
section
/-! DEFINITION. The number formats and their rounding (02 R33 to R52): exact values, decoding, RoundTo, conversions to integers,
deterministic stochastic rounding, and block formats. Flags are invalid 1, divzero 2, overflow 4, underflow 8, inexact 16, saturate 32 (R40). -/

namespace Sys2Proof.Machine

def fInvalid : Nat := 1
def fDivzero : Nat := 2
def fOverflow : Nat := 4
def fUnderflow : Nat := 8
def fInexact : Nat := 16
def fSaturate : Nat := 32

/-- A finite value: its sign, and magnitude `m * 2 ^ e`, or strictly between `m` and `m + 1` times `2 ^ e` when `sticky`.
A zero keeps its sign. -/
structure Ex where
  neg : Bool := false
  m : Nat := 0
  e : Int := 0
  sticky : Bool := false
  deriving DecidableEq, Repr

/-- A value of the floating formats (R33, R34). -/
inductive FV where
  | nan
  | inf (neg : Bool)
  | fin (x : Ex)
  deriving DecidableEq, Repr

/-- Exact zero test. -/
def Ex.isZero (x : Ex) : Bool := x.m == 0 && !x.sticky

/-- A floating format (R33): exponent and mantissa bits, bias, and whether it is E4M3, which has no infinity. -/
structure Fmt where
  ew : Nat
  mw : Nat
  bias : Nat
  e4m3 : Bool := false
  deriving DecidableEq, Repr

def fmtF32 : Fmt := { ew := 8, mw := 23, bias := 127 }
def fmtBf16 : Fmt := { ew := 8, mw := 7, bias := 127 }
def fmtF16 : Fmt := { ew := 5, mw := 10, bias := 15 }
def fmtE5m2 : Fmt := { ew := 5, mw := 2, bias := 15 }
def fmtE4m3 : Fmt := { ew := 4, mw := 3, bias := 7, e4m3 := true }

/-- Width in bits. -/
def Fmt.w (f : Fmt) : Nat := 1 + f.ew + f.mw

/-- The canonical NaN (R33, R34). -/
def Fmt.cnan (f : Fmt) : Nat := if f.e4m3 then 0x7F else (2 ^ f.ew - 1) * 2 ^ f.mw + 2 ^ (f.mw - 1)

/-- Infinity of a sign; E4M3 delivers its largest finite value (R44). -/
def Fmt.infBits (f : Fmt) (neg : Bool) : Nat :=
  b2n neg * 2 ^ (f.w - 1) + (if f.e4m3 then 0x7E else (2 ^ f.ew - 1) * 2 ^ f.mw)

/-- The largest finite magnitude of a sign (R33). -/
def Fmt.maxBits (f : Fmt) (neg : Bool) : Nat :=
  b2n neg * 2 ^ (f.w - 1) + (if f.e4m3 then 0x7E else (2 ^ f.ew - 1) * 2 ^ f.mw - 1)

/-- A zero of a sign. -/
def Fmt.zeroBits (f : Fmt) (neg : Bool) : Nat := b2n neg * 2 ^ (f.w - 1)

/-- The smallest normal exponent. -/
def Fmt.emin (f : Fmt) : Int := 1 - (f.bias : Int)

/-- The exponent of the largest finite value. -/
def Fmt.emax (f : Fmt) : Int := if f.e4m3 then 8 else (f.bias : Int)

/-- Decodes the bits of a format (R33, R34). -/
def Fmt.decode (f : Fmt) (b : Nat) : FV :=
  let neg := bit b (f.w - 1)
  let ex := bits b (f.w - 2) f.mw
  let ma := b % 2 ^ f.mw
  if f.e4m3 then
    if ex = 15 ∧ ma = 7 then .nan
    else if ex = 0 then .fin { neg := neg, m := ma, e := f.emin - f.mw }
    else .fin { neg := neg, m := 2 ^ f.mw + ma, e := (ex : Int) - f.bias - f.mw }
  else if ex = 2 ^ f.ew - 1 then (if ma = 0 then .inf neg else .nan)
  else if ex = 0 then .fin { neg := neg, m := ma, e := f.emin - f.mw }
  else .fin { neg := neg, m := 2 ^ f.mw + ma, e := (ex : Int) - f.bias - f.mw }

/-- How a rounding is made: RM (0 RNE, 1 RTZ, 2 RDN, 3 RUP, 4 RNA), FZ, SATF, and the DSR hash when the rounding is stochastic. -/
structure RMode where
  rm : Nat := 0
  fz : Bool := false
  satf : Bool := false
  dsr : Option Nat := none
  deriving DecidableEq, Repr

/-- The rounding of FPMODE (R40). -/
def modeOf (fpmode : Nat) : RMode := { rm := fpmode % 8, fz := bit fpmode 3, satf := bit fpmode 4 }

/-- Round to nearest even, without flush or saturation. -/
def modeRne : RMode := {}

/-- Whether the magnitude `n` plus a fraction is rounded up: `r / 2 ^ k` is the fraction's exact part, `sticky` a further part (R42, R51). -/
def roundUp (md : RMode) (neg : Bool) (n r k : Nat) (sticky : Bool) : Bool :=
  if r = 0 ∧ sticky = false then false
  else
    match md.dsr with
    | some h =>
      let rf := if neg then (2 ^ k - r) * 2 ^ 32 / 2 ^ k else r * 2 ^ 32 / 2 ^ k
      if neg then decide (rf + h < 2 ^ 32) else decide (2 ^ 32 ≤ rf + h)
    | none =>
      match md.rm with
      | 0 => decide (2 ^ k < 2 * r) || (decide (2 * r = 2 ^ k) && (sticky || n % 2 == 1))
      | 1 => false
      | 2 => neg
      | 3 => !neg
      | _ => decide (2 ^ k ≤ 2 * r)

/-- A magnitude in units of `2 ^ q`, rounded, and whether that changed it. -/
def Ex.toGrid (x : Ex) (q : Int) (md : RMode) : Nat × Bool :=
  if q ≤ x.e then (x.m * 2 ^ (x.e - q).toNat + b2n (roundUp md x.neg (x.m * 2 ^ (x.e - q).toNat) 0 1 x.sticky), x.sticky)
  else
    let k := (q - x.e).toNat
    let n := x.m / 2 ^ k
    let r := x.m % 2 ^ k
    (n + b2n (roundUp md x.neg n r k x.sticky), r != 0 || x.sticky)

/-- floor(log2) of a non-zero magnitude. -/
def Ex.lead (x : Ex) : Int := (x.m.log2 : Int) + x.e

/-- What an overflow delivers (R44): bits and flags. -/
def Fmt.overflow (f : Fmt) (neg : Bool) (md : RMode) : Nat × Nat :=
  let rm := if md.dsr = none then md.rm else 0
  let toInf : Bool := match rm with
    | 0 => true
    | 1 => false
    | 2 => neg
    | 3 => !neg
    | _ => true
  if md.satf ∨ f.e4m3 then (f.maxBits neg, fSaturate + fInexact)
  else if toInf then (f.infBits neg, fOverflow + fInexact)
  else (f.maxBits neg, fOverflow + fInexact)

/-- The bits of magnitude `n * 2 ^ q` with exponent `ex` of its leading place (R33). -/
def Fmt.pack (f : Fmt) (neg : Bool) (n : Nat) (ex : Int) : Nat :=
  b2n neg * 2 ^ (f.w - 1) + (ex + f.bias).toNat * 2 ^ f.mw + n % 2 ^ f.mw

/-- Whether the value with significand `n` (of `mw + 1` bits) and exponent `ex` exceeds the largest finite magnitude. -/
def Fmt.tooBig (f : Fmt) (n : Nat) (ex : Int) : Bool :=
  decide (f.emax < ex) || (f.e4m3 && decide (ex = 8) && decide (n = 15))

/-- Under DSR, a value beyond the largest finite magnitude has no upper neighbour and overflows (R51). -/
def Fmt.beyond (f : Fmt) (x : Ex) : Bool :=
  match f.decode (f.maxBits false) with
  | .fin y =>
    let e := if x.e ≤ y.e then x.e else y.e
    decide (y.m * 2 ^ (y.e - e).toNat < x.m * 2 ^ (x.e - e).toNat) || (decide (y.m * 2 ^ (y.e - e).toNat = x.m * 2 ^ (x.e - e).toNat) && x.sticky)
  | _ => false

/-- RoundTo of a finite exact value (R43, R44, R51, rule B of R31): bits and flags. -/
def Fmt.round (f : Fmt) (x : Ex) (md : RMode) : Nat × Nat :=
  if x.isZero then (f.zeroBits x.neg, 0)
  else if md.dsr ≠ none ∧ f.beyond x = true then f.overflow x.neg md
  else
    let ex0 := x.lead
    let (n0, ix0) := x.toGrid (ex0 - f.mw) md
    let (n1, ex1) := if n0 = 2 ^ (f.mw + 1) then (2 ^ f.mw, ex0 + 1) else (n0, ex0)
    if f.emin ≤ ex1 then
      if f.tooBig n1 ex1 then f.overflow x.neg md
      else (f.pack x.neg n1 ex1, if ix0 then fInexact else 0)
    else
      let (n, ix) := x.toGrid (f.emin - f.mw) md
      if n = 0 then (f.zeroBits x.neg, fUnderflow + fInexact)
      else if n = 2 ^ f.mw then (f.pack x.neg n f.emin, if ix then fUnderflow + fInexact else 0)
      else if md.fz then (f.zeroBits x.neg, fUnderflow + fInexact)
      else (b2n x.neg * 2 ^ (f.w - 1) + n, if ix then fUnderflow + fInexact else 0)

/-- RoundTo of any value (R43, R44, R47): a NaN is canonical, an infinity stays, and an E4M3 destination turns it to ±448 with saturate. -/
def Fmt.roundV (f : Fmt) (v : FV) (md : RMode) : Nat × Nat :=
  match v with
  | .nan => (f.cnan, 0)
  | .inf neg => (f.infBits neg, if f.e4m3 then fSaturate else 0)
  | .fin x => f.round x md

/-- RoundTo FP32. -/
def rnd32 (v : FV) (md : RMode) : Nat × Nat := fmtF32.roundV v md

/-- The FP32 value of bits. -/
def f32 (b : Nat) : FV := fmtF32.decode b

def FV.isNan (v : FV) : Bool := match v with
  | .nan => true | _ => false
def FV.isInf (v : FV) : Bool := match v with
  | .inf _ => true | _ => false
def FV.isZero (v : FV) : Bool := match v with
  | .fin x => x.isZero | _ => false
def FV.isNeg (v : FV) : Bool := match v with
  | .nan => false | .inf n => n | .fin x => x.neg

/-- Negation. -/
def FV.negate (v : FV) : FV := match v with
  | .nan => .nan | .inf n => .inf (!n) | .fin x => .fin { x with neg := !x.neg }

/-- Magnitude. -/
def FV.abs (v : FV) : FV := match v with
  | .nan => .nan | .inf _ => .inf false | .fin x => .fin { x with neg := false }

/-- The value of an integer. -/
def fvInt (n : Int) : FV := .fin { neg := decide (n < 0), m := n.natAbs, e := 0 }

/-- Times a power of two, exactly. -/
def FV.scale (v : FV) (k : Int) : FV := match v with
  | .fin x => .fin { x with e := x.e + k } | y => y

/-- A value that is subnormal as an FP32 number becomes a zero of its sign when FZ holds (R46, R173 step 1). -/
def FV.flush (v : FV) (fz : Bool) : FV := match v with
  | .fin x => if fz ∧ x.m ≠ 0 ∧ x.lead < -126 then .fin { neg := x.neg } else v
  | y => y

/-- The exact product; 0 × ∞ is invalid (R52). -/
def FV.mul (a b : FV) : FV × Nat :=
  match a, b with
  | .nan, _ => (.nan, 0)
  | _, .nan => (.nan, 0)
  | .inf s, .inf t => (.inf (s != t), 0)
  | .inf s, .fin y => if y.isZero then (.nan, fInvalid) else (.inf (s != y.neg), 0)
  | .fin x, .inf t => if x.isZero then (.nan, fInvalid) else (.inf (x.neg != t), 0)
  | .fin x, .fin y => (.fin { neg := x.neg != y.neg, m := x.m * y.m, e := x.e + y.e }, 0)

/-- The signed integer of a finite value in units of `2 ^ q` (`q` at most its exponent). -/
def Ex.units (x : Ex) (q : Int) : Int :=
  let n : Int := (x.m * 2 ^ (x.e - q).toNat : Nat)
  if x.neg then -n else n

/-- The least exponent of the finite terms. -/
def minExp (l : List FV) : Int :=
  l.foldl (fun e v => match v with
    | .fin x => if x.isZero then e else if x.e < e then x.e else e
    | _ => e) 0

/-- The exact sum of terms (R52, R173): infinities of both signs are invalid, beside a NaN term too (R56, 07 R183); a NaN term gives NaN; an exact
zero is −0 when every term is −0, or under RDN when not every term is +0. -/
def sumFV (rdn : Bool) (l : List FV) : FV × Nat :=
  let pinf := l.any (fun v => v.isInf && !v.isNeg)
  let ninf := l.any (fun v => v.isInf && v.isNeg)
  if pinf ∧ ninf then (.nan, fInvalid)
  else if l.any FV.isNan then (.nan, 0)
  else if pinf then (.inf false, 0)
  else if ninf then (.inf true, 0)
  else
    let q := minExp l
    let t : Int := l.foldl (fun a v => match v with
      | .fin x => if x.isZero then a else a + x.units q
      | _ => a) 0
    if t = 0 then
      let allNeg := l.all FV.isNeg && l.all FV.isZero
      let allPos := l.all (fun v => !v.isNeg) && l.all FV.isZero
      (.fin { neg := allNeg || (rdn && !allPos) }, 0)
    else (.fin { neg := decide (t < 0), m := t.natAbs, e := q }, 0)

/-- The exact quotient with a sticky remainder (R52). -/
def FV.div (a b : FV) : FV × Nat :=
  match a, b with
  | .nan, _ => (.nan, 0)
  | _, .nan => (.nan, 0)
  | .inf _, .inf _ => (.nan, fInvalid)
  | .inf s, .fin y => (.inf (s != y.neg), 0)
  | .fin x, .inf t => (.fin { neg := x.neg != t }, 0)
  | .fin x, .fin y =>
    let neg := x.neg != y.neg
    if y.isZero then (if x.isZero then (.nan, fInvalid) else (.inf neg, fDivzero))
    else if x.isZero then (.fin { neg := neg }, 0)
    else
      let k := 80 + bitLen y.m
      (.fin { neg := neg, m := x.m * 2 ^ k / y.m, e := x.e - y.e - k, sticky := x.m * 2 ^ k % y.m != 0 }, 0)

/-- floor of the square root, bit by bit from bit `k`. -/
def isqrtFrom (k n r : Nat) : Nat :=
  match k with
  | 0 => if (r + 1) * (r + 1) ≤ n then r + 1 else r
  | j + 1 => isqrtFrom j n (if (r + 2 ^ (j + 1)) * (r + 2 ^ (j + 1)) ≤ n then r + 2 ^ (j + 1) else r)

/-- floor of the square root. -/
def isqrt (n : Nat) : Nat := isqrtFrom (n.log2 / 2 + 1) n 0

/-- Comparison of two values that are not NaN, with −0 below +0 when `zeros` holds, else equal. -/
def FV.lt (zeros : Bool) (a b : FV) : Bool :=
  match a, b with
  | .inf s, .inf t => s && !t
  | .inf s, .fin _ => s
  | .fin _, .inf t => !t
  | .fin x, .fin y =>
    if x.isZero ∧ y.isZero then zeros && x.neg && !y.neg
    else
      let q := minExp [a, b]
      decide ((if x.isZero then 0 else x.units q) < (if y.isZero then 0 else y.units q))
  | _, _ => false

/-- The greater of two values under R177: a NaN gives way to a number. -/
def FV.max (a b : FV) : FV := if a.isNan then b else if b.isNan then a else if FV.lt true a b then b else a

/-- The smaller of two values under R177. -/
def FV.min (a b : FV) : FV := if a.isNan then b else if b.isNan then a else if FV.lt true b a then b else a

/-- The DSR hash (R50). -/
def dsrHash (rank step index : Nat) : Nat :=
  let m32 := 2 ^ 32
  let h := (rank * 0x6A5D39E3) % m32
  let h := h ^^^ (step % m32)
  let h := ((h ^^^ (h / 2 ^ 15)) * 0xB2C47F15) % m32
  let h := h ^^^ (index % m32)
  let h := ((h ^^^ (h / 2 ^ 13)) * 0x8F1BC6A5) % m32
  h ^^^ (h / 2 ^ 16)

/-- A rounded signed integer. -/
def Ex.toInt (x : Ex) (md : RMode) : Int × Bool :=
  let (n, ix) := x.toGrid 0 md
  (if x.neg then -(n : Int) else n, ix)

/-- The least and greatest value of an integer type of `w` bits. -/
def intMin (signed : Bool) (w : Nat) : Int := if signed then -((2 ^ (w - 1) : Nat) : Int) else 0
def intMax (signed : Bool) (w : Nat) : Int := if signed then ((2 ^ (w - 1) : Nat) : Int) - 1 else ((2 ^ w : Nat) : Int) - 1

/-- Saturate (00 R14): clamps to the type and flags. -/
def saturate (signed : Bool) (w : Nat) (v : Int) : Nat × Nat :=
  if intMax signed w < v then (ofSigned w (intMax signed w), fSaturate)
  else if v < intMin signed w then (ofSigned w (intMin signed w), fSaturate)
  else (ofSigned w v, 0)

/-- Conversion to an integer type (R48): bits and flags. -/
def toIntType (signed : Bool) (w : Nat) (v : FV) (md : RMode) : Nat × Nat :=
  match v with
  | .nan => (0, fInvalid)
  | .inf neg => (ofSigned w (if neg then intMin signed w else intMax signed w), fSaturate)
  | .fin x =>
    let (n, ix) := x.toInt md
    let (b, f) := saturate signed w n
    (b, if f ≠ 0 then f else if ix then fInexact else 0)

/-- Decodes element `i` of a block of width `w` held as a number (R37, R38). -/
def blockElem (w blk i : Nat) : FV :=
  let e : Int := (blk % 256 : Nat)
  let s : Int := (bits blk (9 + 2 * (i / 4)) (8 + 2 * (i / 4)) : Nat)
  let m := toSigned w (blk / 2 ^ (16 + i * w))
  .fin { neg := decide (m < 0), m := m.natAbs, e := e - 129 - s - ((w : Int) - 2) }

/-- The magnitude of a value in units of `2 ^ q` under RNE. -/
def FV.rneUnits (v : FV) (q : Int) : Nat :=
  match v with
  | .fin x => (({ x with neg := false } : Ex).toGrid q modeRne).1
  | _ => 0

/-- Whether every element of quad `g` is finite. -/
def quadFinite (xs : List FV) (g : Nat) : Bool := ((xs.drop (4 * g)).take 4).all (fun v => !v.isInf)

/-- The largest shift 0 to 3 at which every element of a quad fits (R39). -/
def quadShift (w : Nat) (E : Int) (xs : List FV) (g : Nat) : Nat :=
  if quadFinite xs g then
    [1, 2, 3].foldl (fun s (t : Nat) =>
      if ((xs.drop (4 * g)).take 4).all (fun v => decide (v.rneUnits (E - 129 - t - w + 2) ≤ 2 ^ (w - 1) - 1)) then t else s) 0
  else 0

/-- PackVB (R39): the block as a number, and the flags of each element. `md i` is the rounding of element `i`. -/
def packVBs (w : Nat) (xs0 : List FV) (md : Nat → RMode) : Nat × List Nat :=
  let xs := xs0.map (fun v => if v.isNan then .fin {} else v)
  let A := xs.foldl (fun a v => FV.max a v.abs) (.fin {})
  let E : Nat :=
    if xs.any FV.isInf then 255
    else match A with
      | .fin x =>
        if x.isZero then 0
        else
          let e := x.lead
          let e1 := if A.rneUnits (e - w + 2) = 2 ^ (w - 1) then e + 1 else e
          (min (max (e1 + 129) 0) 255).toNat
      | _ => 255
  let sh := (List.range 4).map (quadShift w E xs)
  let elem := fun (i : Nat) (v : FV) =>
    let q : Int := (E : Int) - 129 - (sh.getD (i / 4) 0 : Nat) - w + 2
    match v with
    | .inf neg => (if neg then intMin true w else intMax true w, fSaturate)
    | .fin x =>
      let (n, ix) := x.toGrid q (md i)
      let m : Int := if x.neg then -(n : Int) else n
      if intMax true w < m then (intMax true w, fSaturate + fInexact)
      else if m < intMin true w then (intMin true w, fSaturate + fInexact)
      else (m, if ix then fInexact else 0)
    | .nan => (0, 0)
  let es := ((List.range 16).zip xs).map (fun p => elem p.1 p.2)
  let shn := ((List.range 4).zip sh).foldl (fun a p => a + p.2 * 4 ^ p.1) 0
  let body := ((List.range 16).zip es).foldl (fun a p => a + ofSigned w p.2.1 * 2 ^ (16 + p.1 * w)) 0
  (E + 256 * shn + body, (xs0.zip es).map (fun p => p.2.2 ||| (if p.1.isNan then fInvalid else 0)))

/-- PackVB with the flags of all elements together. -/
def packVB (w : Nat) (xs : List FV) (md : Nat → RMode) : Nat × Nat :=
  let r := packVBs w xs md
  (r.1, r.2.foldl (fun a e => a ||| e) 0)

end Sys2Proof.Machine
end

