-- ==== Sys2Proof/Machine/Port.lean ====
section
/-! DEFINITION. The accumulator port (10 R243 to R246, R262 to R267) and the operations on barrier pairs (14 R341 to R354). -/

namespace Sys2Proof.Machine

/-- The core that a member of a group stands on (06 R154, R155): a sequencer for a group of the supervisor context (16 R377). -/
def State.memberCore (s : State) (g : Group) (rank : Nat) : Nat :=
  let x := s.ctx g.ctx
  let d := rank / g.c
  if x.kind = 1 then 512 + (g.anchor + d) % 8
  else ((x.ad + g.anchor + d) % 8) * 64 + 16 * g.quarters.getD d 0 + rank % g.c

/-- Marks the blocks of bytes `off` to `off + n - 1` LIVE (10 R244). -/
def Seat.touch (x : Seat) (off n : Nat) : Seat :=
  { x with live := addOnce (addOnce x.live (off / 65536)) ((off + n - 1) / 65536) }

/-- Whether bytes `off` to `off + n - 1` (at most 8) lie in an armed barrier pair (14 R343). -/
def Seat.isArmed (x : Seat) (off n : Nat) : Bool := x.armed.contains (off / 16 * 16) || x.armed.contains ((off + n - 1) / 16 * 16)

/-- Writes bytes of a core's accumulator SRAM. -/
def State.accPut (s : State) (c off n v : Nat) : State :=
  s.modSeat c (fun x => { x.touch off n with acc := mputNat x.acc off n v })

/-- A port overwrite of a word: refused, and the state unchanged, when the word is an armed barrier word (14 R343). -/
def State.portPut (s : State) (c off n v : Nat) : Bool × State :=
  if (s.seat c).isArmed off n then (false, s) else (true, s.accPut c off n v)

/-- The word a port write of FP32 `x` leaves, by mode 0 overwrite, 1 add (under `md`), 2 max (10 R246), and the flags of the add. The max compares the words as
they stand, without the flush of FZ, which R246 names for the add alone (DESIGN CHOICE, log entry 29). -/
def portWord (mode old x : Nat) (md : RMode) : Nat × Nat :=
  if mode = 0 then (x, 0)
  else if mode = 1 then
    let (v, e) := sumFV false [f32 old, f32 x]
    let (b, f) := rnd32 v md
    (b, e ||| f)
  else
    let m := FV.max (f32 old) (f32 x)
    (if m.isNan then fmtF32.cnan else if (f32 old).isNan then x else if (f32 x).isNan then old else if FV.lt true (f32 old) (f32 x) then x else old, 0)

/-- The extension of an old value into s[d] (10 R262). -/
def atomicOld (t w : Nat) : Word :=
  match t with
  | 1 => sext64 32 w
  | _ => BitVec.ofNat 64 w

/-- The width in bits of an atomic type (10 R262): .n32, .i32, .f32, .n64, .i64. -/
def atomicWidth (t : Nat) : Nat := if t < 3 then 32 else 64

/-- Whether `a` is greater than `b` by an atomic type: signed, unsigned, or R177 for .f32. -/
def atomicGt (t a b : Nat) : Bool :=
  match t with
  | 1 => decide (toSigned 32 b < toSigned 32 a)
  | 4 => decide (toSigned 64 b < toSigned 64 a)
  | 2 => FV.lt true (f32 b) (f32 a)
  | _ => decide (b < a)

/-- ATMAX and ATMIN on .f32 (R177): a NaN gives way to a number, two NaN give the canonical NaN. -/
def atomicPickF (gt : Bool) (w b : Nat) : Nat :=
  if (f32 w).isNan ∧ (f32 b).isNan then fmtF32.cnan
  else if (f32 w).isNan then b else if (f32 b).isNan then w
  else if FV.lt true (f32 w) (f32 b) = gt then b else w

/-- The new word of an atomic (10 R263): `op` is the opcode 0x70 to 0x76. -/
def atomicNew (op t w b c : Nat) : Nat :=
  let wd := atomicWidth t
  let b := b % 2 ^ wd
  let c := c % 2 ^ wd
  match op with
  | 0x70 => if t = 2 then (rnd32 (sumFV false [f32 w, f32 b]).1 modeRne).1 else (w + b) % 2 ^ wd
  | 0x71 => if t = 2 then (if (f32 w).isNan ∨ (f32 b).isNan then atomicPickF true w b else if FV.lt true (f32 w) (f32 b) then b else w)
            else if atomicGt t b w then b else w
  | 0x72 => if t = 2 then (if (f32 w).isNan ∨ (f32 b).isNan then atomicPickF false w b else if FV.lt true (f32 b) (f32 w) then b else w)
            else if atomicGt t w b then b else w
  | 0x73 => b
  | 0x74 => if w = b then c else w
  | 0x75 => if bit w (wd - 1) = false ∧ w < 2 ^ (wd - 1) - 1 then w + 1 else w
  | _ => if bit w (wd - 1) = false ∧ w ≠ 0 then w - 1 else w

/-- The accumulator address with LOC = 0 by which party `p` names OFFSET `off` of core `w` in context `x` (01 R27); a sequencer's DIE field is 0
(DESIGN CHOICE, log entry 56: R497 does not say how an access that names no LOC is written). -/
def State.accAddr (s : State) (p x w off : Nat) : Nat :=
  (if isSeq p ∧ p < 520 then 0 else (dieOf w + 8 - (s.ctx x).ad) % 8 * 2 ^ 28) + coreOnDie w * 2 ^ 22 + off

/-- A word as a port reads it: +0 while an uncorrectable error strikes it (10 R245). -/
def State.portVal (s : State) (w off n : Nat) : Nat := if s.accHit w off n then 0 else s.accNat w off n

/-- The word of core `w` that party `p` of context `x` reads at the port at accumulator address `a`, with an error record when an uncorrectable error strikes
it (10 R245, 25 R497). -/
def State.portReadAt (s : State) (p x a w off n : Nat) : Nat × State :=
  (s.portVal w off n, if s.accHit w off n then s.errorAt (dieOf w) p x 4 (off / 64 * 64) a 0 else s)

/-- As `State.portReadAt`, at the address with LOC = 0. -/
def State.portRead (s : State) (p x w off n : Nat) : Nat × State := s.portReadAt p x (s.accAddr p x w off) w off n

-- The barrier pair (14 R342).

/-- Fields of BCTL. -/
def bState (b : Nat) : Nat := bits b 63 61
def bMode (b : Nat) : Nat := bits b 60 59
def bPrev (b : Nat) : Nat := bits b 58 56
def bCause (b : Nat) : Nat := bits b 55 48
def bGen (b : Nat) : Nat := bits b 47 40
def bExpect (b : Nat) : Nat := bits b 39 24
def bArrived (b : Nat) : Nat := bits b 23 8
def bShort (b : Nat) : Bool := bit b 7
def bDrops (b : Nat) : Nat := b % 128

/-- BCTL and DEADLINE of the pair at `off` of core `c`. -/
def State.bctl (s : State) (c off : Nat) : Nat := s.accNat c off 8
def State.bdead (s : State) (c off : Nat) : Nat := s.accNat c (off + 8) 8

/-- BCTL and DEADLINE as a barrier operation of party `p` in context `x` reads them: zeros on an uncorrectable error, with an error record (10 R245, 14 R343). -/
def State.pairRead (s : State) (p x w off : Nat) : Nat × Nat × State :=
  if s.accHit w off 16 then (0, 0, s.errorAt (dieOf w) p x 4 (off / 64 * 64) (s.accAddr p x w off) 0) else (s.bctl w off, s.bdead w off, s)

/-- The completion condition of R346 at time `t`. -/
def bDone (b dead t : Nat) : Bool :=
  let full := decide (bExpect b ≤ bArrived b)
  let due := decide (dead ≤ t)
  match bMode b with
  | 0 => full
  | 1 => full && due
  | 2 => full || due
  | _ => due

/-- Completes the pair when its condition holds: STATE COMPLETE, SHORT when fewer arrived than expected (14 R345, R346). -/
def bSettle (b dead t : Nat) : Nat :=
  if bState b = 1 ∧ bDone b dead t = true then
    setBits (setBits b 63 61 2) 7 7 (b2n (decide (bArrived b < bExpect b)))
  else b

/-- The status code that a pair leaves behind (14 R348): OK or SHORT, BROKEN, DEAD, else STALE. -/
def outcomeCode (b : Nat) : Nat :=
  match bState b with
  | 2 => if bShort b then 1 else 0
  | 3 => 3
  | 4 => 4
  | _ => 5

/-- DROPS rises by one, saturating at 127. -/
def bDrop (b : Nat) : Nat := setBits b 6 0 (min (bDrops b + 1) 127)

/-- An arrival (14 R345): the new BCTL, whether it was late, and whether the state has no effect for it (FREE or reserved). What ARRIVED becomes past
its 16 bits is a free value (DESIGN CHOICE, log entry 47). -/
def bArrive (b dead t : Nat) : Nat × Bool × Bool :=
  match bState b with
  | 1 => (bSettle (setBits b 23 8 (if bArrived b < 65535 then bArrived b + 1 else Config.counterPast b)) dead t, false, false)
  | 2 => (bDrop b, true, false)
  | 3 => (bDrop b, false, false)
  | 4 => (bDrop b, false, false)
  | _ => (b, false, true)

/-- The arrive-drop of END for a record of generation `g` (14 R353): an arrival at generation `g`; one at another generation counts in DROPS. -/
def bArriveDrop (b g dead t : Nat) : Nat := if bState b = 1 ∧ bGen b ≠ g then bDrop b else (bArrive b dead t).1

/-- BINVAL (14 R351): DEAD, keeping GEN; CAUSE is 0 unless BROKEN (R342). -/
def bInval (b : Nat) : Nat := setBits (setBits b 63 61 4) 55 48 0

/-- A counted member halts (14 R345, R353): an ARMED pair of generation `g` becomes BROKEN. -/
def bBreak (b g cause : Nat) : Nat :=
  if bState b = 1 ∧ bGen b = g then setBits (setBits b 63 61 3) 55 48 cause else b

/-- BINIT at the port (14 R348): BUSY (none) on an ARMED pair, else the new BCTL. -/
def bInit (b v expect : Nat) : Option Nat :=
  if bState b = 1 then none
  else some (1 * 2 ^ 61 + bits v 19 18 * 2 ^ 59 + outcomeCode b * 2 ^ 56 + (bGen b + 1) % 256 * 2 ^ 40 + expect * 2 ^ 24)

/-- What a BWAIT for generation `g` finds (14 R350): `none` when it must wait, `some none` for a trap, else its status and CAUSE. -/
def bwaitOutcome (b g : Nat) (late : Bool) : Option (Option (Nat × Nat)) :=
  if bGen b = g then
    match bState b with
    | 1 => none
    | 2 => some (some (if late then 2 else if bShort b then 1 else 0, bCause b))
    | 3 => some (some (3, bCause b))
    | 4 => some (some (4, bCause b))
    | _ => some none
  else if bGen b = (g + 1) % 256 then some (some (bPrev b, 0))
  else some (some (5, 0))

/-- The word a BWAIT returns (14 R350). -/
def bwaitWord (g status cause : Nat) : Nat := g * 65536 + cause * 256 + status

/-- What a BWAIT returns once its generation has an outcome (14 R350). -/
def bwaitResult (b g : Nat) (late : Bool) : Option Nat :=
  match bwaitOutcome b g late with
  | some (some (st, cause)) => some (bwaitWord g st cause)
  | _ => none

/-- A WAIT command that waits at the pair for a generation receives what it returns (15 R362). -/
def Cmd.notified (e : Cmd) (c off b : Nat) : Cmd :=
  match e.reg with
  | some (w, o, g) => if w = c ∧ o = off ∧ e.got = none then { e with got := bwaitResult b g false } else e
  | none => e

/-- Notifies the BWAITs and WAITs registered at a pair of the outcome (14 R345 "waiters released", R350). -/
def State.notifyWaiters (s : State) (c off b : Nat) : State :=
  { s with
    queues := tmap (fun _ (q : Queue) => { q with cmds := tmap (fun _ (e : Cmd) => e.notified c off b) q.cmds }) s.queues
    cores := tmap (fun _ x => { x with bwait := x.bwait.map (fun r =>
      if r.owner = c ∧ r.off = off ∧ r.result = none then
        { r with result := (bwaitResult b r.gen r.late).map (fun v => (v, s.ptc)) } else r) }) s.cores }

/-- Writes BCTL, arming or disarming the pair by its STATE; leaving ARMED releases the waiters. -/
def State.setBctl (s : State) (c off v : Nat) : State :=
  let s1 := (s.accPut c off 8 v).modSeat c (fun x => { x with
    armed := if bState v = 1 then addOnce x.armed off else x.armed.filter (fun o => o != off) })
  if bState (s.bctl c off) = 1 ∧ bState v ≠ 1 then s1.notifyWaiters c off v else s1

/-- The barrier record of virtual barrier `n` of a member. -/
def Member.bar (m : Member) (n : Nat) : BarRec := tgetD m.bars n {}

/-- The map entry of barrier `n` in context `x` (14 R341), from memory: entry at CDESC + 0x100 + 8n (16 R375). -/
def State.mapMem (s : State) (d x n : Nat) : Nat :=
  leNat (s.homeRead d { tgt := 0, pa := (s.ctx x).cdesc + 0x100 + 8 * n, key := s.key0, scope := 3 } 8)

/-- The map entry as a party on die `d` reads it: through the die's map cache, which misses read from memory (16 R375). -/
def State.mapEntry (s : State) (d x n : Nat) : Nat × State :=
  match tget (s.die d).maps (x * 256 + n) with
  | some e => (e, s)
  | none =>
    let e := s.mapMem d x n
    (e, s.modDie d (fun y => { y with maps := tset y.maps (x * 256 + n) e }))

/-- Checks 1 and 2 of R347: the pair that a map entry names for party `c` in context `x`, or the cause. -/
def State.barrierPlace (s : State) (c x e : Nat) : Except Nat (Nat × Nat) :=
  if bit e 32 = false ∨ e / 2 ^ 33 ≠ 0 ∨ bit e 31 then .error 0x81
  else
    -- a sequencer acts through the map of the context SEQCTX names (16 R499); its address is that context's
    match s.accPlace (if isSeq c then 0 else c) x (e % 2 ^ 32) with
    | .error t => .error t
    | .ok (w, off) => if off % 16 = 0 then .ok (w, off) else .error 0x13

/-- Whether core `w` runs, holds or is loaded with context `x`. -/
def State.hasCtx (s : State) (w x : Nat) : Bool := (s.core w).status != .free && (s.core w).ctx == x

/-- One anonymous arrival at virtual barrier `n` of context `x` by the dispatcher (15 R362 SIGNAL, DONEB): the failing check, if any, and the state. A pair
that no core holds, because its context is saved or lost, is not reached. -/
def State.anonArrive (s : State) (x n : Nat) : Option Nat × State :=
  let (e, s1) := s.mapEntry 0 x n
  match s1.barrierPlace partyDispatcher x e with
  | .error t => (some t, s1)
  | .ok (w, off) =>
    if s1.hasCtx w x = false then (none, s1)
    else if s1.reaches 0 (dieOf w) = false then (none, s1.errorRecord partyDispatcher x 10 (off / 64 * 64) (e % 2 ^ 32) 0)
    else
      let (v, dead, s2) := s1.pairRead partyDispatcher x w off
      let (b, _, bad) := bArrive v dead s2.ptc
      if bad then (some 0x83, s2) else (none, s2.setBctl w off b)

/-- Applies `f` to BCTL of the pair of every virtual barrier whose record counts the member on core `c`, then clears C (and, when `clearA`, A);
an entry that maps no barrier is skipped (14 R353), and so is a pair that no core holds (log entry 31). -/
def State.leaveBarriers (s : State) (c : Nat) (f : BarRec → Nat → Nat → Nat) : State :=
  ((s.mem c).bars).foldl (fun s p =>
    if p.2.c then
      let x := s.ctxOn c
      let (e, s1) := s.mapEntry (dieOf c) x p.1
      let s2 := match s1.barrierPlace c x e with
        | .ok (w, off) =>
          if s1.hasCtx w x = false then s1
          else if s1.reaches (dieOf c) (dieOf w) = false then s1.errorRecord c x 10 (off / 64 * 64) (e % 2 ^ 32) 0
          else
            let (v, dead, s2) := s1.pairRead c x w off
            let b := f p.2 v dead
            if b = v then s2 else s2.setBctl w off b
        | .error _ => s1
      s2.modMem c (fun m => { m with bars := tset m.bars p.1 { p.2 with c := false } })
    else s) s

/-- The arrive-drops of END (14 R353). -/
def State.arriveDrops (s : State) (c : Nat) : State :=
  s.leaveBarriers c (fun r b dead => bArriveDrop b r.g dead s.ptc)

/-- The breaks of a member that halts with `cause` (14 R353). -/
def State.breakBarriers (s : State) (c cause : Nat) : State :=
  s.leaveBarriers c (fun r b _ => bBreak b r.g cause)

/-- Ends a port request with a result. -/
def State.portAnswer (s : State) (c result trap : Nat) : State :=
  s.modCore c (fun x => { x with port := x.port.map (fun r => { r with done := true, result := result, trap := trap }) })

/-- The members that GRP counts: the unretired members of the group of the member on core `c` (14 R348). -/
def State.groupCores (s : State) (c : Nat) : List Nat :=
  let g := s.group (s.mem c).group
  g.alive.map (s.memberCore g)

/-- The context through whose map a core's barrier operations act: a sequencer's through that of the context SEQCTX names (14 R341, 16 R499). -/
def State.barCtx (s : State) (c : Nat) : Nat := if isSeq c then (s.core c).seqctx else s.ctxOn c

/-- Performs a BINIT at its pair and sets the records of the members it counts (14 R344, R348). -/
def State.performBinit (s : State) (c n w off v : Nat) : State :=
  let cores := if bit v 17 then s.groupCores c else []
  let (old, _, s0) := s.pairRead c (s.barCtx c) w off
  match bInit old v (v % 65536 + cores.length) with
  | none => s0.portAnswer c 1 0
  | some b =>
    let s1 := (s0.setBctl w off b).accPut w (off + 8) 8 (2 ^ 64 - 1)
    let s2 := cores.foldl (fun s k => s.modMem k (fun m => { m with bars := tset m.bars n { c := true, a := false, l := (m.bar n).l, g := bGen b } })) s1
    s2.portAnswer c 0 0

/-- Performs an arrival by BARV or BDROP and writes the member's record, whatever STATE it finds (14 R344, R349). -/
def State.performArrival (s : State) (c n w off : Nat) (barv : Bool) : State :=
  let (old, dead, s) := s.pairRead c (s.barCtx c) w off
  let (b, late, bad) := bArrive old dead s.ptc
  let r : BarRec := if barv then { c := false, a := true, l := late, g := bGen old }
    else { c := false, a := false, l := ((s.mem c).bar n).l, g := ((s.mem c).bar n).g }
  let s1 := s.modMem c (fun m => { m with bars := tset m.bars n r })
  if bad then s1.portAnswer c 0 0x83 else (s1.setBctl w off b).portAnswer c 0 0

/-- A request to a core whose die does not answer completes as an uncorrectable error (17 R409): its reads give zeros, so a barrier pair reads FREE, its writes
are discarded, and an error record is written. -/
def State.portMiss (s : State) (c : Nat) (r : PortReq) : State :=
  let s1 := s.errorRecord c (s.ctxOn c) 10 (r.off / 64 * 64) r.addr 0
  match r.op with
  | .atomic _ _ _ _ => s1.portAnswer c 0 0
  | .binit _ _ => s1.portAnswer c 0 0
  | .binval => s1.portAnswer c 0 0
  | .bwait (some g) late =>
    match bwaitResult 0 g late with
    | some v => s1.portAnswer c v 0
    | none => s1.portAnswer c 0 0x83
  | _ => s1.portAnswer c 0 0x83

/-- PORT_OPERATION (10 R266): the owning port performs the request of core `c` as one indivisible operation. -/
def State.performPort (s : State) (c : Nat) : State :=
  match (s.core c).port with
  | none => s
  | some r =>
    if r.done then s
    else if s.reaches (dieOf c) (dieOf r.owner) = false then s.portMiss c r
    else
      let w := r.owner
      let off := r.off
      match r.op with
      | .atomic op t b k =>
        let n := atomicWidth t / 8
        if (s.seat w).isArmed off n then s.portAnswer c 0 0x80
        else
          let (old, s1) := s.portReadAt c (s.xctx c) r.addr w off n
          (s1.accPut w off n (atomicNew op t old b k)).portAnswer c old 0
      | .binit v _ => s.performBinit c r.bar w off v
      | .barv => s.performArrival c r.bar w off true
      | .bdrop => s.performArrival c r.bar w off false
      | .binval =>
        let (b, _, s) := s.pairRead c (s.barCtx c) w off
        (s.setBctl w off (bInval b)).portAnswer c 0 0
      | .btime v =>
        let (b, _, s) := s.pairRead c (s.barCtx c) w off
        if bState b = 1 then ((s.accPut w (off + 8) 8 v).setBctl w off (bSettle b v s.ptc)).portAnswer c 0 0
        else s.portAnswer c 0 0x83
      | .bwait g late =>
        let (b, _, s) := s.pairRead c (s.barCtx c) w off
        let gen := g.getD (bGen b)
        if g = none ∧ (bState b = 0 ∨ 4 < bState b) then s.portAnswer c 0 0x83
        else
          match bwaitOutcome b gen late with
          | none => s.modCore c (fun x => { x with port := none, bwait := some { owner := w, off := off, gen := gen, late := late, bar := r.bar } })
          | some none => s.portAnswer c 0 0x83
          | some (some (st, cause)) => s.portAnswer c (bwaitWord gen st cause) 0

/-- BARRIER_DEADLINE (14 R346): the port of core `c` completes the ARMED pair at `off` whose condition holds through PTC. -/
def execBarrierDeadline (c off : Nat) (s : State) : Out :=
  if (s.seat c).armed.contains off then
    let (v, dead, s1) := s.pairRead c (s.ctxOn c) c off
    let b := bSettle v dead s.ptc
    .next (if b = v then s1 else s1.setBctl c off b)
  else .next s

/-- PORT_OPERATION (10 R266). -/
def execPortOperation (c : Nat) (s : State) : Out := .next (s.performPort c)

end Sys2Proof.Machine
end

