-- ==== Sys2Proof/Machine/Journal.lean ====
section
/-! DEFINITION. The journal of a queue (15 R369), the end of a command, the release of slots (R364) and the queue's state (R359). -/

namespace Sys2Proof.Machine

/-- Slots of a queue and entries of its journal (R358). -/
def Queue.size (q : Queue) : Nat := 2 ^ (q.sz + 6)
def Queue.jsize (q : Queue) : Nat := 2 ^ (q.jsz + 6)

/-- A field of `n` bytes of a command (R360, R361). -/
def Cmd.f (e : Cmd) (o n : Nat) : Nat := leNat ((e.bytes.drop o).take n)
def Cmd.kind (e : Cmd) : Nat := e.f 0 1
def Cmd.ovl (e : Cmd) : Bool := bit (e.f 1 1) 0
def Cmd.irq (e : Cmd) : Bool := bit (e.f 1 1) 1

/-- COMPLETED or FAULTED. -/
def Cmd.isFinal (e : Cmd) : Bool :=
  match e.state with
  | .completed => true | .faulted => true | _ => false

/-- Final, or discarded by a RESET or a REWIND, which counts as final (R359). -/
def Cmd.isOver (e : Cmd) : Bool := e.isFinal || e.state == .dropped

/-- STATE of a journal entry (R369); a discarded command's entry stays ACCEPTED. -/
def Cmd.stateCode (e : Cmd) : Nat :=
  match e.state with
  | .accepted => 1 | .chosen => 1 | .dropped => 1 | .started => 2 | .completed => 3 | .faulted => 4

/-- Byte 7 of a journal entry. -/
def Cmd.byte7 (e : Cmd) : Nat := e.stateCode + 8 * b2n e.rearm + 16 * b2n e.late + 32 * b2n e.replay

/-- DSTART and DEND (R369). -/
def Cmd.dstart (e : Cmd) : Nat := match e.state with
  | .started => min (e.tstart - e.tacc) 0xFFFFFFFF
  | .completed => min (e.tstart - e.tacc) 0xFFFFFFFF
  | .faulted => min (e.tstart - e.tacc) 0xFFFFFFFF
  | _ => 0
def Cmd.dend (e : Cmd) : Nat := if e.isFinal then min (e.tend - e.tstart) 0xFFFFFFFF else 0

/-- STARTED and not final. -/
def Cmd.runs (e : Cmd) : Bool := e.state == .started

/-- RUN of QSTAT (R358). -/
def Queue.run (q : Queue) : Bool := q.cmds.any (fun p => p.2.runs)

/-- Bytes 0 to 7 and 8 to 31 of the journal entry of command `e` with sequence number `n` (R369). -/
def Queue.entryHead (q : Queue) (n : Nat) (e : Cmd) : List Byte :=
  leBytes 4 n ++ leBytes 2 (e.slot % q.size) ++ leBytes 1 e.kind ++ leBytes 1 e.byte7
def entryBody (e : Cmd) : List Byte :=
  leBytes 4 (e.f 4 4) ++ leBytes 4 (if e.state = .faulted then e.cause * 2 ^ 24 + e.info % 2 ^ 24 else e.info)
    ++ leBytes 8 e.tacc ++ leBytes 4 e.dstart ++ leBytes 4 e.dend

/-- A command event (R372): CODE is byte 7 of the journal entry. -/
def State.commandEvent (s : State) (c q code n : Nat) : State :=
  s.postRecord c (eventBytes 2 code partyDispatcher q s.ptc (n % 2 ^ 32))

/-- A queue fault that no command caused: a command event with no journal byte (R359, R372). -/
def State.queueFault (s : State) (q cause : Nat) : State :=
  (s.modQueue q (fun x => { x with state := .faulted, cause := cause })).commandEvent (s.queue q).ctx q 0 0

/-- A write of the journal fails (R357): the queue is FAULTED, acceptance stops until RESET, and what has STARTED runs on unrecorded. -/
def Queue.journalLost (q : Queue) (cause : Nat) : Queue :=
  { q with state := .faulted, cause := cause, halted := true, cmds := tmap (fun _ (e : Cmd) => { e with mute := e.mute || e.runs }) q.cmds }

/-- Writes a command's journal entry in the supervisor context, bytes 8 to 31 first (R357, R369), and restarts the watchdog (R371); says whether its page
translates. -/
def State.journalTry (s : State) (q n : Nat) : Bool × State :=
  let Q := s.queue q
  let e := tgetD Q.cmds n {}
  let s0 := s.modQueue q (fun x => { x with dog := 0 })
  match s0.supervisor with
  | none => (false, s0.modQueue q (fun x => x.journalLost 0x20))
  | some v =>
    match s0.translate partyDispatcher v (Q.jbase + 32 * (n % Q.jsize)) .write false with
    | (.error t, s1) => (false, (s1.modQueue q (fun x => x.journalLost t.cause)).commandEvent v q e.byte7 n)
    | (.ok l, s1) =>
      let s2 := s1.noteUnreachable partyDispatcher v (Q.jbase + 32 * (n % Q.jsize)) l
      (true, (s2.systemWrite partyDispatcher (l.add 8) (entryBody e)).systemWrite partyDispatcher l (Q.entryHead n e))

/-- Writes a command's journal entry, unless the command has outlived a failed write. -/
def State.journal (s : State) (q n : Nat) : State :=
  if (tgetD (s.queue q).cmds n {}).mute then s.modQueue q (fun x => { x with dog := 0 }) else (s.journalTry q n).2

/-- Changes command `n` of queue `q`. -/
def State.modCmd (s : State) (q n : Nat) (f : Cmd → Cmd) : State :=
  s.modQueue q (fun x => { x with cmds := tset x.cmds n (f (tgetD x.cmds n {})) })

/-- How far count `a` lies above count `b` (free-running 32-bit counts, R356). -/
def countSub (a b : Nat) : Nat := (a + 2 ^ 32 - b % 2 ^ 32) % 2 ^ 32

/-- A COND that can still re-arm over slot count `r` (R364, R368): it is undecided, or re-armed and its slot not yet accepted again. -/
def Queue.mayRearm (q : Queue) (r : Nat) (e : Cmd) : Bool :=
  e.kind == 7 && e.state != .dropped && decide (countSub e.slot r ≤ e.f 20 2)
    && (!e.isFinal || (e.rearm && decide (countSub e.slot q.accept < 2 ^ 31)))

/-- The latest command accepted at slot count `r`. -/
def Queue.latestAt (q : Queue) (r : Nat) : Option Cmd := ((q.cmds.filter (fun p => p.2.slot == r)).getLast?).map (·.2)

/-- RELEASED passes the released slots that no COND can still re-arm over (R364): neither an accepted one nor one of `ahead`, the slot count and BACK of those that
are committed and not accepted yet. -/
def Queue.release (fuel : Nat) (ahead : List (Nat × Nat)) (q : Queue) : Queue :=
  match fuel with
  | 0 => q
  | k + 1 =>
    if q.released = q.accept then q
    else
      match q.latestAt q.released with
      | none => q
      | some e =>
        if (e.state = .completed ∨ e.rel = true) ∧ q.cmds.all (fun p => !q.mayRearm q.released p.2) = true
            ∧ ahead.all (fun c => decide (c.2 < countSub c.1 q.released)) = true then
          Queue.release k ahead { q with released := (q.released + 1) % 2 ^ 32 }
        else q

/-- ACTIVE becomes IDLE when everything committed is accepted and final (R359). -/
def Queue.settle (ahead : List (Nat × Nat)) (q : Queue) : Queue :=
  let q1 := q.release (q.size + 1) ahead
  if q1.state = .active ∧ q1.accept = q1.commit ∧ q1.cmds.all (fun p => p.2.isOver) = true then { q1 with state := .idle } else q1

/-- The bytes of the slot at a count, as they stand. -/
def State.cmdBytesAt (s : State) (Q : Queue) (count : Nat) : List Byte :=
  match (s.translate partyDispatcher Q.ctx (Q.qbase + 64 * (count % Q.size)) .read false).1 with
  | .ok l => s.homeRead 0 l 64
  | .error _ => []

/-- The CONDs of a queue that are committed and not accepted yet, each with its slot count and BACK (R364, R368; DEDUCED, log entry 48). -/
def State.condsAhead (s : State) (q : Nat) : List (Nat × Nat) :=
  let Q := s.queue q
  (List.range (min (countSub Q.commit Q.accept) Q.size)).filterMap (fun i =>
    let e : Cmd := { bytes := s.cmdBytesAt Q (Q.accept + i) }
    if e.kind = 7 ∧ e.bytes ≠ [] then some ((Q.accept + i) % 2 ^ 32, e.f 20 2) else none)

/-- The queue settles. -/
def State.settleQueue (s : State) (q : Nat) : State := s.modQueue q (Queue.settle (s.condsAhead q))

/-- The candidate among commands in order (R364), `prev` being the one before: the first that is accepted, when nothing before it holds it back. One with OVL = 0
waits until no command before it runs, so that every access of theirs comes first (R365). -/
def candidateIn (l : List (Nat × Cmd)) (prev : Option Cmd) (runs : Bool) : Option (Nat × Cmd) :=
  match l with
  | [] => none
  | (n, e) :: r =>
    match e.state with
    | .dropped => candidateIn r prev runs
    | .chosen => none
    | .accepted =>
      match prev with
      | none => some (n, e)
      | some p => if (e.ovl = true ∧ (p.isFinal || p.runs) = true) ∨ runs = false then some (n, e) else none
    | _ => candidateIn r (some e) (runs || e.runs)

/-- Every queue's commands wait while C-die 0 is QUARANTINED (17 R417). -/
def State.queuesWait (s : State) : Bool := (s.die 0).state == .quarantined

/-- Whether commands of queue `q` may start (R364): the queue is ACTIVE, its context runs, and C-die 0 is not QUARANTINED. -/
def State.mayStart (s : State) (q : Nat) : Bool := !s.queuesWait && (s.queue q).state == .active && (s.ctx (s.queue q).ctx).state == .running

/-- The candidate of queue `q` (R364). -/
def State.candidate (s : State) (q : Nat) : Option (Nat × Cmd) := if s.mayStart q then candidateIn (s.queue q).cmds none false else none

/-- Notes since when each queue's candidate has been one (R366 step 3). -/
def State.noteCandidates (s : State) : State :=
  s.queues.foldl (fun s p =>
    let k := (s.candidate p.1).map (fun c => c.1)
    s.modQueue p.1 (fun Q => { Q with cmds := tmap (fun n (e : Cmd) => { e with age := if some n = k then (if e.age = 0 then s.ptc + 1 else e.age) else 0 }) Q.cmds })) s

/-- A command becomes COMPLETED or FAULTED (R359, R369, R372). -/
def State.finalize (s : State) (q n : Nat) (faulted : Bool) (cause info : Nat) : State :=
  let s1 := s.modCmd q n (fun e => { e with
    state := if faulted then .faulted else .completed, cause := if faulted then cause else 0, info := info, tend := s.ptc })
  let s2 := s1.journal q n
  let s3 := if faulted then s2.modQueue q (fun x => match x.state with
    | .active => { x with state := .faulted, cause := cause }
    | .paused => { x with state := .faulted, cause := cause }
    | _ => x) else s2
  let e := tgetD (s3.queue q).cmds n {}
  let s4 := if faulted ∨ e.irq = true then s3.commandEvent (s3.queue q).ctx q e.byte7 n else s3
  (s4.settleQueue q).noteCandidates

/-- A command becomes STARTED, which its journal entry says before it has any effect (R364); when that cannot be written the command has not started (R357). -/
def State.start (s : State) (q n : Nat) : Bool × State :=
  let r := (s.modCmd q n (fun e => { e with state := .started, tstart := s.ptc })).journalTry q n
  if r.1 then (true, r.2.noteCandidates)
  else (false, (r.2.modCmd q n (fun e => { e with state := (tgetD (s.queue q).cmds n {}).state, mute := false })).noteCandidates)

/-- The command that the dispatcher has chosen or that is STARTED, of kind `k`: the oldest of the queue. -/
def State.cmdOf (s : State) (q k : Nat) : Option (Nat × Cmd) :=
  (s.queue q).cmds.find? (fun p => p.2.kind == k && (p.2.state == .chosen || p.2.state == .started))

end Sys2Proof.Machine
end

