-- ==== Sys2Proof/Machine/Group.lean ====
section
/-! DEFINITION. Groups and members: who stands where, halting and retiring a member, and the end of a group (06 R153 to R158, 16 R388). -/

namespace Sys2Proof.Machine

/-- The registers that describe a member (06 R157): GSIZE, CORE, DIE, RANK. A sequencer has no core number on its die (01 R17): CORE is its package number modulo 64
(DESIGN CHOICE, log entry 44). -/
def State.mrank (s : State) (c : Nat) : Nat :=
  let m := s.mem c
  let g := s.group m.group
  g.d * g.c * 2 ^ 32 + coreOnDie c % 64 * 2 ^ 24 + dieOf c * 2 ^ 16 + m.rank

/-- Whether a member is halted. -/
def Member.isHalted (m : Member) : Bool :=
  match m.status with
  | .halted _ => true | .running => false

/-- A core's place in a context, by die offset and core number: o · 64 + n. -/
def State.seatNo (s : State) (x c : Nat) : Nat := ((dieOf c + 8 - (s.ctx x).ad) % 8) * 64 + coreOnDie c

/-- The image that context `x` has for core `c`: in a cellar frame of the core, or parked (16 R382). -/
def State.imageOf (s : State) (x c : Nat) : Option Image :=
  match (s.die (dieOf c)).frames.find? (fun f => f.1 / 2 == coreOnDie c && f.2.ctx == x) with
  | some f => some f.2
  | none => tget (s.ctx x).parked (s.seatNo x c)

/-- The member of rank `r` of a group, where it stands: on its core, or in its core's image. -/
def State.rankMember (s : State) (g : Group) (r : Nat) : Member :=
  let c := s.memberCore g r
  if isSeq c ∨ s.hasCtx c g.ctx = true then s.mem c else ((s.imageOf g.ctx c).map (fun m => m.seat.mem)).getD {}

/-- The ranks of the unretired members of a group that are halted, and those that are not. -/
def State.haltedOf (s : State) (g : Group) : List Nat := g.alive.filter (fun r => (s.rankMember g r).isHalted)
def State.liveOf (s : State) (g : Group) : List Nat := g.alive.filter (fun r => !(s.rankMember g r).isHalted)

/-- HOLD of the cores of a group, which they take when their dies resume (16 R379): that of its first rank's. -/
def State.holdOf (s : State) (g : Group) : Bool := match g.alive with
  | [] => false
  | r :: _ => bit (s.core (s.memberCore g r)).cfg 2

/-- Whether the members of the group of the member on core `c` run: not while the group forms, loads or is suspended (06 R158). -/
def State.groupRuns (s : State) (c : Nat) : Bool := match (s.group (s.mem c).group).state with
  | .running => true
  | .partly => true
  | .faulted => true
  | _ => false

/-- What a member leaves when it retires: its scalar registers and CSRs stand as they stood, until another member starts there; its tokens, mailboxes, tiles, taps,
masks, rings and queues are discarded (05 R150, 07 R195, 09 R218). -/
def Member.retired (m : Member) : Member :=
  { s := m.s, lc := m.lc, trips := m.trips, fpmode := m.fpmode, scmode := m.scmode, vshape := m.vshape, kstep := m.kstep, cstep := m.cstep
    strictmiss := m.strictmiss, trapcause := m.trapcause, trapline := m.trapline, traplane := m.traplane }

/-- A seat whose member has retired. -/
def Seat.bare (x : Seat) : Seat := { x with present := false, mem := x.mem.retired, copies := [] }

/-- A member leaves its core (06 R158); its copies go with it, and a sequencer becomes free. -/
def State.clearMember (s : State) (c : Nat) : State :=
  s.modCore c (fun x => { x with seat := x.seat.bare, port := none, bwait := none, status := if isSeq c then .free else x.status })

/-- An image without its member. -/
def Image.bare (m : Image) : Image := { m with seat := m.seat.bare }

/-- A member leaves the image that its context `x` has for core `c`. -/
def State.clearImage (s : State) (x c : Nat) : State :=
  (s.modDie (dieOf c) (fun d => { d with frames := tmap (fun k (m : Image) => if k / 2 = coreOnDie c ∧ m.ctx = x then m.bare else m) d.frames })).modCtx x
    (fun y => { y with parked := tmap (fun k (m : Image) => if k = s.seatNo x c then m.bare else m) y.parked })

/-- The member of rank `r` of group `g` retires. -/
def State.retireRank (s : State) (g r : Nat) : State :=
  let G := s.group g
  let c := s.memberCore G r
  (if isSeq c ∨ s.hasCtx c G.ctx = true then s.clearMember c else s.clearImage G.ctx c).modGroup g (fun x => { x with alive := x.alive.filter (fun k => k != r) })

/-- Whether a core holds the text of kernel-table entry `k` of context `x`. -/
def State.textHeld (s : State) (x k : Nat) : Bool := s.cores.any (fun p => p.2.text == (x + 1, k))

/-- A kernel-table entry that no group uses any longer becomes RESIDENT, or VERIFIED where no core holds its text (05 R116); one whose image had another
DIGEST at a later LAUNCH is retired (R118). -/
def State.kernelIdle (s : State) (x k : Nat) : State :=
  if s.groups.any (fun p => p.2.ctx == x && p.2.kern == k) then s
  else s.modCtx x (fun c => { c with kerns := match tget c.kerns k with
    | some e => if e.old then tdel c.kerns k else tset c.kerns k { e with state := if s.textHeld x k then .resident else .verified, last := s.ptc }
    | none => c.kerns })

/-- RESIDENT kernel-table entries whose text no core holds any longer are VERIFIED (05 R116). -/
def State.refreshKernels (s : State) : State :=
  { s with ctxs := tmap (fun x (c : Ctx) => { c with kerns := tmap (fun k (e : KernEnt) =>
      if e.state = .resident ∧ s.textHeld x k = false then { e with state := .verified } else e) c.kerns }) s.ctxs }

/-- A group ends (06 R158): RETIRED, the LAUNCH COMPLETED or FAULTED with the cause, and the anonymous arrival at DONEB when DBE = 1
(15 R362), if its members ever started; an entry that maps no pair is passed over. -/
def State.endGroup (s : State) (g : Nat) (faulted : Bool) (cause : Nat) : State :=
  let G := s.group g
  let e := tgetD (s.queue G.queue).cmds G.jidx {}
  let s1 := ({ s with groups := tdel s.groups g }).kernelIdle G.ctx G.kern
  let s2 := if G.started ∧ bit (e.f 50 1) 0 = true then (s1.anonArrive G.ctx (e.f 49 1)).2 else s1
  if e.isFinal then s2 else s2.finalize G.queue G.jidx faulted cause 0

/-- The group stands in state `st` (06 R158); while it is suspended or loads its text again, that is the state to which it returns. -/
def Group.become (g : Group) (st : GroupState) : Group :=
  match g.state with
  | .suspended => { g with prev := st }
  | .forming => { g with prev := st }
  | .loading => { g with prev := st, state := if g.alive.all (fun r => g.loaded.contains r) then st else .loading }
  | _ => { g with state := st }

/-- The writes of a group's members, those of halted ones that retire among them, are performed at SYSTEM scope before the LAUNCH's entry becomes COMPLETED or
FAULTED (15 R365; DEDUCED, log entry 48). -/
def State.flushGroup (s : State) (G : Group) : State :=
  (List.range (G.d * G.c)).foldl (fun s r =>
    let c := s.memberCore G r
    (if G.alive.contains r ∧ s.hasCtx c G.ctx = true then s.release c true else s).flush c) s

/-- Whether a collective instance of a group has begun and is not delivered, or has been issued by every member of its team and will begin: one whose members
halt still begins and is delivered (18 R423). -/
def State.instsDue (s : State) (G : Group) : Bool :=
  G.insts != [] || (List.range G.c).any (fun team =>
    let rs := (List.range G.d).map (fun d => d * G.c + team)
    rs.all (fun r => G.alive.contains r && s.hasCtx (s.memberCore G r) G.ctx)
      && (List.range 8).any (fun ch => rs.all (fun r => let x := tgetD (s.rankMember G r).chans ch {}; decide (x.delivered < x.issued))))

/-- What becomes of a group after a member halts, resumes or retires (06 R158, 16 R388); its halted members stay while instances of theirs are under way. -/
def State.checkGroup (s : State) (g : Nat) : State :=
  match tget s.groups g with
  | none => s
  | some G =>
    let halted := s.haltedOf G
    let live := s.liveOf G
    if G.alive = [] then (s.flushGroup G).endGroup g (decide (G.cause ≠ 0)) G.cause
    else if halted ≠ [] ∧ live = [] ∧ G.hold = false ∧ s.instsDue G = false then
      (halted.foldl (fun s r => s.retireRank g r) (s.flushGroup G)).endGroup g true G.cause
    else if halted ≠ [] ∨ G.lost = true then s.modGroup g (fun x => x.become .faulted)
    else
      s.modGroup g (fun x => { x with cause := 0 }.become (if x.alive.length = x.d * x.c then .running else .partly))

/-- A member retires at END or on RESUME.end (05 R150, 16 R397); `lost` marks the end of a halted member. -/
def State.retire (s : State) (c : Nat) (lost : Bool) : State :=
  let m := s.mem c
  let s1 := (s.retireRank m.group m.rank).modGroup m.group (fun x => { x with lost := x.lost || lost })
  s1.checkGroup m.group

/-- The address of a member's line `n`: the text stands at the image address plus TEXTOFF (04 R106). -/
def Member.lineAddr (m : Member) (n : Nat) : Nat := m.kern.image + m.kern.textoff + 32 * n

/-- TRAPCAUSE of a trap (16 R389). -/
def Trap.value (t : Trap) (hnd : Bool) : Nat :=
  t.cause + t.code % 65536 * 2 ^ 16 + t.exc % 64 * 2 ^ 32 + t.wkind % 4 * 2 ^ 42 + t.wlvl % 8 * 2 ^ 44 + b2n hnd * 2 ^ 47

/-- TRAPLANE (03 R96) of the trapped instruction `e` of engine `g`; `none` is a fetch trap. -/
def trapLane (g : Nat) (e : Option Entry) : Nat :=
  match e with
  | none => 0
  | some e => 256 * b2n e.issued + 128 * b2n e.pfx.isSome + 16 * g + e.lane

/-- PROG of a trap record (16 R389): K-slice, scan step, or sectors moved. -/
def Member.progOf (m : Member) (g : Nat) (t : Trap) (e : Option Entry) : Nat :=
  match e with
  | none => 0
  | some e =>
    if e.issued = false then 0
    else if t.prog ≠ 0 then t.prog
    else if g = 3 then bits m.kstep 9 0 else if g = 4 then bits m.cstep 6 0
    else if 5 ≤ g then e.moved else 0

/-- The 64 bytes of a trap record (15 R372, 16 R389). -/
def State.trapRecord (s : State) (c g line : Nat) (t : Trap) (e : Option Entry) : List Byte :=
  let m := s.mem c
  leBytes 2 1 ++ leBytes 2 t.cause ++ leBytes 2 c ++ leBytes 2 0 ++ leBytes 8 s.ptc ++ leBytes 8 t.named
    ++ leBytes 8 m.trapcause ++ leBytes 8 (m.lineAddr line)
    ++ leBytes 8 (if t.cause / 16 = 1 ∨ t.cause / 16 = 2 then t.taddr else 0)
    ++ leBytes 2 m.traplane ++ leBytes 2 m.rank ++ leBytes 4 (m.progOf g t e)
    ++ leBytes 4 (((e.map (fun e => (e.lanes.headD 0).toNat))).getD 0)
    ++ leBytes 1 ((e.map (fun e => e.stamp.rrb)).getD 0) ++ leBytes 1 ((e.map (fun e => e.stamp.fidx)).getD 0) ++ leBytes 2 0

/-- The context whose event ring a core's records go to (16 R377). -/
def State.eventCtx (s : State) (c : Nat) : Nat := s.xctx c

/-- A member halts (16 R388): its record goes to the event ring, its group becomes FAULTED, the barriers that count it break. -/
def State.haltMember (s : State) (c g line : Nat) (t : Trap) (e : Option Entry) : State :=
  let G := (s.mem c).group
  let s1 := s.modMem c (fun m => { m with status := .halted t.cause })
  let s2 := s1.postRecord (s.eventCtx c) (s1.trapRecord c g line t e)
  let s3 := s2.modGroup G (fun x => { x.become .faulted with cause := if x.cause = 0 then t.cause else x.cause })
  (s3.breakBarriers c t.cause).checkGroup G

/-- What EnterHandler does (16 R390): queues and fetch state set aside, HND = 1, fetch at line HL, empty loop stack, RRB 0, g 0xFF, untagged. -/
def Member.enterHandler (m : Member) (g cause hl : Nat) : Member :=
  { m with
    aside := some { queues := m.queues, stuck := m.stuck, fetch := m.fetch, eng := g, cause := cause, seq0 := m.nextSeq }
    queues := [], stuck := [], fetchTrap := none, trapcause := setBits m.trapcause 47 47 1
    fetch := { next := hl } }

/-- Causes that an in-image handler may take (16 R388): classes 1, 3 and 4, and SOFTWARE. -/
def eligible (cause : Nat) : Bool := cause / 16 == 1 || cause / 16 == 3 || cause / 16 == 4 || cause == 0x90

/-- The trap that is delivered: a fetch trap, else the one that was raised first, with its engine and instruction. -/
def State.pendingTrap (s : State) (c : Nat) : Option (Nat × Nat × Trap × Option Entry) :=
  let m := s.mem c
  match m.fetchTrap with
  | some (cause, line) => some (0, line, { cause := cause }, none)
  | none =>
    match m.stuck with
    | [] => none
    | (g, t) :: _ =>
      let e := if t.copy = 0 then (m.q g).headD {} else (tgetD (s.seat c).copies (t.copy - 1) {}).ent
      some (g, e.line, t, some e)

/-- A member enters its handler; a BWAIT that waited gives up its place at the port (10 R266, 14 R355), and presents its request again after the return. -/
def State.enterHandler (s : State) (c g cause hl : Nat) : State :=
  s.modCore c (fun x => { x with bwait := none, seat := { x.seat with mem := x.seat.mem.enterHandler g cause hl } })

/-- Deliver (16 R388): TRAPCAUSE, TRAPLINE and TRAPLANE take the trap's values; then the handler is entered, or the member halts, as a sequencer's always does
(R398). -/
def State.deliver (s : State) (c : Nat) : State :=
  match s.pendingTrap c with
  | none => s
  | some (g, line, t, e) =>
    let hnd := (s.mem c).aside.isSome
    let s1 := s.modMem c (fun m => { m with
      trapcause := t.value hnd, trapline := m.lineAddr line, traplane := trapLane g e })
    match (s1.mem c).kern.hl with
    | some hl =>
      if eligible t.cause ∧ bit (s1.mem c).kern.hmask (t.cause / 16) = true ∧ hnd = false ∧ isSeq c = false then s1.enterHandler c g t.cause hl
      else s1.haltMember c g line t e
    | none => s1.haltMember c g line t e

/-- TRAP_DELIVERY (16 R388), after the engines have drained (03 R94), which `step` judges. -/
def execTrapDelivery (c : Nat) (s : State) : Out :=
  match (s.mem c).status with
  | .running => .next (s.deliver c)
  | .halted _ => .next s

end Sys2Proof.Machine
end

