-- ==== Sys2Proof/Machine/Fetch.lean ====
section
/-! DEFINITION. The fetch unit (03 R63 to R68, R90 to R94; 05 R132 to R140): lines, dealing, hardware loops, stage tags and stamps. -/

namespace Sys2Proof.Machine

/-- The engine of a nibble code (03 R66). -/
def engOf (n : Nat) : Option Eng :=
  match n with
  | 1 => some .ce | 2 => some .ve | 3 => some .me | 4 => some .se | 5 => some .xl | 6 => some .xs | 7 => some .ke | _ => none

/-- The lanes of line `n` as the core's line cache holds it (03 R93, 05 R117). -/
def Core.line (x : Core) (n : Nat) : List Lane := tgetD x.lines n (List.replicate 8 0)

/-- The header of a line, its CLASS, and nibble `i` (03 R64). -/
def lineHeader (ls : List Lane) : Nat := (ls.headD 0).toNat
def lineClass (ls : List Lane) : Nat := lineHeader ls % 16
def nibble (ls : List Lane) (i : Nat) : Nat := lineHeader ls / 16 ^ i % 16

/-- Lanes 1 to 7 with number and nibble. -/
def numbered (ls : List Lane) : List (Nat × Nat × Lane) := [1, 2, 3, 4, 5, 6, 7].map (fun i => (i, nibble ls i, ls.getD i 0))

/-- An instruction in a line (03 R67): lane of its head, engine nibble, prefix, head and continuation lanes. -/
structure Dealt where
  lane : Nat
  eng : Nat
  pfx : Option Lane
  lanes : List Lane
  deriving DecidableEq, Repr

/-- The instructions of a line. -/
def parseLanes (l : List (Nat × Nat × Lane)) (p : Option Lane) : List Dealt :=
  match l with
  | [] => []
  | (i, n, w) :: r =>
    if n = 8 then parseLanes r (some w)
    else if 1 ≤ n ∧ n ≤ 7 then
      { lane := i, eng := n, pfx := p, lanes := w :: (r.takeWhile (fun x => x.2.1 == 9)).map (fun x => x.2.2) } :: parseLanes r none
    else parseLanes r none

/-- The opcode of an instruction in a line. -/
def Dealt.op (d : Dealt) : Nat := opOf (d.lanes.headD 0).toNat

/-- The fetch-control instructions (03 R91): B, BC, BZ, CALL, RET, JR, LOOP, LOOPX, END, HALT. -/
def isControl (g op : Nat) : Bool :=
  g == 1 && (decide (0x40 ≤ op ∧ op ≤ 0x45) || op == 0x48 || op == 0x49 || op == 0x66 || op == 0x67)
def Dealt.control (d : Dealt) : Bool := isControl d.eng d.op

/-- The instruction a CE instruction of a line decodes to; none when it fails a check of 03 R88, the reserved bits of its prefix included. -/
def Dealt.instr (d : Dealt) : Option Instr :=
  if d.eng = 1 ∧ (d.pfx.map (fun p => p.toNat)).getD 0 < 268435456 then decode? .ce d.lanes else none

/-- Which nibble of a line breaks the lane structure (03 R68 rows 3 and 4): a continuation after an empty lane or in lane 1, or a prefix
in lane 7 or before a lane that is no head. -/
def badLane (ls : List Lane) (i : Nat) : Bool :=
  (nibble ls i == 9 && (i == 1 || nibble ls (i - 1) == 0)) ||
  (nibble ls i == 8 && (i == 7 || !decide (1 ≤ nibble ls (i + 1) ∧ nibble ls (i + 1) ≤ 7)))

/-- The checks of a line before it is dealt (03 R68): the cause of the highest row that applies. -/
def checkLine (seq : Bool) (ls : List Lane) : Option Nat :=
  let is := [1, 2, 3, 4, 5, 6, 7]
  let ds := parseLanes (numbered ls) none
  if 2 ≤ lineClass ls then some 0x03
  else if is.any (fun i => decide (10 ≤ nibble ls i)) then some 0x02
  else if is.any (badLane ls) then some 0x02
  else if ds.any (fun d => decide (3 < d.lanes.length)) then some 0x02
  else if 1 < (ds.filter Dealt.control).length then some 0x02
  else if seq ∧ is.any (fun i => decide (2 ≤ nibble ls i ∧ nibble ls i ≤ 4)) = true then some 0x02
  else none

/-- LC of a level in fetch (05 R119). -/
def Member.lcOf (m : Member) (l : Nat) : Nat := (tgetD m.lc l 0).toNat

/-- Sets LC of a level. -/
def Member.setLc (m : Member) (l v : Nat) : Member := { m with lc := tset m.lc l (BitVec.ofNat 64 v) }

/-- The last run number of a loop: E, or E + S − 1 for a pipelined one (05 R136). -/
def Loop.lastRun (l : Loop) : Nat := if l.stages = 0 then l.e else l.e + l.stages - 1

/-- g for run `j` of a pipelined loop (05 R136). -/
def Loop.gOf (l : Loop) (j : Nat) : Nat :=
  (List.range 8).foldl (fun g s => g + b2n (decide (s < l.stages ∧ l.i + s ≤ j ∧ j ≤ l.e + s)) * 2 ^ s) 0

/-- Begins run `j` of a loop: LC, and g of a pipelined one. -/
def Member.beginRun (m : Member) (l : Loop) (j : Nat) : Member :=
  let m1 := m.setLc l.lvl j
  if l.stages = 0 then m1 else { m1 with fetch := { m1.fetch with g := l.gOf j } }

/-- A run of a pipelined loop ends: RRB falls by one (05 R136). -/
def Member.endRun (m : Member) (l : Loop) : Member :=
  if l.stages = 0 then m else { m with fetch := { m.fetch with rrb := (m.fetch.rrb + 15) % 16 } }

/-- Fetch passes sequentially beyond line `n`: back edges (05 R132), then the following line. -/
def Member.advanceIn (m : Member) (n : Nat) (ls : List Loop) : Member :=
  match ls with
  | [] => { m with fetch := { m.fetch with next := n + 1, loops := [] } }
  | l :: r =>
    if l.last ≠ n then { m with fetch := { m.fetch with next := n + 1, loops := l :: r } }
    else
      let m1 := m.endRun l
      let m2 := { m1 with fetch := { m1.fetch with tag := none } }
      if m.lcOf l.lvl < l.lastRun then
        let m3 := m2.beginRun l (m.lcOf l.lvl + 1)
        { m3 with fetch := { m3.fetch with next := l.first, loops := l :: r } }
      else m2.advanceIn n r

/-- `Member.advanceIn` with the member's loop stack. -/
def Member.advance (m : Member) (n : Nat) : Member := m.advanceIn n m.fetch.loops

/-- Fetch goes to line `t` by a transfer that pops the loops whose body `t` leaves (05 R133) when `pops`; lines are untagged after it. -/
def Member.goTo (m : Member) (t : Nat) (pops : Bool) : Member :=
  { m with fetch := { m.fetch with
    next := t, tag := none
    loops := if pops then m.fetch.loops.dropWhile (fun l => decide (t < l.first ∨ l.last < t)) else m.fetch.loops } }

/-- The check of a transfer's target line (03 R92): FETCH_RANGE outside the woven text, ILLEGAL_TARGET for a line of CLASS 0. -/
def State.targetCheck (s : State) (c : Nat) (t : Int) : Option Nat :=
  if t < 0 ∨ ((s.mem c).kern.textn : Int) ≤ t then some 0x06
  else if lineClass ((s.core c).line t.toNat) = 0 then some 0x05
  else none

/-- The line a branch of line `n` with offset field `o` of `w` bits names (03 R75, 05 R128). -/
def branchLine (n w o : Nat) : Int := (n : Int) + toSigned w o

/-- The stamp of an instruction dealt now under stage tag `tag` (05 R138 to R140). -/
def Member.stampFor (m : Member) (tag : Option Nat) : Stamp :=
  let lcs := (List.range 8).map (fun l => BitVec.ofNat 64 (m.lcOf l))
  let plvl := match m.fetch.loops.head? with
    | some p => if p.stages = 0 then none else some p.lvl
    | none => none
  let st : Stamp := { tag := tag, lcs := lcs, plvl := plvl }
  { rrb := m.fetch.rrb, tag := tag
    pred := match tag with
      | some t => bit m.fetch.g t
      | none => true
    lcs := lcs, plvl := plvl, fidx := (st.lcOf m.kern.fmtsel).toNat, g := m.fetch.g }

/-- A line's instructions enter their queues together (03 R90), with the number of the dealing. -/
def Member.deal (m : Member) (n : Nat) (st : Stamp) (ds : List Dealt) : Member :=
  match ds with
  | [] => m
  | d :: r =>
    let e : Entry := { lanes := d.lanes, pfx := d.pfx, line := n, lane := d.lane, seqNo := m.nextSeq, stamp := st }
    ({ m with queues := tset m.queues d.eng (m.q d.eng ++ [e]) } : Member).deal n st r

/-- Raises a fetch trap on line `n` (03 R68). -/
def Member.raiseFetch (m : Member) (cause n : Nat) : Member := { m with fetchTrap := some (cause, n) }

/-- The stage tag of a line: that of its STAGE, else the one that lasts (05 R137). -/
def lineTag (old : Option Nat) (ds : List Dealt) : Option Nat :=
  match ds.findSome? (fun d => match d.instr with
    | some (.stage n) => some n
    | some (.stageSet _ n) => some n
    | _ => none) with
  | some n => some n
  | none => old

/-- Whether fetch waits until the CE executes the instruction, which sets g or RRB for the lines after it (05 R137, R139). -/
def Dealt.sets (d : Dealt) : Bool :=
  match d.instr with
  | some (.stageSet _ _) => true
  | some (.rotb _ _) => true
  | _ => false

/-- Where fetch goes after dealing line `n` (03 R91): B and CALL with a good target are followed; END and HALT stop fetch; for the other
control instructions it waits until the CE executes them; else it goes on past the line, to the following one or by a back edge, once the CE has executed
every set-form STAGE and ROTB of the line. -/
def State.afterDeal (s : State) (c n : Nat) (m0 : Member) (ds : List Dealt) : Member :=
  let k := (ds.filter Dealt.sets).length
  let m : Member := { m0 with fetch := { m0.fetch with sets := k } }
  let wait : Member := { m with fetch := { m.fetch with waitCE := true } }
  match ds.find? Dealt.control with
  | some d =>
    if d.op = 0x66 ∨ d.op = 0x67 then { m with fetch := { m.fetch with stopped := true } }
    else
      match d.instr with
      | some (.b o) => if s.targetCheck c (branchLine n 19 o) = none then m.goTo (branchLine n 19 o).toNat true else wait
      | some (.call _ o) => if s.targetCheck c (branchLine n 19 o) = none then m.goTo (branchLine n 19 o).toNat false else wait
      | _ => wait
  | none =>
    if k = 0 then m.advance n else { m with fetch := { m.fetch with past := some n } }

/-- FETCH_TRAP conditions of 03 R68, R91, R92 and 05 R137 on line `n`: the cause. -/
def State.lineTrap (s : State) (c n : Nat) : Option Nat :=
  let m := s.mem c
  let ls := (s.core c).line n
  if m.kern.textn ≤ n then some 0x06
  else
    match checkLine (isSeq c) ls with
    | some x => some x
    | none =>
      let ds := parseLanes (numbered ls) none
      let ctl := ds.any Dealt.control
      if ctl ∧ (m.fetch.loops.head?.map (fun l => l.last)) = some n then some 0x02
      else if 1 < (ds.filter (fun d => d.eng == 1 && d.op == 0x4B)).length then some 0x02
      else if ctl ∧ (lineTag m.fetch.tag ds).isSome then some 0x02
      else none

/-- Whether fetch may deal on core `c` (03 R94, R95): a running member, no trap, not waiting or stopped, no stop of its context. -/
def State.mayFetch (s : State) (c : Nat) : Bool :=
  let x := s.core c
  let m := x.seat.mem
  x.seat.present && s.groupRuns c && x.status == .running && m.status == .running && m.stuck == [] && m.fetchTrap == none
    && !m.fetch.waitCE && m.fetch.sets == 0 && !m.fetch.stopped && !(m.yielded && (s.ctx x.ctx).stop.isSome)
    && !(match (s.ctx x.ctx).stop with
      | some p => p.atOnce
      | none => false)

/-- FETCH_LINE (03 R90): fetch reads the next line of core `c`, and deals it when every engine it names has room. -/
def State.fetchLine (s : State) (c : Nat) : State :=
  let m := s.mem c
  let n := m.fetch.next
  match s.lineTrap c n with
  | some cause => s.modMem c (fun m => m.raiseFetch cause n)
  | none =>
    let ds := parseLanes (numbered ((s.core c).line n)) none
    if [1, 2, 3, 4, 5, 6, 7].all (fun g => decide ((m.q g).length + (ds.filter (fun d => d.eng == g)).length ≤ 16)) then
      let tag := lineTag m.fetch.tag ds
      let m1 := m.deal n (m.stampFor tag) ds
      let m2 := { m1 with nextSeq := m1.nextSeq + 1, fetch := { m1.fetch with tag := tag } }
      s.modMem c (fun _ => s.afterDeal c n m2 ds)
    else s

/-- FETCH_LINE. -/
def execFetchLine (c : Nat) (s : State) : Out := .next (if s.mayFetch c then s.fetchLine c else s)

/-- Fetch stops waiting for the CE. -/
def Member.unwait (m : Member) : Member := { m with fetch := { m.fetch with waitCE := false } }

/-- The CE has executed one of the instructions that set g or RRB: after the last of its line fetch goes on past that line, unless the line's control
instruction decides. -/
def Member.setMade (m : Member) : Member :=
  let m1 : Member := { m with fetch := { m.fetch with sets := m.fetch.sets - 1 } }
  match m.fetch.past with
  | some n => if m.fetch.sets ≤ 1 then ({ m1 with fetch := { m1.fetch with past := none } } : Member).advance n else m1
  | none => m1

/-- What an issued instruction of engine `g` held is free again when it is skipped (DEDUCED, log entry 18): KSTEP or CSTEP reads 0 and the slots it was
reading or filling return to FILLED or FREE. -/
def Member.abandon (m : Member) (g : Nat) : Member :=
  { m with
    kstep := if g = 3 then 0 else m.kstep
    cstep := if g = 4 then 0 else m.cstep
    partialP := if g = 3 then [] else m.partialP
    rings := m.rings.map (fun p => (p.1, { p.2 with
      pushBy := if p.2.pushBy = g then 0 else p.2.pushBy, pushN := if p.2.pushBy = g then 0 else p.2.pushN
      popBy := if p.2.popBy = g then 0 else p.2.popBy, popN := if p.2.popBy = g then 0 else p.2.popN })) }

/-- The trapped instruction of a member that resumes (16 R390, R397): with `skip` it completes with no effect except its post; a TRAP, BRK or
HALT that has issued counts as completed; a HALT, or a skipped fetch-control instruction, lets fetch go on at the line after its line. -/
def Member.resumeEntry (m : Member) (g : Nat) (skip : Bool) : Member :=
  match m.q g with
  | [] => m
  | e :: r =>
    let op := opOf (e.lanes.headD 0).toNat
    let spent := g == 1 && e.issued && (op == 0x63 || op == 0x67 || op == 0x69)
    if skip ∨ spent = true then
      let m1 := (m.abandon g).setQ g ({ e with issued := true, skip := true } :: r)
      if isControl g op ∧ (skip = true ∨ op = 0x67) then
        let m2 := m1.advance e.line
        { m2 with fetch := { m2.fetch with waitCE := false, stopped := false } }
      else m1
    else m

/-- The stops of engines whose instruction counts as completed: each is still to be delivered. The others' instructions are checked or go on again, and then
raise theirs again. -/
def Member.unheard (m : Member) (eng : Nat) : List (Nat × Trap) :=
  m.stuck.filter (fun p => p.1 != eng && (m.q p.1).head?.any (fun e => e.skip))

/-- A halted member, or one whose handler returns, goes on (16 R390, R397). A trap of another engine that had completed its instruction (03 R94) is delivered
next (DEDUCED, log entry 16). -/
def Member.resumeFrom (m : Member) (eng : Nat) (skip : Bool) : Member :=
  let m1 := if eng = 0 then
      (match m.fetchTrap with
        | some (_, line) => if skip then m.advance line else m
        | none => m)
    else m.resumeEntry eng skip
  { m1 with stuck := m.unheard eng, fetchTrap := none, status := .running }

end Sys2Proof.Machine
end

