-- ==== Sys2Proof/Machine/Issue.lean ====
section
/-! DEFINITION. Issue (03 R70 to R73, R88, R89; 05 R138; 06 R161, R162): the checks at the head of a stream, squashing, token waits and
their contention, and what becomes of the instruction's queue entry and tokens once its meaning has run. -/

namespace Sys2Proof.Machine

/-- What the head of a stream is found to be: a trap of checks 1 to 4 of R88, a squashed instruction, or an instruction to execute. -/
inductive Plan where
  | trap (cause : Nat)
  | squash (waits : List Nat)
  | run (i : Instr) (waits : List Nat)
  deriving DecidableEq, Repr

/-- The tokens an instruction takes when it issues: its prefix's waits, and TKWAIT's own (05 R141). -/
def waitsOf (e : Entry) (i : Instr) : List Nat :=
  match i with
  | .tkwait k => prefixWaits e.pfx ++ [k]
  | _ => prefixWaits e.pfx

/-- Checks 1 to 4 of R88, then squashing (05 R138): STAGE and ROTB are never squashed. -/
def planOf (core : Nat) (g : Eng) (e : Entry) : Plan :=
  match decode g e.lanes with
  | .error .illegalOp => .trap 0x01
  | .error .illegalLane => .trap 0x02
  | r =>
    let op := opOf (e.lanes.headD 0).toNat
    let isPriv := privileged g op && !isSeq core
    if isPriv then .trap 0x04
    else if 268435456 ≤ ((e.pfx.map (fun p => p.toNat)).getD 0) then .trap 0x03
    else
      match r with
      | .error _ => .trap 0x03
      | .ok i =>
        if e.stamp.pred = false ∧ ¬(g = .ce ∧ (op = 0x4B ∨ op = 0x4C)) then .squash (prefixWaits e.pfx)
        else .run i (waitsOf e i)

/-- The scalar registers that a CE instruction's fields may name, by format (03 R75). -/
def ceRegs (ls : List Lane) : List Nat :=
  let h := (ls.headD 0).toNat
  let op := opOf h
  if op = 0x40 then []
  else if op = 0x41 ∨ op = 0x42 then [bits h 24 19, bits h 18 13]
  else if op = 0x43 then [bits h 24 19]
  else if op = 0x48 ∨ op = 0x49 then [bits h 21 16]
  else if (0x20 ≤ op ∧ op ≤ 0x35) ∨ (0x58 ≤ op ∧ op ≤ 0x61) ∨ op = 0x63 ∨ op = 0x69 then [bits h 24 19, bits h 18 13]
  else [bits h 24 19, bits h 18 13, bits h 12 7] ++ (if op = 0x74 then [bits ((ls.getD 1 0).toNat) 31 26] else [])

/-- The register that the CE's port operation in flight will write (10 R265); 0 when there is none. -/
def Core.pendingDest (x : Core) : Nat :=
  match x.port with
  | some r =>
    let h := (r.ent.lanes.headD 0).toNat
    if opOf h = 0x58 then bits h 18 13 else if 0x70 ≤ opOf h then bits h 24 19 else 0
  | none => 0

/-- The scalar registers that a KE instruction's fields may name (11 R278). -/
def keRegs (ls : List Lane) : List Nat :=
  let h := (ls.headD 0).toNat
  [bits h 24 19, bits h 18 13, bits h 12 7]

/-- Whether a slot racks. -/
def Slot.racking (x : Slot) : Bool := x.state == .rackingIn || x.state == .rackingOut

/-- The slots that rack for core `c`: its own, or for a sequencer any on its die. -/
def State.rackedBy (s : State) (c : Nat) : List Slot :=
  (if isSeq c then (List.range 64).map (fun i => (c - 512) * 64 + i) else [c]).flatMap (fun w =>
    ((s.seat w).slots.filter (fun p => p.2.racking && p.2.by_ == c)).map (·.2))

/-- The registers that the instructions of engine `g` in flight apart from its queue will write: the CE's port operation (10 R265), and the KRIN and KROUT
that rack (11 R280). -/
def State.pendingDests (s : State) (c g : Nat) : List Nat :=
  (if g = 1 then [(s.core c).pendingDest]
   else if g = 7 then (s.rackedBy c).map (fun x => bits (x.ent.lanes.headD 0).toNat 24 19)
   else []).filter (· != 0)

/-- Whether an instruction must wait for an incomplete one of its engine that writes a register it names (06 R161 item 3). -/
def State.hazard (s : State) (c g : Nat) (e : Entry) : Bool :=
  (s.pendingDests c g).any (has (if g = 1 then ceRegs e.lanes else keRegs e.lanes))

/-- The head of engine `g`'s stream when the engine can act: it has not trapped and holds no post (03 R71). -/
def Member.headOf (m : Member) (g : Nat) : Option Entry :=
  if m.stuck.any (fun p => p.1 == g) ∨ tgetD m.held g [] ≠ [] then none else (m.q g).head?

/-- Whether the engines of core `c` may issue: a running member on a running core, no stop at once of its context, not stopped at a YIELD. -/
def State.mayIssue (s : State) (c : Nat) : Bool :=
  let x := s.core c
  x.seat.present && s.groupRuns c && x.status == .running && x.seat.mem.status == .running
    && !(x.seat.mem.yielded && (s.ctx x.ctx).stop.isSome)
    && !(match (s.ctx x.ctx).stop with
      | some p => p.atOnce
      | none => false)

/-- Names the instruction being executed. -/
def State.setCur (s : State) (c : Nat) (g : Eng) (e : Entry) : State :=
  { s with cur := { core := c, eng := g, ent := e, status := .idle } }

/-- The type of `exec`, which issue is given. -/
abbrev Exec := Instr → State → Out

/-- The waits with which engine `h` of core `c` would issue now on the counts as they stand: of an instruction with waits, covered, not held up by
anything else. -/
def State.contender (run : Exec) (s : State) (c h : Nat) : Option (List Nat) :=
  match (s.mem c).headOf h, engOf h with
  | some e, some g =>
    if e.issued then none
    else
      match planOf c g e with
      | .trap _ => none
      | .squash ws => if ws ≠ [] ∧ (s.mem c).covered ws = true then some ws else none
      | .run i ws =>
        if ws = [] ∨ (s.mem c).covered ws = false ∨ s.hazard c h e = true then none
        else
          match run i (s.setCur c g e) with
          | .next t => (match t.cur.status with
            | .wait => none
            | .trap _ => none
            | _ => some ws)
          | _ => none
  | _, _ => none

/-- The engines that are passed over in this clock: those in `order` that could issue, and whom the counts left by the engines served before them do not
cover (03 R72, 06 R162). -/
def State.passed (run : Exec) (s : State) (c : Nat) (m : Member) (order : List Nat) : List Nat :=
  match order with
  | [] => []
  | h :: r =>
    match s.contender run c h with
    | none => s.passed run c m r
    | some ws => if m.covered ws then s.passed run c (m.takeWaits ws) r else h :: s.passed run c m r

/-- The order in which engines are served. -/
def Member.serveOrder (m : Member) : List Nat :=
  [1, 2, 3, 4, 5, 6, 7].filter (fun g => has m.senior g) ++ [1, 2, 3, 4, 5, 6, 7].filter (fun g => !has m.senior g)

/-- Takes the waits of an instruction that issues; its engine is senior no longer. -/
def Member.issueWaits (m : Member) (g : Nat) (e : Entry) (ws : List Nat) : Member :=
  let m1 := if e.issued then m else m.takeWaits ws
  { m1 with senior := m1.senior.filter (fun h => h != g) }

/-- Removes the head of a stream. -/
def Member.pop (m : Member) (g : Nat) : Member := m.setQ g (m.q g).tail

/-- Replaces the head of a stream. -/
def Member.setHead (m : Member) (g : Nat) (e : Entry) : Member := m.setQ g (e :: (m.q g).tail)

/-- Records a trap of an engine. -/
def Member.stop (m : Member) (g : Nat) (t : Trap) : Member := { m with stuck := m.stuck ++ [(g, t)] }

/-- The instruction being executed completes: waits taken, entry removed, post made. Meanings that must act after their own tokens use it. -/
def State.complete (s : State) (ws : List Nat) : State :=
  let g := engCode s.cur.eng
  s.modCm (fun m => ((m.issueWaits g s.cur.ent ws).pop g).postPrefix g s.cur.ent.pfx)

/-- A translation trap counts STRICTMISS (01 R32). -/
def State.missOnTrap (s : State) (c : Nat) (t : Trap) : State := if t.cause / 16 = 2 then s.strictMiss c else s

/-- What becomes of the entry and the tokens of the instruction that was executed. -/
def State.settle (s : State) (ws : List Nat) : State :=
  let c := s.cur.core
  let g := engCode s.cur.eng
  let e := s.cur.ent
  let e1 := { e with issued := true }
  let s1 := match s.cur.status with
    | .idle => s
    | .wait => s
    | .done => s.complete ws
    | .running => s.modMem c (fun m => (m.issueWaits g e ws).setHead g { e1 with busy := true })
    | .flying => s.modMem c (fun m =>
        let m1 := (m.issueWaits g e ws).pop g
        m1.setFl g (if e.issued then e1 :: m1.fl g else m1.fl g ++ [e1]))
    | .gone => s.modMem c (fun m => (m.issueWaits g e ws).pop g)
    | .trap t => (s.modMem c (fun m => m.stop g t)).missOnTrap c t
    | .trapIssued t => (s.modMem c (fun m => ((m.issueWaits g e ws).setHead g e1).stop g t)).missOnTrap c t
    | .trapDone t => (s.modMem c (fun m => ((m.issueWaits g e ws).setHead g { e1 with skip := true }).stop g t)).missOnTrap c t
  { s1 with cur := {} }

/-- FPMODE and SCMODE change places with what they held before the last CSRWR; the sticky flags stay. -/
def Member.swapMode (m : Member) : Member :=
  { m with
    fpmode := m.oldMode.1 / 2 ^ 14 * 2 ^ 14 + bits m.fpmode 13 8 * 2 ^ 8 + m.oldMode.1 % 2 ^ 8
    scmode := m.oldMode.2, oldMode := (m.fpmode, m.scmode) }

/-- SCMODE, the SE's own write of the register, comes before the later instructions of the SE. -/
def setsMode (i : Instr) : Bool :=
  match i with
  | .scmode _ => true
  | _ => false

/-- Whether an instruction of engine `k` samples FPMODE and SCMODE as they were before the last CSRWR: a free choice until the engine waits for a token (01 R29;
that any token wait ends it is DEDUCED, log entry 58). -/
def State.samplesOld (s : State) (c k : Nat) (e : Entry) (i : Instr) (ws : List Nat) : Bool × State :=
  if e.issued ∨ has (s.mem c).stale k = false then (false, s)
  else if ws ≠ [] ∨ setsMode i = true then (false, s.modMem c (fun m => { m with stale := m.stale.filter (fun h => h != k) }))
  else s.freeBit

/-- Runs the instruction at a head with the modes that it samples, and settles it. -/
def State.runHead (run : Exec) (s : State) (c : Nat) (g : Eng) (e : Entry) (i : Instr) (ws : List Nat) : Out :=
  let (old, s1) := s.samplesOld c (engCode g) e i ws
  if old then
    match run i ((s1.modMem c Member.swapMode).setCur c g e) with
    | .next t => .next ((t.modMem c Member.swapMode).settle ws)
    | o => o
  else
    match run i (s1.setCur c g e) with
    | .next t => .next (t.settle ws)
    | o => o

/-- An instruction with its effects made completes now: `none` before its strict time, and late it counts STRICTMISS (01 R32). -/
def State.padOver (s : State) (c : Nat) (e : Entry) : Option State :=
  let mhz := clockMhz s.power.point
  if s.strict c = false ∨ (e.pad = 0 ∧ e.clk = 0) then some s
  else if s.ptc < e.pad ∨ s.power.mclk < e.clk then none
  else if e.pad < s.ptc ∧ (e.clk = 0 ∨ e.clk + mhz ≤ s.power.mclk) then some (s.strictMiss c) else some s

/-- An event with strict due time `due` on core `c`: with STRICT = 1 it does not come before it, and counts STRICTMISS after it (01 R32). -/
def State.strictAt (s : State) (c due : Nat) : Option State :=
  if s.strict c = false then some s
  else if s.ptc < due then none
  else if due < s.ptc then some (s.strictMiss c) else some s

/-- The strict delay of a port operation (01 R32): nanoseconds (1.5 µs on the die, 3 µs beyond it) and thousandths of clocks (640 clocks at the own port). -/
def portDelay (c owner : Nat) : Nat × Nat :=
  if owner = c then (0, 640000) else if dieOf owner = dieOf c then (1500, 0) else (3000, 0)

/-- The strict delay of an instruction whose one port operation is at `w` and that reads or writes `n` sectors of TGT 0 memory: the longer of the two,
each counted from its issue (01 R32; DEDUCED, log entry 25). -/
def strictDelay (c w n : Nat) : Nat × Nat := (max (portDelay c w).1 (if n = 0 then 0 else 2000 + n), (portDelay c w).2)

/-- Gives an entry the strict time `d` from now. -/
def State.padEntry (s : State) (d : Nat × Nat) (e : Entry) : Entry :=
  { e with t0 := s.ptc, pad := if d.1 = 0 then 0 else s.ptc + d.1, clk := if d.2 = 0 then 0 else s.power.mclk + d.2 }

/-- The instruction, its effects made, completes: with STRICT = 1 a strict delay after it issued (01 R32). -/
def State.padFor (s : State) (d : Nat × Nat) : Out :=
  let g := engCode s.cur.eng
  let e := s.cur.ent
  if d = (0, 0) ∨ s.strict s.cur.core = false then s.done
  else .next ((s.modCm (fun m => (m.issueWaits g e (prefixWaits e.pfx)).setHead g { s.padEntry d e with issued := true, skip := true })).finish .idle)

/-- The engines passed over in a clock in which one that waits for `ws` could issue; an instruction without waits contends with none. -/
def State.losers (run : Exec) (s : State) (c : Nat) (ws : List Nat) : List Nat :=
  if ws = [] then [] else s.passed run c (s.mem c) (s.mem c).serveOrder

/-- Those whom engine `k`, which waits for `ws`, passes over by issuing now: the clock's losers whom the counts that it leaves no longer cover. An engine that
does not issue passes nobody over. -/
def State.passedBy (run : Exec) (s : State) (c k : Nat) (ws : List Nat) : List Nat :=
  if (s.contender run c k).isNone then []
  else (s.losers run c ws).filter (fun h => match s.contender run c h with
    | some wh => !((s.mem c).takeWaits ws).covered wh
    | none => false)

/-- Engines that are passed over become senior (06 R162). -/
def State.makeSenior (s : State) (c : Nat) (gs : List Nat) : State :=
  if gs = [] then s else s.modMem c (fun m => { m with senior := gs.foldl addOnce m.senior })

/-- Whether an entry in flight in the XS is an XMSGTX or an XHRING, by its opcode. -/
def Entry.isMsg (e : Entry) : Bool := opOf (e.lanes.headD 0).toNat == 5
def Entry.isHring (e : Entry) : Bool := opOf (e.lanes.headD 0).toNat == 3

/-- HELD_POST (03 R71): a held post is made once its token is below 63. -/
def execHeldPost (c g : Nat) (s : State) : Out :=
  match tgetD (s.mem c).held g [] with
  | [] => .next s
  | n :: r =>
    if (s.mem c).tok n < 63 then
      .next (s.modMem c (fun m => { m with held := tset m.held g r, k := tset m.k n (m.tok n + 1) }))
    else .next s

end Sys2Proof.Machine
end

