-- ==== Sys2Proof/Machine/Alu.lean ====
section
/-! DEFINITION. Scalar arithmetic of the control engine (05 R120 to R122, R152). -/

namespace Sys2Proof.Machine

/-- Ends a CE instruction whose whole effect is s[d] := v. -/
def State.putDone (s : State) (d : Nat) (v : Word) : Out := (s.putS d v).done

/-- A truth value as a 64-bit word. -/
def boolWord (b : Bool) : Word := if b then 1 else 0

/-- SignExt(imm13, 64). -/
def imm13 (i : Nat) : Word := sext64 13 i

/-- The high 64 bits of a product of integers. -/
def highWord (p : Int) : Word := BitVec.ofInt 64 (p / 2 ^ 64)

/-- DIV (05 R120). -/
def divWord (a b : Word) : Word :=
  if b = 0 then BitVec.allOnes 64 else BitVec.ofInt 64 (a.toInt.tdiv b.toInt)

/-- DIVN. -/
def divnWord (a b : Word) : Word := if b = 0 then BitVec.allOnes 64 else BitVec.ofNat 64 (a.toNat / b.toNat)

/-- REM. -/
def remWord (a b : Word) : Word := if b = 0 then a else BitVec.ofInt 64 (a.toInt.tmod b.toInt)

/-- REMN. -/
def remnWord (a b : Word) : Word := if b = 0 then a else BitVec.ofNat 64 (a.toNat % b.toNat)

/-- The number of leading zero bits of a word. -/
def clzWord (a : Word) : Word := BitVec.ofNat 64 (64 - bitLen a.toNat)

/-- The number of one bits. -/
def popWord (a : Word) : Word := BitVec.ofNat 64 ((List.range 64).foldl (fun n i => n + b2n (a.getLsbD i)) 0)

/-- The word whose bit i is `f i`. -/
def wordOfBits (f : Nat → Bool) : Word := BitVec.ofNat 64 ((List.range 64).foldl (fun n i => n + b2n (f i) * 2 ^ i) 0)

/-- BREV: bit i is bit 63 - i. -/
def brevWord (a : Word) : Word := wordOfBits (fun i => a.getLsbD (63 - i))

/-- BEXT of `l + 1` bits from bit `p` (05 R122). -/
def bextWord (a : Word) (p l : Nat) : Word := BitVec.ofNat 64 (a.toNat / 2 ^ p % 2 ^ (l + 1))

/-- BINS of the low `l + 1` bits of `a` into `d` from bit `p`, cut at bit 63 (05 R122). -/
def binsWord (d a : Word) (p l : Nat) : Word :=
  wordOfBits (fun i => if p ≤ i ∧ i ≤ p + l then a.getLsbD (i - p) else d.getLsbD i)

/-- NOP (05 R152): no effect. -/
def execNop (s : State) : Out := s.done

/-- ADD (05 R120). -/
def execAdd (d a b : Nat) (s : State) : Out := s.putDone d (s.rs a + s.rs b)

/-- SUB (05 R120). -/
def execSub (d a b : Nat) (s : State) : Out := s.putDone d (s.rs a - s.rs b)

/-- AND (05 R120). -/
def execAnd (d a b : Nat) (s : State) : Out := s.putDone d (s.rs a &&& s.rs b)

/-- OR (05 R120). -/
def execOr (d a b : Nat) (s : State) : Out := s.putDone d (s.rs a ||| s.rs b)

/-- XOR (05 R120). -/
def execXor (d a b : Nat) (s : State) : Out := s.putDone d (s.rs a ^^^ s.rs b)

/-- SHL (05 R120). -/
def execShl (d a b : Nat) (s : State) : Out := s.putDone d (s.rs a <<< (s.rn b % 64))

/-- SHR (05 R120). -/
def execShr (d a b : Nat) (s : State) : Out := s.putDone d (s.rs a >>> (s.rn b % 64))

/-- SAR (05 R120). -/
def execSar (d a b : Nat) (s : State) : Out := s.putDone d ((s.rs a).sshiftRight (s.rn b % 64))

/-- MUL (05 R120). -/
def execMul (d a b : Nat) (s : State) : Out := s.putDone d (s.rs a * s.rs b)

/-- MULH (05 R120). -/
def execMulh (d a b : Nat) (s : State) : Out := s.putDone d (highWord ((s.rs a).toInt * (s.rs b).toInt))

/-- MULHN (05 R120). -/
def execMulhn (d a b : Nat) (s : State) : Out := s.putDone d (highWord ((s.rn a : Int) * (s.rn b : Int)))

/-- DIV (05 R120). -/
def execDiv (d a b : Nat) (s : State) : Out := s.putDone d (divWord (s.rs a) (s.rs b))

/-- DIVN (05 R120). -/
def execDivn (d a b : Nat) (s : State) : Out := s.putDone d (divnWord (s.rs a) (s.rs b))

/-- REM (05 R120). -/
def execRem (d a b : Nat) (s : State) : Out := s.putDone d (remWord (s.rs a) (s.rs b))

/-- REMN (05 R120). -/
def execRemn (d a b : Nat) (s : State) : Out := s.putDone d (remnWord (s.rs a) (s.rs b))

/-- MIN (05 R120). -/
def execMin (d a b : Nat) (s : State) : Out := s.putDone d (if (s.rs a).slt (s.rs b) then s.rs a else s.rs b)

/-- MAX (05 R120). -/
def execMax (d a b : Nat) (s : State) : Out := s.putDone d (if (s.rs a).slt (s.rs b) then s.rs b else s.rs a)

/-- MINN (05 R120). -/
def execMinn (d a b : Nat) (s : State) : Out := s.putDone d (if (s.rs a).ult (s.rs b) then s.rs a else s.rs b)

/-- MAXN (05 R120). -/
def execMaxn (d a b : Nat) (s : State) : Out := s.putDone d (if (s.rs a).ult (s.rs b) then s.rs b else s.rs a)

/-- SLT (05 R120). -/
def execSlt (d a b : Nat) (s : State) : Out := s.putDone d (boolWord ((s.rs a).slt (s.rs b)))

/-- SLTN (05 R120). -/
def execSltn (d a b : Nat) (s : State) : Out := s.putDone d (boolWord ((s.rs a).ult (s.rs b)))

/-- SEQ (05 R120). -/
def execSeq (d a b : Nat) (s : State) : Out := s.putDone d (boolWord (s.rs a == s.rs b))

/-- CLZ (05 R120). -/
def execClz (d a : Nat) (s : State) : Out := s.putDone d (clzWord (s.rs a))

/-- POPC (05 R120). -/
def execPopc (d a : Nat) (s : State) : Out := s.putDone d (popWord (s.rs a))

/-- BREV (05 R120). -/
def execBrev (d a : Nat) (s : State) : Out := s.putDone d (brevWord (s.rs a))

/-- BEXT (05 R122); `l` is len - 1. -/
def execBext (d a b l : Nat) (s : State) : Out := s.putDone d (bextWord (s.rs a) (s.rn b % 64) l)

/-- BINS (05 R122): s[d] is read and written. -/
def execBins (d a b l : Nat) (s : State) : Out := s.putDone d (binsWord (s.rs d) (s.rs a) (s.rn b % 64) l)

/-- ADDI (05 R121). -/
def execAddi (d a i : Nat) (s : State) : Out := s.putDone d (s.rs a + imm13 i)

/-- ANDI (05 R121). -/
def execAndi (d a i : Nat) (s : State) : Out := s.putDone d (s.rs a &&& imm13 i)

/-- ORI (05 R121). -/
def execOri (d a i : Nat) (s : State) : Out := s.putDone d (s.rs a ||| imm13 i)

/-- XORI (05 R121). -/
def execXori (d a i : Nat) (s : State) : Out := s.putDone d (s.rs a ^^^ imm13 i)

/-- SLTI (05 R121). -/
def execSlti (d a i : Nat) (s : State) : Out := s.putDone d (boolWord ((s.rs a).slt (imm13 i)))

/-- MULI (05 R121). -/
def execMuli (d a i : Nat) (s : State) : Out := s.putDone d (s.rs a * imm13 i)

/-- SHLI (05 R121). -/
def execShli (d a n : Nat) (s : State) : Out := s.putDone d (s.rs a <<< n)

/-- SHRI (05 R121). -/
def execShri (d a n : Nat) (s : State) : Out := s.putDone d (s.rs a >>> n)

/-- SARI (05 R121). -/
def execSari (d a n : Nat) (s : State) : Out := s.putDone d ((s.rs a).sshiftRight n)

/-- LDI (05 R121). -/
def execLdi (d i : Nat) (s : State) : Out := s.putDone d (imm13 i)

/-- LDIW (05 R121). -/
def execLdiw (d i : Nat) (s : State) : Out := s.putDone d (sext64 32 i)

/-- LDIH (05 R121): imm32 over the low half of s[a]. -/
def execLdih (d a i : Nat) (s : State) : Out := s.putDone d (BitVec.ofNat 64 (i * 2 ^ 32 + s.rn a % 2 ^ 32))

end Sys2Proof.Machine
end

