-- ==== Sys2Proof/Machine/Control.lean ====
section
/-! DEFINITION. Branches, calls, hardware loops, stages and rotation (05 R128 to R139), tokens and mailboxes (R141, R142), and the system
instructions TRAP, BRK, HALT, TRET, YIELD, END, EVPOST, PTCRD (R145 to R151). -/

namespace Sys2Proof.Machine

/-- The CE transfers control to line `t` (03 R92): a target that fails its check traps at the instruction, after issue. -/
def State.transfer (s : State) (t : Int) (pops : Bool) : Out :=
  match s.targetCheck s.cur.core t with
  | some cause => .next (s.finish (.trapIssued { cause := cause }))
  | none => (s.modCm (fun m => (m.goTo t.toNat pops).unwait)).done

/-- A conditional branch not taken: fetch goes on past its line. -/
def State.fallThrough (s : State) : Out := (s.modCm (fun m => (m.advance s.cur.ent.line).unwait)).done

/-- Conditions of BC and BZ (03 R82). -/
def condHolds (c : Nat) (a b : Word) : Bool :=
  match c with
  | 0 => a == b
  | 1 => a != b
  | 2 => a.slt b
  | 3 => !(a.slt b)
  | 4 => a.ult b
  | _ => !(a.ult b)

/-- B (05 R128): fetch has followed it, unless its target fails the check of 03 R92, for which the CE traps; executed again after such a
trap, it transfers. -/
def execB (o : Nat) (s : State) : Out :=
  let t := branchLine s.cur.ent.line 19 o
  if s.cm.fetch.waitCE ∧ s.cm.fetch.next = s.cur.ent.line then s.transfer t true
  else
    match s.targetCheck s.cur.core t with
    | some cause => .next (s.finish (.trapIssued { cause := cause }))
    | none => s.done

/-- The address of the line that holds the instruction being executed. -/
def State.pc (s : State) : Nat := s.cm.lineAddr s.cur.ent.line

/-- CALL (05 R128): s[d] := PC + 32. -/
def execCall (d o : Nat) (s : State) : Out :=
  let t := branchLine s.cur.ent.line 19 o
  match s.targetCheck s.cur.core t with
  | some cause => .next (s.finish (.trapIssued { cause := cause }))
  | none =>
    let s1 := s.putS d (BitVec.ofNat 64 (s.pc + 32))
    if s.cm.fetch.waitCE ∧ s.cm.fetch.next = s.cur.ent.line then s1.transfer t false else s1.done

/-- BC (05 R128). -/
def execBc (a b c o : Nat) (s : State) : Out :=
  if condHolds c (s.rs a) (s.rs b) then s.transfer (branchLine s.cur.ent.line 10 o) true else s.fallThrough

/-- BZ (05 R128). -/
def execBz (a c o : Nat) (s : State) : Out :=
  if condHolds c (s.rs a) 0 then s.transfer (branchLine s.cur.ent.line 10 o) true else s.fallThrough

/-- A transfer to the address in a register (05 R129): ILLEGAL_TARGET when it is no line address, FETCH_RANGE outside the woven text; of an address that
is both, ILLEGAL_TARGET (DESIGN CHOICE, log entry 30). -/
def State.jumpTo (s : State) (a : Nat) (pops : Bool) : Out :=
  if a % 32 ≠ 0 then .next (s.finish (.trapIssued { cause := 0x05 }))
  else s.transfer (if a < s.cm.lineAddr 0 then -1 else ((a - s.cm.lineAddr 0) / 32 : Nat)) pops

/-- RET (05 R128, R133): pops no loop. -/
def execRet (a : Nat) (s : State) : Out := s.jumpTo (s.rn a) false

/-- JR (05 R128, R133). -/
def execJr (a : Nat) (s : State) : Out := s.jumpTo (s.rn a) true

/-- The loop-table entry of a TEMPORAL level (04 R108). -/
def Member.temporal (m : Member) (l : Nat) : Option LoopEnt :=
  match m.kern.loops[l]? with
  | some e => if e.kind = 0 then some e else none
  | none => none

/-- LOOP and LOOPX from iteration `i` for `n` as one past the last (05 R130, R131); `tooLong` is the limit of LOOP's count. -/
def State.enterLoop (s : State) (l o i n : Nat) (tooLong : Bool) : Out :=
  let m := s.cm
  let line := s.cur.ent.line
  match m.temporal l with
  | none => s.trap 0x42
  | some e =>
    let onStack := m.fetch.loops.any (fun p => decide (l ≤ p.lvl))
    let inPipe := match m.fetch.loops.head? with
      | some p => p.stages != 0
      | none => false
    if onStack ∨ inPipe = true ∨ o < 2 ∨ tooLong = true then s.trap 0x42
    else if m.kern.textn ≤ line + o - 1 then s.trap 0x06
    else if n ≤ i then
      (s.modCm (fun m => ({ m with trips := tset m.trips l 0 }.goTo (line + o) false).unwait)).done
    else
      let p : Loop := { lvl := l, i := i, e := n - 1, first := line + 1, last := line + o - 1, stages := if e.pipe then e.stages + 1 else 0 }
      (s.modCm (fun m =>
        let m1 := { m with trips := tset m.trips l (n - i), fetch := { m.fetch with loops := p :: m.fetch.loops, next := line + 1, tag := none } }
        (m1.beginRun p i).unwait)).done

/-- The table count of a level. -/
def Member.loopCount (m : Member) (l : Nat) : Nat := ((m.kern.loops[l]?).map (fun e => e.count)).getD 0

/-- LOOP (05 R130). -/
def execLoop (l a o : Nat) (s : State) : Out :=
  if a = 0 then s.enterLoop l o 0 (s.cm.loopCount l) false
  else s.enterLoop l o 0 (s.rn a) (decide (0xFFFFFFFF < s.rn a))

/-- LOOPX (05 R130). -/
def execLoopx (l a o : Nat) (s : State) : Out :=
  s.enterLoop l o (if a = 0 then 0 else s.rn a) (s.cm.loopCount l) false

/-- LC as LCRD and the LC CSRs give it (05 R134, R143); a level at or above LOOPN reads 0. -/
def State.lcRead (s : State) (l : Nat) (st : Stamp) : Word := if l < s.cm.kern.loops.length then st.lcOf l else 0

/-- LCRD (05 R134). -/
def execLcrd (d l : Nat) (s : State) : Out := s.putDone d (s.lcRead l s.cur.ent.stamp)

/-- LCRD, trips form (05 R134). -/
def execLcrdTrips (d l : Nat) (s : State) : Out :=
  s.putDone d (match s.cm.kern.loops[l]? with
    | some e => if e.kind = 0 then BitVec.ofNat 64 (tgetD s.cm.trips l 0) else BitVec.ofNat 64 e.count
    | none => 0)

/-- STAGE (05 R137): its tag acts in fetch; the CE has nothing to do. -/
def execStage (_n : Nat) (s : State) : Out := s.done

/-- STAGE, set form (05 R137): g := s[a][7:0] for the lines after it. -/
def execStageSet (a _n : Nat) (s : State) : Out :=
  (s.modCm (fun m => ({ m with fetch := { m.fetch with g := s.rn a % 256 } } : Member).setMade)).done

/-- ROTB (05 R139): RRB := (s[a] + n) mod 16 for the lines after it. -/
def execRotb (a n : Nat) (s : State) : Out :=
  (s.modCm (fun m => ({ m with fetch := { m.fetch with rrb := (s.rn a + n) % 16 } } : Member).setMade)).done

/-- TKWAIT (05 R141): its wait is taken at issue with its prefix's. -/
def execTkwait (_k : Nat) (s : State) : Out := s.done

/-- TKPOST (05 R141): its post is made when it completes, after its own waits (03 R72). -/
def execTkpost (k : Nat) (s : State) : Out := .next ((s.complete (prefixWaits s.cur.ent.pfx)).modCm (fun m => m.post 1 k))

/-- TKSET (05 R141): applied after the waits and posts of its own issue; s[a] > 63 traps TOKEN_RANGE. -/
def execTkset (a k : Nat) (s : State) : Out :=
  if 63 < s.rn a then s.trapWith { cause := 0x15, taddr := s.rn a }
  else .next ((s.complete (prefixWaits s.cur.ent.pfx)).modCm (fun m => { m with k := tset m.k k (s.rn a) }))

/-- TKRD (05 R141): the count at the start of the issue clock. -/
def execTkrd (d k : Nat) (s : State) : Out := s.putDone d (BitVec.ofNat 64 (s.cm.tok k))

/-- MBRD (05 R142). -/
def execMbrd (d x : Nat) (s : State) : Out := s.putDone d (tgetD s.cm.x x 0)

/-- MBWR (05 R142). -/
def execMbwr (a x : Nat) (s : State) : Out := (s.modCm (fun m => { m with x := tset m.x x (s.rs a) })).done

/-- PTCRD (05 R145). -/
def execPtcrd (d : Nat) (s : State) : Out := s.putDone d (BitVec.ofNat 64 s.ptc)

/-- TRAP (05 R146): SOFTWARE with its code; the instruction has no further effect. -/
def execTrap (c : Nat) (s : State) : Out := .next (s.finish (.trapDone { cause := 0x90, code := c }))

/-- BRK (05 R146). -/
def execBrk (n : Nat) (s : State) : Out := .next (s.finish (.trapDone { cause := 0x91, code := n }))

/-- HALT (05 R151, 16 R390). -/
def execHalt (s : State) : Out :=
  if s.cm.aside.isSome then s.trap 0x07 else .next (s.finish (.trapDone { cause := 0x92 }))

/-- Whether engines 2 to 7 of core `c` have not completed all instructions dealt with numbers from `lo` on below `n`, bulk copies and racking included. -/
def State.pendingIn (s : State) (c lo n : Nat) : Bool :=
  let x := s.seat c
  let due := fun (e : Entry) => decide (lo ≤ e.seqNo ∧ e.seqNo < n)
  [2, 3, 4, 5, 6, 7].any (fun g => (x.mem.q g ++ x.mem.fl g).any due)
    || x.copies.any (fun p => due p.2.ent)
    || s.cores.any (fun k => k.2.seat.slots.any (fun p =>
        (p.2.state == .rackingIn || p.2.state == .rackingOut) && p.2.by_ == c && due p.2.ent))

/-- As `State.pendingIn`, from the member's start on. -/
def State.pendingBefore (s : State) (c n : Nat) : Bool := s.pendingIn c 0 n

/-- YIELD (05 R149): issues once every other engine has completed what was dealt before its line; then a pending pre-emption of the context
is taken there (16 R394), else it is a NOP, as it is in a handler. -/
def execYield (s : State) : Out :=
  let c := s.cur.core
  if s.cm.aside.isSome then s.done
  else if s.pendingBefore c s.cur.ent.seqNo then s.waits
  else if (s.ctx (s.ctxOn c)).stop.isSome ∧ isSeq c = false then (s.modCm (fun m => { m with yielded := true })).done
  else s.done

/-- END (05 R150, 18 R423): waits until every other engine, copy and racking operation has finished and every collective instance that the member
issued is delivered, releases at SYSTEM scope, arrive-drops the
barriers that count the member (14 R353), and retires it. -/
def execEndK (s : State) : Out :=
  let c := s.cur.core
  if s.cm.aside.isSome then s.trap 0x07
  else if s.pendingBefore c s.cm.nextSeq ∨ (s.core c).port.isSome = true ∨ s.cm.chans.any (fun p => p.2.delivered != p.2.issued) = true then s.waits
  else .next (((s.release c true).arriveDrops c).retire c false)

/-- TRET (05 R147, 16 R390): once the instructions that the handler dealt up to it have completed, what was set aside is restored, HND := 0,
and the trapped instruction goes on. Instructions dealt after TRET's line are dropped (DEDUCED, log entry 16). -/
def execTret (s : State) : Out :=
  let c := s.cur.core
  match s.cm.aside with
  | none => s.trap 0x07
  | some a =>
    if s.pendingIn c a.seq0 (s.cur.ent.seqNo + 1) ∨ (s.core c).port.isSome = true then s.waits
    else .next ((s.complete (prefixWaits s.cur.ent.pfx)).modCm (fun m =>
      ({ m with
        queues := a.queues, stuck := a.stuck, fetch := a.fetch, aside := none, trapcause := setBits m.trapcause 47 47 0
        fetchTrap := if a.eng = 0 then some (a.cause, a.fetch.next) else none } : Member).resumeFrom a.eng false))

/-- EVPOST (05 R148, 15 R372): one entry on the context's event ring; with no free entry the CE waits, unissued. -/
def execEvpost (a b : Nat) (s : State) : Out :=
  let c := s.eventCtx s.cur.core
  if (s.ctx c).waiting = [] ∧ s.ringRoom c eventRing 1 = true then
    (s.appendEntries c eventRing [eventBytes 0 (s.rn b % 65536) s.cur.core 0 s.ptc (s.rn a)]).done
  else s.waits

end Sys2Proof.Machine
end

