-- ==== Sys2Proof/Machine/Power.lean ====
section
/-! DEFINITION. The time unit and the power controller (25 R490 to R495). -/

namespace Sys2Proof.Machine

/-- Adds an amount, in units of 2^-32 ns, to the PTC and its fraction; the PTC never decreases (25 R493), and stays at 2^64 − 1 once there (DESIGN CHOICE, log
entry 12). -/
def TimeUnit.add (t : TimeUnit) (d : Int) : TimeUnit :=
  let x : Int := (t.ptc : Int) * 2 ^ 32 + t.frac + d
  if x < (t.ptc : Int) * 2 ^ 32 then { t with frac := 0 }
  else { t with ptc := max t.ptc (min (x / 2 ^ 32).toNat (2 ^ 64 - 1)), frac := (x % 2 ^ 32).toNat }

/-- `n` nanoseconds of the reference clock pass (25 R493), without slew. -/
def TimeUnit.tick (t : TimeUnit) (n : Nat) : TimeUnit :=
  { t.add ((n : Int) * (2 ^ 32 + t.rate)) with sinceSlew := t.sinceSlew + n, sincePps := t.sincePps.map (· + n) }

/-- Time passes. -/
def State.elapse (s : State) (n : Nat) : State :=
  { s with time := s.time.tick n, power := { s.power with mclk := s.power.mclk + n * clockMhz s.power.point } }

/-- PEND saturates at ±2^40 ns (25 R494). -/
def satPend (v : Int) : Int := max (-(2 ^ 40)) (min (2 ^ 40) v)

/-- PTC_SLEW (25 R494): one nanosecond in which the counter advances by 2 or by 0, at most once in ceil(10^6 / SLEW) ns,
the first of which is the nanosecond of the slew itself. -/
def execPtcSlew (s : State) : Out :=
  let t := s.time
  if t.pend = 0 ∨ t.sinceSlew < cdiv 1000000 t.slew then .next s
  else
    let up := decide (0 < t.pend)
    let t1 := t.add (2 ^ 32 + t.rate + (if up then 2 ^ 32 else -(2 ^ 32)))
    .next { s with
      time := { t1 with pend := if up then t.pend - 1 else t.pend + 1, sinceSlew := 1, sincePps := t.sincePps.map (· + 1) }
      power := { s.power with mclk := s.power.mclk + clockMhz s.power.point } }

/-- PTCADJ write (25 R494). -/
def execPtcadjWrite (v : Nat) (s : State) : Out := if s.hostKeyed = false then .next s else .next { s with time := { s.time with pend := satPend (s.time.pend + toSigned 64 v) } }

/-- Whether every tenant context is FREE. -/
def State.noTenant (s : State) : Bool := s.ctxs.all (fun p => p.2.state == .free || p.2.kind == 1)

/-- PTCSTEP write (25 R494): a forward step while every tenant context is FREE; otherwise discarded. A step past 2^64 − 1 stops there (DESIGN CHOICE, log entry
12). -/
def execPtcstepWrite (v : Nat) (s : State) : Out :=
  if s.hostKeyed = false then .next s else
  if s.noTenant then .next { s with time := { s.time with ptc := min (s.time.ptc + v % 2 ^ 64) (2 ^ 64 - 1) } } else .next s

/-- PTCRATE write (25 R493): a write beyond ±2^22 stores ±2^22. -/
def execPtcrateWrite (v : Nat) (s : State) : Out :=
  if s.hostKeyed = false then .next s else
  .next { s with time := { s.time with rate := max (-(2 ^ 22)) (min (2 ^ 22) (toSigned 64 v)) } }

/-- PTCCFG write (25 R493). -/
def execPtccfgWrite (v : Nat) (s : State) : Out :=
  if s.hostKeyed = false then .next s else
  .next { s with time := { s.time with
    phase := min (bits v 63 32) 999999999, slew := max (bits v 15 8) 1, ppslock := bit v 2, ppsedge := bit v 1, ppsen := bit v 0 } }

/-- PTCCFG as it reads. -/
def TimeUnit.cfg (t : TimeUnit) : Nat := t.phase * 2 ^ 32 + t.slew * 2 ^ 8 + 4 * b2n t.ppslock + 2 * b2n t.ppsedge + b2n t.ppsen

/-- The phase error of an edge in the range −500,000,000 to 499,999,999 (25 R495). -/
def phaseErr (edge phase : Nat) : Int :=
  let e : Int := ((edge : Int) - phase) % 1000000000
  if 500000000 ≤ e then e - 1000000000 else e

/-- PPS_EDGE (25 R495) of the polarity `falling`: accepted, or ignored within 0.999 s of the one before. After 1.001 s without one MISS counts, if it has not yet. -/
def execPpsEdge (falling : Nat) (s : State) : Out :=
  let t := s.time
  let tooSoon := match t.sincePps with
    | some n => decide (n < 999000000)
    | none => false
  let late := match t.sincePps with
    | some n => decide (1001000000 ≤ n)
    | none => false
  if t.ppsen = false ∨ (falling == 1) ≠ t.ppsedge ∨ tooSoon = true then .next s
  else
    .next { s with time := { t with
      miss := if late then min (t.miss + 1) 0xFFFFFFFF else t.miss
      edge := t.ptc, edges := min (t.edges + 1) 0xFFFFFFFF, sincePps := some 0
      pend := if t.ppslock then satPend (t.pend - phaseErr t.ptc t.phase) else t.pend } }

/-- PPS_MISS (25 R495): 1.001 s pass without an edge. -/
def execPpsMiss (s : State) : Out :=
  match s.time.sincePps with
  | some n =>
    if s.time.ppsen ∧ 1001000000 ≤ n then
      .next { s with time := { s.time with miss := min (s.time.miss + 1) 0xFFFFFFFF, sincePps := none } }
    else .next s
  | none => .next s

/-- The fields of PWRCAP (25 R490). -/
def Power.value (p : Power) : Nat :=
  p.meas * 2 ^ 32 + p.point * 2 ^ 24 + p.req * 2 ^ 18 + b2n p.capped * 2 ^ 16 + p.cap

/-- PWRCAP as it reads now: from 10 µs after the last write that changed CAP MEAS is at most CAP (25 R491). -/
def State.pwrcap (s : State) : Nat :=
  let p := s.power
  ({ p with meas := if p.wrote + 10000 ≤ s.ptc then min p.meas p.cap else p.meas } : Power).value

/-- PWRCAP write (25 R490): REQ of 5 to 7 stores 4, CAP is kept within 400 to 3,200. The 10 µs of R491 start again when CAP changes. -/
def State.writePwrcap (s : State) (v : Nat) : State :=
  let p := s.power
  let req := min (bits v 20 18) 4
  let cap := max 400 (min 3200 (bits v 15 0))
  { s with power := { p with req := req, cap := cap, capped := decide (p.point < req) || p.gate, wrote := if cap = p.cap then p.wrote else s.ptc } }

/-- PWRCAP write by the driver. -/
def execPwrcapWrite (v : Nat) (s : State) : Out := if s.hostKeyed = false then .next s else .next (s.writePwrcap v)

/-- DVFS_POINT_CHANGE (25 R491): every die moves to a point up to REQ together; ME issue is gated only at point 0. The point, the gating
and the measured power rest on predicted and measured power, which the event carries (DESIGN CHOICE, log entry 12); from 10 µs after the last write
MEAS is at most CAP. Every running member of a STRICT context counts STRICTMISS (01 R32). -/
def execDvfsPointChange (point gate meas : Nat) (s : State) : Out :=
  let p := s.power
  let pt := min point p.req
  let g := decide (gate = 1) && pt == 0
  let ms := if p.wrote + 10000 ≤ s.ptc then min meas p.cap else min meas 0xFFFF
  let s1 := { s with power := { p with point := pt, gate := g, meas := ms, capped := decide (pt < p.req) || g } }
  if pt = p.point then .next s1
  else .next (s1.cores.foldl (fun s q =>
    if q.2.seat.present ∧ q.2.status = .running ∧ q.2.seat.mem.status = .running then s.strictMiss q.1 else s) s1)

/-- ARRAY_POWER_DOWN (25 R492): a matrix array idle for 1 µs powers down. -/
def execArrayPowerDown (c : Nat) (s : State) : Out :=
  let x := s.core c
  let busy := match (x.seat.mem.q 3).head? with
    | some e => e.busy
    | none => false
  if x.arrayOn ∧ busy = false ∧ x.idleNs + 1000 ≤ s.ptc then .next (s.modCore c (fun x => { x with arrayOn := false })) else .next s

/-- A core asks for its array; the die's first request in the span starts the waves (25 R492). -/
def State.wakeArray (s : State) (c : Nat) : State :=
  (s.modCore c (fun x => { x with waking := true })).modDie (dieOf c) (fun d => { d with wake := if d.wake.isNone then some s.ptc else d.wake })

/-- ARRAY_WAKE_WAVE (25 R492): the arrays of mesh row `row` of a die that wait power up, 64·row ns after the span's first request. -/
def execArrayWakeWave (d row : Nat) (s : State) : Out :=
  match (s.die d).wake with
  | none => .next s
  | some t0 =>
    if s.ptc < t0 + 64 * row then .next s
    else
      let s1 := ((List.range 8).map (fun k => 64 * d + 8 * (row % 8) + k)).foldl (fun s c =>
        if (s.core c).waking then s.modCore c (fun x => { x with waking := false, arrayOn := true, idleNs := s.ptc }) else s) s
      .next (if ((List.range 64).any (fun k => (s1.core (64 * d + k)).waking)) then s1 else s1.modDie d (fun x => { x with wake := none }))

/-- ERROR_REGISTER_WRITE (25 R496): sets every field. -/
def execErrorRegisterWrite (d v : Nat) (s : State) : Out :=
  if s.hostKeyed = false ∨ 8 ≤ d then .next s else
  .next (s.modDie d (fun x => { x with errCe := bits v 63 32, errUe := bits v 31 16, errDrop := bits v 15 0 }))

end Sys2Proof.Machine
end

