-- ==== Sys2Proof/Machine/Csr.lean ====
section
/-! DEFINITION. The system registers that CSRRD and CSRWR reach (05 R143, R144; 16 R379; 17 R418; 25 R490). -/

namespace Sys2Proof.Machine

/-- STATE of CSTAT and CTXSTAT (16 R374). -/
def CtxState.code (x : CtxState) : Nat :=
  match x with
  | .free => 0 | .created => 1 | .bound => 2 | .running => 3 | .preempting => 4 | .saved => 5 | .parked => 6 | .faulted => 7 | .destroying => 8

/-- PIPESTATE (05 R144) as the CSRRD's line was dealt. -/
def Stamp.pipestate (t : Stamp) : Nat :=
  b2n t.tag.isSome * 2 ^ 15 + (t.tag.getD 0) % 8 * 2 ^ 12 + t.rrb * 2 ^ 8 + t.g

/-- CTXSTAT (16 R379). -/
def Ctx.stat (x : Ctx) : Nat := x.rdy % 256 * 2 ^ 32 + x.cause * 2 ^ 16 + x.state.code

/-- The privileged registers a sequencer has (16 R379, 17 R418, 25 R490). -/
def privilegedCsr (n : Nat) : Bool := decide (0x100 ≤ n ∧ n ≤ 0x102) || decide (0x110 ≤ n ∧ n < 0x120) || n == 0x120

/-- The registers that are not privileged (05 R143). -/
def memberCsr (n : Nat) : Bool :=
  decide (n ≤ 6) || decide (8 ≤ n ∧ n ≤ 0x14) || n == 0x20

/-- What a CSR number traps for the issuing party (05 R143, 00 R12): `none` when it may be reached. -/
def csrTrap (core n : Nat) : Option Nat :=
  if 0x100 ≤ n ∧ n < 0x400 then
    if isSeq core then (if privilegedCsr n then none else some 0x03) else some 0x04
  else if memberCsr n then none else some 0x03

/-- The value of a register (05 R143). -/
def State.csr (s : State) (n : Nat) : Nat :=
  let m := s.cm
  match n with
  | 0x000 => m.fpmode
  | 0x001 => m.trapcause
  | 0x002 => m.traplane
  | 0x003 => m.trapline
  | 0x004 => s.cur.ent.stamp.pipestate
  | 0x005 => s.mrank s.cur.core
  | 0x006 => m.strictmiss
  | 0x010 => m.vshape
  | 0x011 => m.scmode
  | 0x012 => m.kstep
  | 0x013 => m.cstep
  | 0x014 => (s.seat s.cur.core).fade
  | 0x020 => s.ptc
  | 0x100 => (s.ctx (s.core s.cur.core).seqctx).cfg
  | 0x101 => (s.core s.cur.core).seqctx
  | 0x102 => (s.ctx (s.core s.cur.core).seqctx).stat
  | 0x120 => s.pwrcap
  | k => if 8 ≤ k ∧ k < 16 then (s.lcRead (k - 8) { s.cur.ent.stamp with plvl := none }).toNat
         else if 0x110 ≤ k ∧ k < 0x120 then (s.link (k - 0x110 + 16)).stail else 0

/-- Whether bits that a register reserves are set in a value (00 R10). -/
def csrReserved (n v : Nat) : Bool :=
  match n with
  | 0x000 => bits v 63 22 != 0 || bits v 15 14 != 0 || bits v 7 5 != 0
  | 0x001 => bits v 63 48 != 0 || bits v 41 38 != 0 || bits v 15 8 != 0
  | 0x002 => bits v 63 9 != 0 || bit v 3
  | 0x004 => bits v 63 16 != 0
  | 0x005 => bits v 63 42 != 0 || bits v 31 30 != 0 || bits v 23 19 != 0 || bits v 15 10 != 0
  | 0x006 => bits v 63 32 != 0
  | 0x010 => bits v 63 25 != 0 || bits v 9 0 != 0
  | 0x011 => bits v 63 11 != 0 || bits v 5 2 != 0
  | 0x012 => bits v 63 16 != 0 || bits v 14 10 != 0
  | 0x013 => bits v 63 16 != 0 || bits v 14 7 != 0
  | 0x014 => bits v 63 32 != 0
  | 0x100 => bits v 63 3 != 0
  | 0x101 => bits v 63 8 != 0
  | 0x102 => bits v 63 40 != 0 || bits v 31 24 != 0 || bits v 15 4 != 0
  | 0x120 => bits v 63 48 != 0 || bits v 31 27 != 0 || bits v 23 21 != 0 || bit v 17
  | k => decide (0x110 ≤ k ∧ k < 0x120) && bits v 63 32 != 0

/-- FPMODE after a CSRWR (02 R40): EN, SATF, FZ and RM are set, FLAGS is cleared where 1 is written. -/
def fpmodeWrite (old v : Nat) : Nat :=
  let fl := (List.range 6).foldl (fun a i => a + b2n (bit old (8 + i) && !bit v (8 + i)) * 2 ^ (8 + i)) 0
  bits v 21 16 * 2 ^ 16 + fl + v % 32

/-- Whether a sequencer's SEQCTX may name a context: neither FREE nor the supervisor (16 R379). -/
def State.seqctxOk (s : State) (x : Nat) : Bool := (s.ctx x).state != .free && (s.ctx x).kind == 0

/-- A CSRWR to FPMODE or SCMODE: until a token wait of theirs, the VE, ME and SE may still see what the two held (01 R29). -/
def Member.modeWrite (m : Member) (f : Member → Member) : Member := { f m with oldMode := (m.fpmode, m.scmode), stale := [2, 3, 4] }

/-- A CSRWR's effect on a register; a write to a read-only field is ignored (00 R9). -/
def State.csrWrite (s : State) (n v : Nat) : State :=
  let c := s.cur.core
  match n with
  | 0x000 => s.modCm (fun m => m.modeWrite (fun m => { m with fpmode := fpmodeWrite m.fpmode v }))
  | 0x011 => s.modCm (fun m => m.modeWrite (fun m => { m with scmode := v }))
  | 0x014 => s.modSeat c (fun x => { x with fade := v })
  | 0x100 => s.modCtx (s.core c).seqctx (fun x => { x with cfg := v })
  | 0x101 => s.modCore c (fun x => { x with seqctx := v })
  | 0x120 => s.writePwrcap v
  | k => if 0x110 ≤ k ∧ k < 0x120 then s.modLink (k - 0x110 + 16) (fun l => { l with stail := v }) else s

/-- CSRRD (05 R143). -/
def execCsrrd (d n : Nat) (s : State) : Out :=
  match csrTrap s.cur.core n with
  | some cause => s.trap cause
  | none => s.putDone d (BitVec.ofNat 64 (s.csr n))

/-- CSRWR (05 R143): a reserved bit or value traps RESERVED_FIELD, a SEQCTX that names a FREE context or the supervisor traps CTX_OPERAND. -/
def execCsrwr (a n : Nat) (s : State) : Out :=
  let v := s.rn a
  match csrTrap s.cur.core n with
  | some cause => s.trap cause
  | none =>
    if csrReserved n v ∨ (n = 0 ∧ 4 < v % 8) ∨ (n = 0x011 ∧ 4 < bits v 10 6) then s.trap 0x03
    else if n = 0x101 ∧ s.seqctxOk v = false then s.trap 0xA5
    else (s.csrWrite n v).done

end Sys2Proof.Machine
end

