-- ==== Sys2Proof/Machine/CePort.lean ====
section
/-! DEFINITION. The control engine's port instructions: atomics (10 R262 to R266) and barrier instructions (14 R347 to R352), with the
replies and notifications that end them. -/

namespace Sys2Proof.Machine

/-- Presents a port operation of the CE at accumulator address `a`, which then is in flight (10 R265); the instruction also writes `k` sectors of TGT 0 memory (01
R32). -/
def State.present (s : State) (a owner off bar k : Nat) (op : PortOp) : Out :=
  let e := { s.padEntry (strictDelay s.cur.core owner k) s.cur.ent with issued := true }
  .next ((s.modCore s.cur.core (fun x => { x with port := some { owner := owner, off := off, addr := a, op := op, ent := e, bar := bar } })).finish .gone)

/-- Presents a barrier operation, whose address its map entry gives. -/
def State.presentBar (s : State) (w off n k : Nat) (op : PortOp) : Out := s.present (s.accAddr s.cur.core (s.barCtx s.cur.core) w off) w off n k op

/-- Whether the core's place at a port is taken (10 R265, R266). -/
def State.portBusy (s : State) : Bool := (s.core s.cur.core).port.isSome || (s.core s.cur.core).bwait.isSome

/-- The checks of an atomic before issue (10 R264 rows 1 and 2), and its request. -/
def State.atomic (s : State) (op a t b c : Nat) : Out :=
  let A := s.rn a
  if 2 ^ 32 ≤ A then s.trapWith { cause := 0x12, taddr := A }
  else
    match s.accPlace s.cur.core (s.xctx s.cur.core) A with
    | .error cause => s.trapWith { cause := cause, taddr := A }
    | .ok (w, off) =>
      if A % (atomicWidth t / 8) ≠ 0 then s.trapWith { cause := 0x13, taddr := A }
      else if s.portBusy then s.waits
      else s.present A w off 0 0 (.atomic op t b c)

/-- ATADD (10 R262, R263). -/
def execAtadd (_d a b t : Nat) (s : State) : Out := s.atomic 0x70 a t (s.rn b) 0

/-- ATMAX (10 R262, R263). -/
def execAtmax (_d a b t : Nat) (s : State) : Out := s.atomic 0x71 a t (s.rn b) 0

/-- ATMIN (10 R262, R263). -/
def execAtmin (_d a b t : Nat) (s : State) : Out := s.atomic 0x72 a t (s.rn b) 0

/-- ATXCHG (10 R262, R263). -/
def execAtxchg (_d a b t : Nat) (s : State) : Out := s.atomic 0x73 a t (s.rn b) 0

/-- ATCAS (10 R262, R263). -/
def execAtcas (_d a b t c : Nat) (s : State) : Out := s.atomic 0x74 a t (s.rn b) (s.rn c)

/-- ATINCNZ (10 R262, R263). -/
def execAtincnz (_d a t : Nat) (s : State) : Out := s.atomic 0x75 a t 0 0

/-- ATDEC (10 R262, R263). -/
def execAtdec (_d a t : Nat) (s : State) : Out := s.atomic 0x76 a t 0 0

/-- The context whose barrier map a party uses (14 R341, 16 R499), or CTX_OPERAND. -/
def State.barrierCtx (s : State) : Except Nat Nat :=
  let c := s.cur.core
  if isSeq c then (if s.seqctxOk (s.core c).seqctx then .ok (s.core c).seqctx else .error 0xA5)
  else .ok (s.ctxOn c)

/-- Checks 1 and 2 of 14 R347 for virtual barrier `n`, then `f` with the pair's place; the record of a class 1 trap holds the address that the map entry
gives (16 R389). -/
def State.withBarrier (s : State) (n : Nat) (f : State → Nat → Nat → Out) : Out :=
  match s.barrierCtx with
  | .error cause => s.trap cause
  | .ok x =>
    let r := s.mapEntry (dieOf s.cur.core) x n
    match r.2.barrierPlace s.cur.core x r.1 with
    | .error cause => r.2.trapWith { cause := cause, taddr := if cause / 16 = 1 then r.1 % 2 ^ 32 else 0 }
    | .ok (w, off) => f r.2 w off

/-- BINIT's operand rule (14 R348): reserved bits zero, EXPECT from 1 to 65,535, no GRP from a sequencer. -/
def State.binitOk (s : State) (v : Nat) : Bool :=
  let u := if bit v 17 then (s.groupCores s.cur.core).length else 0
  bits v 63 20 == 0 && !bit v 16 && !(bit v 17 && isSeq s.cur.core) && decide (1 ≤ v % 65536 + u ∧ v % 65536 + u ≤ 65535)

/-- BINIT (14 R348). -/
def execBinit (a n : Nat) (s : State) : Out :=
  s.withBarrier n (fun s w off =>
    if s.binitOk (s.rn a) = false then s.trap 0x82
    else if s.portBusy then s.waits
    else s.presentBar w off n 0 (.binit (s.rn a) 0))

/-- BARV (14 R349): the release part of FENCE, then the arrival. -/
def execBarv (n : Nat) (s : State) : Out :=
  s.withBarrier n (fun s w off => if s.portBusy then s.waits else (s.release s.cur.core true).presentBar w off n s.dirtySectors .barv)

/-- BDROP (14 R349). -/
def execBdrop (n : Nat) (s : State) : Out :=
  s.withBarrier n (fun s w off => if s.portBusy then s.waits else (s.release s.cur.core true).presentBar w off n s.dirtySectors .bdrop)

/-- BINVAL (14 R351). -/
def execBinval (n : Nat) (s : State) : Out :=
  s.withBarrier n (fun s w off => if s.portBusy then s.waits else s.presentBar w off n 0 .binval)

/-- BTIME (14 R352). -/
def execBtime (a n : Nat) (s : State) : Out :=
  s.withBarrier n (fun s w off => if s.portBusy then s.waits else s.presentBar w off n 0 (.btime (s.rn a)))

/-- The core's place is free again. -/
def State.portClear (s : State) (c : Nat) : State := s.modCore c (fun x => { x with port := none })

/-- BWAIT (14 R350): it stays unissued while its request is at the port or registered there; with the outcome, whose reply takes the time of a port operation where
it stood already (01 R32), it writes s[d] and performs the acquire part of FENCE. -/
def execBwait (d n : Nat) (s : State) : Out :=
  let c := s.cur.core
  match (s.core c).port with
  | some r =>
    match r.op with
    | .bwait _ _ =>
      if r.done = false then s.waits
      else
        match s.padOver c r.ent with
        | none => s.waits
        | some s1 =>
          if r.trap ≠ 0 then .next ((s1.portClear c).finish (.trapIssued { cause := r.trap }))
          else (((s1.portClear c).acquire c).putS d (BitVec.ofNat 64 r.result)).done
    | _ => s.waits
  | none =>
    if (s.core c).bwait.any (fun r => r.bar == n) then s.waits
    else
      s.withBarrier n (fun s w off =>
        let rec_ := s.cm.bar n
        let g := if rec_.a ∨ rec_.c = true then some rec_.g else none
        let q : PortReq := { owner := w, off := off, addr := s.accAddr c (s.barCtx c) w off, op := .bwait g (rec_.a && rec_.l), bar := n
                             ent := s.padEntry (portDelay c w) s.cur.ent }
        .next ((s.modCore c (fun x => { x with port := some q, bwait := none })).finish .wait))

/-- BWAIT_NOTIFICATION (14 R350): the port returns the outcome to the registered BWAIT of core `c`. -/
def execBwaitNotification (c : Nat) (s : State) : Out :=
  match (s.core c).bwait with
  | some r =>
    match r.result with
    | some (v, t) =>
      match s.strictAt c (t + 2000) with
      | some s1 =>
        let q : PortReq := { owner := r.owner, off := r.off, op := .bwait (some r.gen) r.late, ent := {}, bar := r.bar, done := true, result := v }
        .next (s1.modCore c (fun x => { x with bwait := none, port := some q }))
      | none => .next s
    | none => .next s
  | none => .next s

/-- The scalar register that a completed port operation writes, with its value (10 R262, 14 R348). -/
def PortReq.write (r : PortReq) : Option (Nat × Word) :=
  let h := (r.ent.lanes.headD 0).toNat
  match r.op with
  | .atomic _ t _ _ => some (bits h 24 19, atomicOld t r.result)
  | .binit _ _ => some (bits h 18 13, BitVec.ofNat 64 r.result)
  | _ => none

/-- The reply `r` reaches the CE of core `c`, which writes its register and makes the post; or, when the port refused the operation, the CE traps
at it, with ISSUED = 1 (10 R264, R265, 14 R343, R347). -/
def State.portReply (s : State) (c : Nat) (r : PortReq) : State :=
  let s2 := s.portClear c
  if r.trap ≠ 0 then s2.modMem c (fun m => (m.setQ 1 (r.ent :: m.q 1)).stop 1 { cause := r.trap, taddr := if r.trap / 16 = 1 then r.off else 0 })
  else s2.modMem c (fun m =>
    (match r.write with
      | some (d, v) => m.putS d v
      | none => m).postPrefix 1 r.ent.pfx)

/-- Whether a request is a BWAIT's. -/
def PortReq.isBwait (r : PortReq) : Bool :=
  match r.op with
  | .bwait _ _ => true
  | _ => false

/-- PORT_REPLY (10 R265, R266). -/
def execPortReply (c : Nat) (s : State) : Out :=
  match (s.core c).port with
  | some r =>
    if r.isBwait ∨ r.done = false then .next s
    else
      match s.padOver c r.ent with
      | none => .next s
      | some s1 => .next (s1.portReply c r)
  | none => .next s

end Sys2Proof.Machine
end

