-- ==== Sys2Proof/Machine/Scratch.lean ====
section
/-! DEFINITION. The scratchpad (12 R315 to R318): pinned pages, refills and evictions, the bytes of a member's scratch space; and the operand
rings that lie in it (09 R217 to R222). -/

namespace Sys2Proof.Machine

/-- The address of the backing of scratch page `page` of core `c` for context `x` (R315). -/
def State.backing (s : State) (x c page : Nat) : Nat :=
  let k := s.ctx x
  let o := (dieOf c + 8 - k.ad) % 8
  k.sbase + (o * 64 + coreOnDie c) * 0x1000000 + page * 0x10000

/-- The physical page that a core's context uses for scratch page `page`, with its record. -/
def Core.spage (x : Core) (page : Nat) : Option (Nat × SPage) := x.pages.find? (fun p => p.2.ctx == x.ctx && p.2.page == page)

/-- The physical page of a PINNED page. -/
def Core.pinnedAt (x : Core) (page : Nat) : Option Nat :=
  match x.spage page with
  | some (k, p) => if p.state = .pinned then some k else none
  | none => none

/-- The place in the physical scratchpad of a scratch virtual address whose page is pinned. -/
def Core.sphys (x : Core) (a : Nat) : Option Nat := (x.pinnedAt (a / 65536)).map (fun k => k * 65536 + a % 65536)

/-- The byte at scratch address `a` of core `c`. -/
def State.sbyte (s : State) (c a : Nat) : Byte :=
  match (s.core c).sphys a with
  | some p => mget (s.core c).scratch p
  | none => 0

/-- `n` bytes at scratch address `a`. -/
def State.sread (s : State) (c a n : Nat) : List Byte := (List.range n).map (fun i => s.sbyte c (a + i))

/-- Marks a sector of a page dirty. -/
def SPage.dirtySector (p : SPage) (k : Nat) : SPage := { p with dirty := addOnce p.dirty k }

/-- Writes bytes at scratch addresses of core `c`. -/
def State.sput (s : State) (c : Nat) (bs : List (Nat × Byte)) : State :=
  s.modCore c (fun x => bs.foldl (fun x b =>
    match x.pinnedAt (b.1 / 65536) with
    | some k =>
      { x with scratch := mset x.scratch (k * 65536 + b.1 % 65536) b.2
               pages := tset x.pages k ((tgetD x.pages k {}).dirtySector (b.1 % 65536 / 64)) }
    | none => x) x)

/-- Writes a run of bytes at scratch address `a`. -/
def State.swrite (s : State) (c a : Nat) (bs : List Byte) : State := s.sput c ((List.range bs.length).map (fun i => (a + i, bs.getD i 0)))

/-- The least recently accessed of a set of physical pages. -/
def oldestPage (l : List (Nat × SPage)) : Option Nat :=
  (l.foldl (fun (b : Option (Nat × SPage)) p => match b with
    | none => some p
    | some q => if p.2.last < q.2.last then some p else b) none).map (·.1)

/-- The first physical page of 48 that is free (R316). -/
def Core.freePage (x : Core) : Option Nat := (List.range 48).find? (fun k => (tget x.pages k).isNone)

/-- The scratch pages that a place lies in. -/
def Place.scratchPage (p : Place) : List Nat := match p with
  | .scratch a => [a / 65536]
  | _ => []

/-- The scratch pages of the next sector of a transfer, and of a bulk copy, in flight. -/
def Entry.nextPages (e : Entry) : List Nat := match (e.moves.getD [])[e.moved]? with
  | some m => m.src.scratchPage ++ m.dst.scratchPage
  | none => []
def Copy.nextPages (y : Copy) : List Nat :=
  let fn := (y.ent.lanes.headD 0).toNat
  (if bit fn 0 then [(y.dst + y.done) / 65536] else []) ++ (if bit fn 1 then [(y.src + y.done) / 65536] else [])

/-- The scratch pages with a sector request pending (R317). -/
def Core.pendingPages (x : Core) : List Nat :=
  ([5, 6].flatMap (fun g => (x.seat.mem.fl g).flatMap Entry.nextPages)) ++ x.seat.copies.flatMap (fun p => p.2.nextPages)

/-- The physical page that a refill evicts (R317): the oldest DEPARTED one, else the oldest PINNED one that is not held and has no sector request pending. -/
def Core.victim (x : Core) : Option Nat :=
  match oldestPage (x.pages.filter (fun p => p.2.state == .departed)) with
  | some k => some k
  | none => oldestPage (x.pages.filter (fun p => p.2.state == .pinned && !p.2.held && !(x.pendingPages.contains p.2.page)))

/-- Physical page `k` is written back (R316): with STRICT = 1 its dirty sectors count as a write (01 R32). -/
def Core.evict (x : Core) (k now : Nat) : Core :=
  let p := tgetD x.pages k {}
  { x with pages := tset x.pages k { p with state := .writingBack, due := if p.dirty = [] then 0 else now + 2000 + p.dirty.length } }

/-- Whether a scratch page is being written back. -/
def Core.wbPage (x : Core) (page : Nat) : Bool := match x.spage page with
  | some (_, p) => p.state == .writingBack
  | none => false

/-- Serves the pages that wait, in the order in which they were presented (R317): each takes a free physical page and refills; with none free, one page is
evicted for each that waits. A page that is being written back waits for that first. `n` bounds the steps. -/
def Core.serve (x : Core) (now n : Nat) : Core :=
  match n, x.wants with
  | 0, _ => x
  | _, [] => x
  | m + 1, w :: r =>
    if x.wbPage w.1 then x
    else
    match x.freePage with
    | some k =>
      ({ x with wants := r, refills := x.refills ++ [k]
                pages := tset x.pages k { ctx := x.ctx, page := w.1, pin := w.2.1, last := w.2.2, due := now + 3024 } } : Core).serve now m
    | none =>
      if x.wants.length ≤ (x.pages.filter (fun p => p.2.state == .writingBack)).length then x
      else
        match x.victim with
        | some k => (x.evict k now).serve now m
        | none => x

/-- As many steps as serving can take. -/
def Core.served (x : Core) (now : Nat) : Core := x.serve now (2 * x.wants.length + 48)

/-- An access presents an unpinned page: it starts its refill, or first the eviction that frees a physical page for it (R316, R317), behind what was presented
before it; `pin` marks a refill that PGPIN asked for. -/
def Core.touch (x : Core) (page now : Nat) (pin : Bool) : Core :=
  if (x.spage page).isSome ∧ x.wbPage page = false then x
  else
    ({ x with wants := if x.wants.any (fun w => w.1 == page) then x.wants.map (fun w => if w.1 = page then (w.1, w.2.1 || pin, w.2.2) else w)
                       else x.wants ++ [(page, pin, now)] } : Core).served now

/-- The pages of `n` bytes at address `a`. -/
def pagesOf (a n : Nat) : List Nat := if n = 0 then [] else (List.range ((a + n - 1) / 65536 + 1 - a / 65536)).map (fun i => a / 65536 + i)

/-- Records an access to pinned pages, which the least-recently-accessed order uses. -/
def Core.used (x : Core) (ps : List Nat) (now : Nat) : Core :=
  { x with pages := x.pages.map (fun p => if p.2.ctx = x.ctx ∧ p.2.state = .pinned ∧ ps.contains p.2.page = true then (p.1, { p.2 with last := now }) else p) }

/-- The pages of a list of ranges that are not pinned on core `c`. -/
def State.unpinned (s : State) (c : Nat) (rs : List (Nat × Nat)) : List Nat :=
  (rs.flatMap (fun r => pagesOf r.1 r.2)).filter (fun p => ((s.core c).pinnedAt p).isNone)

/-- Presents accesses to scratch ranges of core `c`: `none` when every page is pinned, else the state in which refills of the others run. -/
def State.present? (s : State) (c : Nat) (rs : List (Nat × Nat)) : Option State :=
  match s.unpinned c rs with
  | [] => none
  | ps => some (s.modCore c (fun x => ps.foldl (fun x p => x.touch p s.ptc false) x))

/-- Records an access to a scratch range of core `c`. -/
def State.usedRange (s : State) (c a n : Nat) : State := s.modCore c (fun x => x.used (pagesOf a n) s.ptc)

/-- Runs `f` once the scratch ranges it accesses are pinned; until then the instruction waits (R317). -/
def State.withScratch (s : State) (rs : List (Nat × Nat)) (f : State → Out) : Out :=
  let c := s.cur.core
  match s.present? c rs with
  | some s1 => s1.waits
  | none => f (s.modCore c (fun x => x.used (rs.flatMap (fun r => pagesOf r.1 r.2)) s.ptc))

/-- Bytes at address `a` with those in the listed 64-byte units zero. -/
def blankUnits (bs : List Byte) (a : Nat) (us : List Nat) : List Byte :=
  if us = [] then bs else ((List.range bs.length).zip bs).map (fun p => if us.contains ((a + p.1) / 64) then 0 else p.2)

/-- The 64-byte units of scratch addresses `a` to `a + n - 1` of core `c` that errors strike. -/
def State.scratchHits (s : State) (c a n : Nat) : List Nat :=
  s.ue.filterMap (fun k => match k with
    | .scratch w u => if w = c ∧ a / 64 ≤ u ∧ 64 * u < a + n then some u else none
    | _ => none)

/-- `n` bytes at scratch address `a` as an engine of core `c` reads them: a sector struck by an error reads as zeros, with a record
(09 R223, R227; 25 R497 CODE 6). -/
def State.sreadUe (s : State) (c a n : Nat) : List Byte × State :=
  let us := s.scratchHits c a n
  (blankUnits (s.sread c a n) a us,
    us.foldl (fun s u => s.errorRecord c (s.ctxOn c) 6 (((s.core c).sphys (64 * u)).getD 0 / 64 * 64) (64 * u) (u / 1024)) s)

/-- The bytes of `ps`, parts of memory each an address, a place and a length, as party `c` in context `x` reads them through `f`: a 64-byte unit that an error strikes reads as
zeros, with a record of code `code` (0 for that of the structure), and so does what does not answer (17 R409). -/
def State.memRead (s : State) (c x code which : Nat) (f : State → Loc → Nat → List Byte) (ps : List (Nat × Loc × Nat)) : List Byte × State :=
  ps.foldl (fun r p =>
    let l := p.2.1
    let us := r.2.ue.filterMap (fun k => match k with
      | .mem _ t u => if t = l.tgt ∧ l.pa / 64 ≤ u ∧ 64 * u < l.pa + p.2.2 then some u else none
      | _ => none)
    (r.1 ++ blankUnits (f s l p.2.2) l.pa us,
      us.foldl (fun s u =>
        s.memError c x (if code = 0 then ((s.memHit false { l with pa := 64 * u }).getD 1) else code) { l with pa := 64 * u } (p.1 + (64 * u - l.pa)) which)
        (r.2.noteUnreachable c x p.1 l))) ([], s)

/-- Reads the backing of a page: zeros and an error record when a page of it fails translation or an error strikes it (R318). Backing that lies on a TGT 1 or TGT 2
page is read and written there (DESIGN CHOICE, log entry 56). -/
def State.readBacking (s : State) (c x page : Nat) : List Byte × State :=
  let va := s.backing x c page
  match s.translateAll c x .write false ((List.range 16).map (fun i => va + 4096 * i)) with
  | (.error _, s1) => (List.replicate 65536 0, s1.errorRecord c x 6 (page * 65536) (page * 65536) page)
  | (.ok ls, s1) =>
    let ps := ((List.range 16).zip ls).map (fun q => (va + 4096 * q.1, q.2, 4096))
    match ls.find? (fun l => s1.ue.any (fun k => match k with
      | .mem _ t u => t == l.tgt && decide (l.pa / 4096 = u / 64)
      | _ => false)) with
    | some l => (List.replicate 65536 0, s1.errorAt (structDie c 6 l) c x 6 (page * 65536) (page * 65536) page)
    | none => s1.memRead c x 6 page (fun s l n => s.devRead c l n) ps

/-- Fills physical page `k` with bytes. -/
def fillPage (m : Mem) (k : Nat) (bs : List Byte) : Mem := mwrite m (k * 65536) bs

/-- A page that refills is PINNED with bytes `bs`, and HELD when PGPIN asked for it (R316). -/
def Core.refilled (x : Core) (k : Nat) (p : SPage) (bs : List Byte) (now : Nat) : Core :=
  { x with
    scratch := fillPage x.scratch k bs
    refills := x.refills.filter (fun j => j != k)
    pages := tset x.pages k { p with state := .pinned, held := p.pin, pin := false, dirty := [], last := now } }

/-- The time for which an entry has waited for a page that was presented at `since` is added to its strict time (01 R32). -/
def Entry.waited (e : Entry) (since now : Nat) : Entry := { e with t0 := e.t0 + (now - max e.t0 since) }

/-- The transfers whose next sector lies in a page that was presented at `since`, those behind them in their half, and such bulk copies have waited for its
refill (01 R32; DEDUCED, log entry 50). -/
def Core.waited (x : Core) (page since now : Nat) : Core :=
  let behind := fun (l : List Entry) => match l.findIdx? (fun e => e.nextPages.contains page) with
    | some i => l.take i ++ (l.drop i).map (fun e => e.waited since now)
    | none => l
  { x with seat := { x.seat with
      mem := { x.seat.mem with flight := tmap (fun g (l : List Entry) => if g = 5 ∨ g = 6 then behind l else l) x.seat.mem.flight }
      copies := tmap (fun _ (y : Copy) => if y.nextPages.contains page then { y with ent := y.ent.waited since now } else y) x.seat.copies } }

/-- The refill of physical page `k` completes on core `c`. -/
def State.refillDone (s : State) (c k : Nat) (p : SPage) : State :=
  let r := s.readBacking c p.ctx p.page
  r.2.modCore c (fun x => (if s.strict c then x.waited p.page p.last s.ptc else x).refilled k p r.1 s.ptc)

/-- SCRATCH_REFILL_COMPLETE (R316): the page holds its backing and is PINNED, and HELD when PGPIN asked for it. Refills complete in the order in which they were
presented (R317), with STRICT = 1 at their strict time (01 R32). -/
def execScratchRefillComplete (c page : Nat) (s : State) : Out :=
  match (s.core c).spage page with
  | some (k, p) =>
    if p.state = .refilling ∧ (s.core c).refills.head?.getD k = k then
      match s.strictAt c p.due with
      | none => .next s
      | some s0 => .next (s0.refillDone c k p)
    else .next s
  | none => .next s

/-- Writes a page's dirty sectors to its backing; a sector whose page fails translation is discarded and recorded as lost (R318). -/
def State.writeBacking (s : State) (c k : Nat) (p : SPage) : State :=
  p.dirty.foldl (fun s i =>
    let va := s.backing p.ctx c p.page + 64 * i
    match s.translate c p.ctx va .write false with
    | (.error _, s1) => s1.errorRecord c p.ctx 11 (p.page * 65536 + 64 * i) (p.page * 65536 + 64 * i) 0
    | (.ok l, s1) => (s1.noteUnreachable c p.ctx va l).performWrite c l (mread (s1.core c).scratch (k * 65536 + 64 * i) 64)) s

/-- A page leaves its physical page. -/
def Core.freeSpage (x : Core) (k : Nat) : Core :=
  { x with pages := tdel x.pages k, refills := x.refills.filter (fun j => j != k), scratch := x.scratch.filter (fun b => b.1 / 65536 != k) }

/-- SCRATCH_WRITEBACK_COMPLETE (R316): the write-back of the page is performed and its physical page is free for what waits; `page` is the physical page. -/
def execScratchWritebackComplete (c page : Nat) (s : State) : Out :=
  match tget (s.core c).pages page with
  | some p =>
    if p.state = .writingBack then
      match (if p.due = 0 then some s else s.strictAt c p.due) with
      | none => .next s
      | some s1 => .next ((s1.writeBacking c page p).modCore c (fun x => (x.freeSpage page).served s.ptc))
    else .next s
  | none => .next s

-- Operand rings (09 R217 to R221).

/-- Ring `q` of the executing member, when it is bound. -/
def State.ring (s : State) (q : Nat) : Option Ring := tget s.cm.rings q

/-- The scratch address of the `i`-th slot from HEAD, and of the one from TAIL. -/
def Ring.headAddr (r : Ring) (i : Nat) : Nat := r.base + (r.head + i) % r.n * r.slotb
def Ring.tailAddr (r : Ring) (i : Nat) : Nat := r.base + (r.tail + i) % r.n * r.slotb

/-- A push of `k` slots can begin (R219): no push is in flight and the slots from TAIL are FREE. -/
def Ring.canPush (r : Ring) (k : Nat) : Bool := r.pushBy == 0 && decide (r.count + k ≤ r.n)

/-- A pop of `k` slots can begin: no pop is in flight and the slots from HEAD are FILLED. -/
def Ring.canPop (r : Ring) (k : Nat) : Bool := r.popBy == 0 && decide (k ≤ r.count)

/-- A push of `k` slots completes (R218). -/
def Ring.pushed (r : Ring) (k : Nat) : Ring := { r with tail := (r.tail + k) % r.n, count := r.count + k, pushBy := 0, pushN := 0 }

/-- A pop of `k` slots completes (R218). -/
def Ring.popped (r : Ring) (k : Nat) : Ring := { r with head := (r.head + k) % r.n, count := r.count - k, popBy := 0, popN := 0 }

/-- Changes ring `q` of the executing member. -/
def Member.modRing (m : Member) (q : Nat) (f : Ring → Ring) : Member := { m with rings := tset m.rings q (f (tgetD m.rings q {})) }
def State.modRing (s : State) (q : Nat) (f : Ring → Ring) : State := s.modCm (fun m => m.modRing q f)

/-- A slot image padded with zeros to the slot's size (R220). -/
def slotImage (r : Ring) (bs : List Byte) : List Byte := bs ++ List.replicate (r.slotb - bs.length) 0

/-- Writes slot images from TAIL on and completes the push. -/
def State.pushSlots (s : State) (q : Nat) (r : Ring) (imgs : List (List Byte)) : State :=
  let s1 := ((List.range imgs.length).zip imgs).foldl (fun s p => s.swrite s.cur.core (r.tailAddr p.1) (slotImage r p.2)) s
  s1.modRing q (fun r => r.pushed imgs.length)

/-- The scratch ranges of `k` slots from HEAD or from TAIL. -/
def Ring.headRanges (r : Ring) (k : Nat) : List (Nat × Nat) := (List.range k).map (fun i => (r.headAddr i, r.slotb))
def Ring.tailRanges (r : Ring) (k : Nat) : List (Nat × Nat) := (List.range k).map (fun i => (r.tailAddr i, r.slotb))

end Sys2Proof.Machine
end

