-- ==== Sys2Proof/Machine/Cask.lean ====
section
/-! DEFINITION. Casks and the rack engine (11 R269 to R287, R299 to R302): cask headers and slices in memory, slots, settling, racking in and
out, snapshots, forks, rollback and commit. -/

namespace Sys2Proof.Machine

/-- The party that performs a KE operation: a core or sequencer, or the dispatcher for CASKOP; its context; and the layout in force (R279). -/
structure KeBy where
  party : Nat
  ctx : Nat
  layout : Option (Nat × Nat) := none
  deriving DecidableEq, Repr

/-- A cask header (R269) with its handle and place. -/
structure CaskHdr where
  h : Nat
  loc : Loc
  commit : Nat
  hflags : Nat
  parent : Nat
  ctl : Nat
  nl : Nat
  bankb : Nat
  rsv : Bool
  deriving DecidableEq, Repr

/-- `n` bytes read by a KE operation at a place. -/
def State.keRead (s : State) (k : KeBy) (l : Loc) (n : Nat) : List Byte :=
  s.partyRead k.party l n

/-- Bytes written by a KE operation, performed. -/
def State.keWrite (s : State) (k : KeBy) (l : Loc) (bs : List Byte) : State :=
  if k.party < 520 then s.performWrite k.party l bs else s.systemWrite k.party l bs

/-- The addresses of the 4 KiB pages that `n` bytes at `va` touch: for each its first byte within the range. -/
def pageStarts (va n : Nat) : List Nat :=
  if n = 0 then [] else (List.range ((va + n - 1) / 4096 + 1 - va / 4096)).map (fun i => if i = 0 then va else (va / 4096 + i) * 4096)

/-- Translates every page of `n` bytes at `va`; casks accept no slab address (12 R319). The result holds one place for each page. -/
def State.kePages (s : State) (k : KeBy) (kind : Access) (va n : Nat) : Except Trap (List Loc) × State :=
  s.translateAll k.party k.ctx kind false (pageStarts va n)

/-- The place of byte `i` of a range at `va` whose pages stand at `ls`. -/
def placeIn (va : Nat) (ls : List Loc) (i : Nat) : Loc :=
  let p := (va + i) / 4096 - va / 4096
  (ls.getD p {}).add (if p = 0 then i else (va + i) % 4096)

/-- Rows 2 and 3 of R279 on a handle. -/
def handleErr (h : Nat) : Option (Nat × Trap) :=
  if 2 ^ 56 ≤ h ∨ h / 2 ^ 48 = 255 then some (2, { cause := 0x10, taddr := h })
  else if h % 64 ≠ 0 then some (3, { cause := 0x13, taddr := h })
  else none

/-- The error of the first row of R279 that applies. -/
def firstErr (l : List (Nat × Trap)) : Option Trap :=
  (l.foldl (fun (b : Option (Nat × Trap)) e => match b with
    | none => some e
    | some x => if e.1 < x.1 then some e else some x) none).map (·.2)

/-- The fields of a header's bytes. -/
def parseHdr (h : Nat) (l : Loc) (bs : List Byte) : CaskHdr :=
  let f := fun (o n : Nat) => leNat ((bs.drop o).take n)
  { h := h, loc := l, commit := f 8 4, hflags := f 12 4, parent := f 16 8, ctl := f 24 4, nl := f 28 2, bankb := f 32 4
    rsv := decide (8 ≤ f 12 4) || f 30 2 != 0 || f 36 28 != 0 }

/-- Bytes of a slice. -/
def CaskHdr.sliceb (x : CaskHdr) : Nat := 64 + 2 * x.bankb

/-- The address of slice `L` of a cask. -/
def CaskHdr.slice (x : CaskHdr) (L : Nat) : Nat := x.h + 64 + L * x.sliceb

/-- The place of the control block that a CTL word names, or the cause of row 6. -/
def State.ctlPlace (s : State) (k : KeBy) (ctl nl : Nat) : Except Nat (Nat × Nat) :=
  match s.accPlace (if k.party < 520 then k.party else 0) k.ctx ctl with
  | .error c => .error c
  | .ok (w, off) => if bit ctl 31 ∨ ctl % 16 ≠ 0 ∨ 0x100000 < off + 16 + 4 * nl then .error 0x12 else .ok (w, off)

/-- The place of a header's control block. -/
def State.ctlOf (s : State) (k : KeBy) (x : CaskHdr) : Nat × Nat :=
  match s.ctlPlace k x.ctl x.nl with
  | .ok p => p
  | .error _ => (0, 0)

/-- A port overwrite of a control-block word, with the refusals so far. -/
def ctlPut (x : Bool × State) (w off v : Nat) : Bool × State :=
  let r := x.2.portPut w off 4 v
  (x.1 || !r.1, r.2)

/-- A control-block word at byte `i` of the block, as a KE or SE operation reads it at its port (10 R245). -/
def State.ctlRead (s : State) (k : KeBy) (ctl : Nat × Nat) (i : Nat) : Nat × State := s.portRead k.party k.ctx ctl.1 (ctl.2 + i) 4

/-- A control-block word that the operation has read or written before, as it stands at its port now. -/
def State.ctlVal (s : State) (ctl : Nat × Nat) (i : Nat) : Nat := s.portVal ctl.1 (ctl.2 + i) 4

/-- Reads a control-block word at its port and overwrites it with `f` of it, with the refusals so far: the word read comes first. -/
def ctlUpdate (x : Bool × State) (k : KeBy) (ctl : Nat × Nat) (i : Nat) (f : Nat → Nat) : Nat × Bool × State :=
  let r := x.2.ctlRead k ctl i
  (r.1, ctlPut (x.1, r.2) ctl.1 (ctl.2 + i) (f r.1))

/-- Sets STATE.DAMAGED (R301), with the refusals so far (14 R343). -/
def markDamaged (x : Bool × State) (k : KeBy) (ctl : Nat × Nat) : Bool × State := (ctlUpdate x k ctl 8 (fun v => setBits v 30 30 1)).2

/-- An uncorrectable error in what a KE operation reads at a place (R301): its error record names the handle and layer. -/
def State.keError (s : State) (k : KeBy) (h layer : Nat) (l : Loc) : Bool × State :=
  if (s.memHit false l).isSome then (true, s.memError k.party k.ctx 5 l h layer) else (false, s)

/-- STATE.DAMAGED of the cask whose header an error strikes (R301), where its CTL names a control block; the header itself reads as zeros, which row 5
of R279 then refuses (DEDUCED, log entry 25). -/
def State.headDamaged (s : State) (k : KeBy) (x : CaskHdr) : State :=
  match s.ctlPlace k x.ctl x.nl with
  | .ok p => (markDamaged (false, s) k p).2
  | .error _ => s

/-- Reads the header of a handle: rows 2 to 4. -/
def State.keHeader (s : State) (k : KeBy) (kind : Access) (h : Nat) : Except (Nat × Trap) CaskHdr × State :=
  match handleErr h with
  | some e => (.error e, s)
  | none =>
    match s.translate k.party k.ctx h kind false with
    | (.error t, s1) => (.error (4, t), s1)
    | (.ok l, s1) =>
      let x := parseHdr h l (s1.keRead k l 64)
      let (bad, s2) := (s1.noteUnreachable k.party k.ctx h l).keError k h 0 l
      if bad then (.ok (parseHdr h l (List.replicate 64 0)), s2.headDamaged k x) else (.ok x, s2)

/-- Reads headers of several handles; every handle's rows 2 and 3 come before row 4 of any. -/
def State.keHeaders (s : State) (k : KeBy) (hs : List (Nat × Access)) : List (Nat × Trap) × List CaskHdr × State :=
  match hs with
  | [] => ([], [], s)
  | (h, kind) :: r =>
    let (x, s1) := s.keHeader k kind h
    let (es, xs, s2) := s1.keHeaders k r
    match x with
    | .error e => (e :: es, xs, s2)
    | .ok c => (es, c :: xs, s2)

/-- Row 5 of R279 on a header. -/
def CaskHdr.ok (x : CaskHdr) (k : KeBy) : Bool :=
  !x.rsv && decide (1 ≤ x.nl ∧ x.nl ≤ 4096) && decide (1 ≤ x.bankb) && x.bankb % 64 == 0 &&
    (match k.layout with
      | some p => p == (x.nl, x.bankb)
      | none => true)

/-- Rows 5 and 6 of R279 over the headers an instruction uses; `pair` says whether two casks must have one layout. -/
def State.hdrErrs (s : State) (k : KeBy) (xs : List CaskHdr) (pair : Bool) : List (Nat × Trap) :=
  (if xs.all (fun x => x.ok k) then [] else [(5, ({ cause := 0x70 } : Trap))])
    ++ (match pair, xs with
      | true, x :: y :: _ => if x.nl = y.nl ∧ x.bankb = y.bankb then [] else [(5, { cause := 0x70 })]
      | _, _ => [])
    ++ xs.filterMap (fun x => match s.ctlPlace k x.ctl x.nl with
      | .error c => some (6, ({ cause := c, taddr := x.ctl } : Trap))
      | .ok _ => none)

/-- The outcome of a KE operation: a trap before issue, the instruction not issuing yet, or its result word with the state, whether a write to
a control-block word was refused (14 R343), and its strict delay (01 R32). -/
inductive KeOut where
  | trap (t : Trap) (s : State)
  | wait (s : State)
  | fin (r : Nat) (refused : Bool) (s : State) (due : Nat × Nat)

/-- An access of a TGT 1 or TGT 2 page counts STRICTMISS, once for the instruction (01 R32). -/
def State.farMiss (s : State) (c : Nat) (ls : List Loc) : State := if ls.any (fun l => l.tgt != 0) then s.strictMiss c else s

/-- The result layout of R278. -/
def keWord (status v : Nat) : Nat := status * 2 ^ 56 + v % 2 ^ 32

/-- A slice header's words: BSTEP of the current bank, whether SHARED, SRC. -/
def curOf (bs : List Byte) : Nat := leNat ((bs.drop 8).take 1) % 2
def bstepOf (bs : List Byte) (b : Nat) : Nat := leNat ((bs.drop (4 * b)).take 4)
def stepOf (bs : List Byte) : Nat := bstepOf bs (curOf bs)
def sharedOf (bs : List Byte) : Bool := bit (leNat ((bs.drop 8).take 1)) 1
def srcOf (bs : List Byte) : Nat := leNat ((bs.drop 16).take 8)

/-- Settling a slice (R276) against COMMITW: the new CUR byte and MIRROR value when the slice changes. -/
def settleOf (bs : List Byte) (cw : Nat) : Option (Nat × Nat) :=
  if cw < stepOf bs then
    let f := leNat ((bs.drop 8).take 1)
    some (setBits f 0 0 (1 - curOf bs), bstepOf bs (1 - curOf bs))
  else none

/-- Translates the slice headers of layers `ls`. -/
def State.sliceHeads (s : State) (k : KeBy) (kind : Access) (x : CaskHdr) (ls : List Nat) : Except Trap (List Loc) × State :=
  s.translateAll k.party k.ctx kind false (ls.map x.slice)

/-- Reads the slice header of layer `L` at a place: zeros with an error record, and DAMAGED set, when an error strikes it. -/
def readSlice (x : Bool × State) (k : KeBy) (ctl : Nat × Nat) (h L : Nat) (l : Loc) : List Byte × (Bool × State) :=
  let (bad, s1) := (x.2.noteUnreachable k.party k.ctx h l).keError k h L l
  if bad then (List.replicate 64 0, markDamaged (x.1, s1) k ctl) else (s1.keRead k l 64, (x.1, s1))

/-- Settles every slice of a cask in HBM (R276, R283, R286); `ls` are the places of its slice headers. -/
def State.settleAll (s : State) (k : KeBy) (x : CaskHdr) (ctl : Nat × Nat) (cw : Nat) (ls : List Loc) : Bool × State :=
  ((List.range ls.length).zip ls).foldl (fun r p =>
    let (bs, r1) := readSlice r k ctl x.h p.1 p.2
    match settleOf bs cw with
    | some (f, m) => ctlPut (r1.1, r1.2.keWrite k (p.2.add 8) (leBytes 1 f)) ctl.1 (ctl.2 + 16 + 4 * p.1) m
    | none => r1) (false, s)

/-- KSNAP (R283) when `snap`, KROLL.p (R286) otherwise, once its checks pass. -/
def State.snapOp (s : State) (k : KeBy) (x : CaskHdr) (ls : List Loc) (snap : Bool) : KeOut :=
  let ctl := s.ctlOf k x
  let (st, s0) := s.ctlRead k ctl 8
  let (cw, s1) := s0.ctlRead k ctl 4
  let code := if st % 65536 ≠ 0 then 1 else if snap ∧ bit st 31 = true then 4 else if snap ∧ bit st 30 = true then 5 else 0
  let due := strictDelay k.party ctl.1 (1 + ls.length)
  if code ≠ 0 then .fin (keWord code cw) false s1 due
  else
    let r := s1.settleAll k x ctl cw ls
    if snap = false then .fin (keWord 0 cw) r.1 r.2 due
    else
      let r1 := ctlPut r ctl.1 (ctl.2 + 8) (setBits (r.2.ctlVal ctl 8) 31 31 1)
      let r2 := ctlPut r1 ctl.1 ctl.2 1
      .fin (keWord 0 cw) r2.1 (r2.2.keWrite k (x.loc.add 12) (leBytes 4 (setBits x.hflags 0 0 1))) due

/-- Takes a reference on a snapshot and rewrites `c` as its fork (R284): STATUS, refusals and the state. `lp` and `lc` are the places of the slice
headers of parent and child. -/
def State.forkOp (s : State) (k : KeBy) (p c : CaskHdr) (lp lc : List Loc) : Nat × Bool × State :=
  let pc := s.ctlOf k p
  let cc := s.ctlOf k c
  let (st, s0) := s.ctlRead k pc 8
  if bit st 31 = false then (4, false, s0)
  else
  let (old, s1) := s0.ctlRead k pc 0
  if 0x7FFFFFFF ≤ old then (2, false, s1)
  else
    let r0 := ctlPut (false, s1) pc.1 pc.2 (old + 1)
    let (cw, s1) := r0.2.ctlRead k pc 4
    let (mir, s1) := (List.range p.nl).foldl (fun r L =>
      let (v, s') := r.2.ctlRead k pc (16 + 4 * L)
      (r.1 ++ [v], s')) (([] : List Nat), s1)
    let s2 := ((List.range p.nl).zip (lp.zip lc)).foldl (fun r x =>
      let (bs, r1) := readSlice r k pc p.h x.1 x.2.1
      let f := leNat ((bs.drop 8).take 1)
      (r1.1, r1.2.keWrite k x.2.2 (bs.take 8 ++ leBytes 1 (setBits f 1 1 1) ++ (bs.drop 9).take 7
        ++ leBytes 8 (if sharedOf bs then srcOf bs else p.h) ++ bs.drop 24))) (r0.1, s1)
    let s3 := s2.2.keWrite k (c.loc.add 8) (leBytes 4 p.commit ++ leBytes 4 4 ++ leBytes 8 p.h)
    let r1 := [(0, 0), (4, cw), (8, 0)].foldl (fun r x => ctlPut r cc.1 (cc.2 + x.1) x.2) (s2.1, s3)
    let r2 := ((List.range p.nl).zip mir).foldl (fun r x => ctlPut r cc.1 (cc.2 + 16 + 4 * x.1) x.2) r1
    (0, r2.1, r2.2)

/-- The kinds of the two-cask operations. -/
inductive ForkKind where
  | kfork | krollS
  deriving DecidableEq, Repr

/-- KFORK (R284) and KROLL.s (R286) once their checks pass: `p` is the parent, `c` the child, `xo` the header of the former PARENT. -/
def State.keForkRun (s : State) (k : KeBy) (kind : ForkKind) (p c : CaskHdr) (xo : List CaskHdr) (lp lc : List Loc) : KeOut :=
  let cc := s.ctlOf k c
  let due := strictDelay k.party cc.1 (2 + lp.length)
  match kind with
  | .kfork =>
    let (st, bad, s1) := s.forkOp k p c lp lc
    let (cw, s2) := if st = 0 then (s1.ctlVal cc 4, s1) else s1.ctlRead k cc 4
    .fin (keWord st cw) bad s2 due
  | .krollS =>
    let (w, s0) := s.ctlRead k cc 8
    let (cw, s1) := s0.ctlRead k cc 4
    if w % 65536 ≠ 0 then .fin (keWord 1 cw) false s1 due
    else if bit w 31 then .fin (keWord 4 cw) false s1 due
    else
      let (st, bad, s2) := s1.forkOp k p c lp lc
      let r := match st, xo with
        | 0, o :: _ =>
          (ctlUpdate (bad, s2) k (s2.ctlOf k o) 0 (fun v => if v ≠ 0 ∧ v < 2 ^ 31 then v - 1 else v)).2
        | _, _ => (bad, s2)
      .fin (keWord st (r.2.ctlVal cc 4)) r.1 r.2 due

/-- The error of a header that was read, as a list. -/
def errOf (x : Except (Nat × Trap) CaskHdr) : List (Nat × Trap) :=
  match x with
  | .error e => [e]
  | .ok _ => []

/-- KFORK (R284) and KROLL.s (R286) of handles `a` and `b`. -/
def State.keFork (s : State) (k : KeBy) (kind : ForkKind) (a b : Nat) : KeOut :=
  let child := match kind with
    | .kfork => b
    | .krollS => a
  let parent := match kind with
    | .kfork => a
    | .krollS => b
  let (rp, s1) := s.keHeader k .read parent
  let (rc, s2) := s1.keHeader k .write child
  let old := match kind, rc with
    | .krollS, .ok c => if c.parent = 0 then [] else [(c.parent, Access.read)]
    | _, _ => []
  let (eo, xo, s3) := s2.keHeaders k old
  match firstErr (errOf rp ++ errOf rc ++ eo), rp, rc with
  | some t, _, _ => .trap t s3
  | none, .ok p, .ok c =>
    let (lp, s4) := s3.sliceHeads k .read p (List.range p.nl)
    let (lc, s5) := s4.sliceHeads k .write c (List.range c.nl)
    match lp, lc with
    | .error t, _ => .trap t s5
    | .ok _, .error t => .trap t s5
    | .ok lp, .ok lc =>
      match firstErr (s5.hdrErrs k ([p, c] ++ xo) true) with
      | some t => .trap t s5
      | none => (s5.farMiss k.party (p.loc :: c.loc :: lp ++ lc)).keForkRun k kind p c xo lp lc
  | none, _, _ => .wait s3

/-- The operations on one cask in memory: KSNAP, KROLL.p, KCOMMIT, KATTACH, KDETACH, KSTAT.cask. -/
inductive CaskKind where
  | ksnap | krollP | kcommit | kattach | kdetach | kstat
  deriving DecidableEq, Repr

/-- KCOMMIT reads MIRROR(L) at the port (R286): whether every one so far is at least `N`. -/
def State.mirrorAt (s : State) (k : KeBy) (N : Nat) (ctl : Nat × Nat) (ok : Bool) (L : Nat) : Bool × State :=
  let r := s.ctlRead k ctl (16 + 4 * L)
  (ok && decide (N ≤ r.1), r.2)

/-- The end of KCOMMIT (R286), with every MIRROR(L) read: `l` is the place of the header. -/
def State.commitEnd (s : State) (k : KeBy) (l : Loc) (ctl : Nat × Nat) (N : Nat) (ok : Bool) : KeOut :=
  let due := strictDelay k.party ctl.1 1
  if ok then
    let r := ctlPut (false, s) ctl.1 (ctl.2 + 4) N
    .fin (keWord 0 (r.2.ctlVal ctl 4)) r.1 (r.2.keWrite k (l.add 8) (leBytes 4 N)) due
  else .fin (keWord 3 (s.ctlVal ctl 4)) false s due

/-- Such an operation on handle `a` (R281 to R286); `n` is KCOMMIT's N. -/
def State.keCask (s : State) (k : KeBy) (kind : CaskKind) (a n : Nat) : KeOut :=
  let settles := kind = .ksnap ∨ kind = .krollP
  let writes := kind = .ksnap ∨ kind = .kcommit
  let (hx, s1) := s.keHeader k (if writes then .write else .read) a
  match hx with
  | .error e => .trap e.2 s1
  | .ok x =>
    let (ls, s2) := if settles then s1.sliceHeads k .write x (List.range x.nl) else (.ok [], s1)
    match ls with
    | .error t => .trap t s2
    | .ok ls =>
      match firstErr (s2.hdrErrs k [x] false) with
      | some t => .trap t s2
      | none =>
        let ctl := s2.ctlOf k x
        let s2 := s2.farMiss k.party (x.loc :: ls)
        let due := strictDelay k.party ctl.1 1
        match kind with
        | .ksnap => s2.snapOp k x ls true
        | .krollP => s2.snapOp k x ls false
        | .kstat =>
          let (st, s3) := s2.ctlRead k ctl 8
          let (cw, s4) := s3.ctlRead k ctl 4
          .fin (st * 2 ^ 32 + cw) false s4 due
        | .kattach =>
          let (v, r) := ctlUpdate (false, s2) k ctl 0 (fun v => if v < 0x7FFFFFFF then v + 1 else v)
          .fin v r.1 r.2 due
        | .kdetach =>
          let (v, r) := ctlUpdate (false, s2) k ctl 0 (fun v => if v ≠ 0 ∧ v < 2 ^ 31 then v - 1 else v)
          .fin v r.1 r.2 due
        | .kcommit =>
          let (c, s3) := s2.ctlRead k ctl 4
          if n % 2 ^ 32 ≤ c then .fin (keWord 0 c) false s3 due
          else
            let (ok, s4) := (List.range x.nl).foldl (fun r L => r.2.mirrorAt k (n % 2 ^ 32) ctl r.1 L) (true, s3)
            s4.commitEnd k x.loc ctl (n % 2 ^ 32) ok

-- Slots (R273, R274).

/-- Slot `n` of the cask store of core `w`; an absent record is an EMPTY slot. -/
def State.slot (s : State) (w n : Nat) : Slot := tgetD (s.seat w).slots n {}
def State.setSlot (s : State) (w n : Nat) (x : Slot) : State := s.modSeat w (fun y => { y with slots := tset y.slots n x })

/-- Bytes of a slice of a slot, the cask-store offset of layer `L`, the layers. -/
def Slot.sliceb (x : Slot) : Nat := 64 + 2 * x.bankb
def Slot.base (x : Slot) (L : Nat) : Nat := x.off * 64 + (L - x.first) * x.sliceb
def Slot.layers (x : Slot) : List Nat := (List.range (x.nl + 1)).map (· + x.first)

/-- The slice header of layer `L` in the slot. -/
def State.slotHead (s : State) (w : Nat) (x : Slot) (L : Nat) : List Byte := mread (s.seat w).cask (x.base L) 64

/-- LSTEP of layer `L` (R270). -/
def State.lstep (s : State) (w : Nat) (x : Slot) (L : Nat) : Nat := stepOf (s.slotHead w x L)

/-- The cask-store offset of byte `i` of the current bank (`pend` false) or the pending bank of layer `L`. -/
def State.bankAt (s : State) (w : Nat) (x : Slot) (L : Nat) (pend : Bool) (i : Nat) : Nat :=
  let cur := curOf (s.slotHead w x L)
  x.base L + 64 + (if pend then 1 - cur else cur) * x.bankb + i

/-- Writes bytes of a core's cask store. -/
def State.caskPut (s : State) (w off : Nat) (bs : List Byte) : State := s.modSeat w (fun y => { y with cask := mwrite y.cask off bs })

/-- The control block of a slot's cask, for party `k`: the CTL that KRIN read (R279: "the values so read are the ones that the instruction then uses"; R274
holds no CTL, and that flips, settles and KROUT use this one is DEDUCED, log entry 25). A CTL that no longer resolves is taken as core 0, OFFSET 0 (log entry 25). -/
def State.slotCtl (s : State) (k : KeBy) (x : Slot) : Nat × Nat :=
  match s.ctlPlace k x.ctl x.nlayers with
  | .ok p => p
  | .error _ => (0, 0)

/-- Settles every layer of a slot (R276) against `cw`, the COMMITW that was read at the port, and drops its WSET and PN. -/
def State.settleSlot (s : State) (w n : Nat) (ctl : Nat × Nat) (cw : Nat) : Bool × State :=
  let x := s.slot w n
  let s0 := s.setSlot w n { x with wset := [], pn := [] }
  x.layers.foldl (fun r L =>
    match settleOf (r.2.slotHead w x L) cw with
    | some (f, m) => ctlPut (r.1, r.2.caskPut w (x.base L + 8) (leBytes 1 f)) ctl.1 (ctl.2 + 16 + 4 * L) m
    | none => r) (false, s0)

/-- The pairs of segment `g` of a bank of `bankb` bytes: 512, or what is left (R272). -/
def pairsIn (bankb g : Nat) : Nat := min 512 (bankb / 8 - 512 * g)

/-- The errors that strike pairs of a segment that the SE reads (R301): for each a record, with STATE.DAMAGED and the slot's DAMAGED. The result is the pairs,
whether the write of STATE was refused, and the state. -/
def State.notePairs (s : State) (k : KeBy) (w n lay g : Nat) (pend : Bool) : List Nat × Bool × State :=
  let x := s.slot w n
  let at_ := fun (e : Nat) => s.bankAt w x lay pend (4096 * g + 8 * e)
  let es := (List.range (pairsIn x.bankb g)).filter (fun e => s.hit (.pair w (at_ e / 8)))
  if es = [] then ([], false, s)
  else
    let s1 := es.foldl (fun s e => s.errorRecord k.party k.ctx 5 (at_ e / 64 * 64) x.handle lay) s
    let r := markDamaged (false, s1) k (s.slotCtl k x)
    (es, r.1, r.2.setSlot w n { r.2.slot w n with damaged := true })

/-- A flip copies segment `g` of bank CUR of layer `L` to the other bank (R275): the pairs that an error strikes as zeros (R301). The refusals so far come along. -/
def copySegment (r : Bool × State) (k : KeBy) (w n L g : Nat) : Bool × State :=
  let (bad, refused, s) := r.2.notePairs k w n L g false
  let x := s.slot w n
  let bs := bad.foldl (fun bs e => bs.take (8 * e) ++ List.replicate 8 0 ++ bs.drop (8 * e + 8))
    (mread (s.seat w).cask (s.bankAt w x L false (4096 * g)) (8 * pairsIn x.bankb g))
  (r.1 || refused, s.caskPut w (s.bankAt w x L true (4096 * g)) bs)

/-- Flip of layer `L` (R275), with whether a write of a control-block word was refused. -/
def State.flipLayer (s : State) (k : KeBy) (w n L : Nat) (ctl : Nat × Nat) : Bool × State :=
  let ws := tgetD (s.slot w n).wset L []
  let (bad, s1) := (List.range (cdiv (s.slot w n).bankb 4096)).foldl (fun r g => if has ws g then r else copySegment r k w n L g) (false, s)
  let x := s1.slot w n
  let cur := curOf (s1.slotHead w x L)
  let v := (s1.lstep w x L + tgetD x.pn L 0) % 2 ^ 32
  let s2 := (s1.caskPut w (x.base L + 4 * (1 - cur)) (leBytes 4 v)).caskPut w (x.base L + 8)
    (leBytes 1 (setBits (leNat (((s1.slotHead w x L).drop 8).take 1)) 0 0 (1 - cur)))
  ctlPut (bad, s2.setSlot w n { x with wset := tdel x.wset L, pn := tdel x.pn L }) ctl.1 (ctl.2 + 16 + 4 * L) v

/-- STATE of a slot status (R281). -/
def SlotState.code (x : SlotState) : Nat :=
  match x with
  | .empty => 0 | .rackingIn => 1 | .resident => 2 | .active => 3 | .rackingOut => 4

/-- A slot status (R281). -/
def State.slotStatus (s : State) (w n : Nat) : Nat :=
  let x := s.slot w n
  if x.state = .empty then 0
  else s.lstep w x x.first * 2 ^ 32 + x.first * 2 ^ 12 + b2n x.damaged * 16 + b2n x.snap * 8 + x.state.code

/-- Whether one of a core's 8 rack channels is free (R280). -/
def State.rackFree (s : State) (w : Nat) : Bool := decide (((s.seat w).slots.filter (fun p => p.2.racking)).length < 8)

/-- The core whose cask store a slot descriptor names (R273, R279). -/
def State.slotCore (s : State) (v : Nat) : Nat :=
  let c := s.cur.core
  if isSeq c then (c - 512) * 64 + v / 2 ^ 58 else c

/-- The party that the executing instruction is. -/
def State.keParty (s : State) : KeBy :=
  let c := s.cur.core
  let kn := s.cm.kern
  { party := c, ctx := s.xctx c, layout := if kn.caskn = 0 then none else some (kn.nlayers, kn.bankb) }

/-- Whether the core's place for a port operation is taken (10 R266). -/
def State.placeTaken (s : State) (c : Nat) : Bool := (s.core c).port.isSome

/-- Check 1 of R279 for an instruction other than KATTACH, KDETACH and KSTAT, then `f` once the core's place at a port is free. -/
def State.keGate (s : State) (exempt : Bool) (f : KeBy → Out) : Out :=
  if s.cm.kern.caskn = 0 ∧ exempt = false then s.trap 0x70
  else if s.placeTaken s.cur.core then s.waits
  else f s.keParty

/-- Ends a KE instruction with its result word (R278); after a refused control-block word it traps BARRIER_STORE as completed (14 R343). -/
def State.keEnd (s : State) (d : Nat) (o : KeOut) : Out :=
  match o with
  | .trap t s1 => s1.trapWith t
  | .wait _ => s.waits
  | .fin r refused s1 due =>
    let s2 := s1.putS d (BitVec.ofNat 64 r)
    if refused then .next (s2.finish (.trapDone { cause := 0x80 })) else s2.padFor due

/-- KSNAP (R283). -/
def execKsnap (d a : Nat) (s : State) : Out := s.keGate false (fun k => s.keEnd d (s.keCask k .ksnap (s.rn a) 0))

/-- KFORK (R284). -/
def execKfork (d a b : Nat) (s : State) : Out := s.keGate false (fun k => s.keEnd d (s.keFork k .kfork (s.rn a) (s.rn b)))

/-- KROLL.p (R286). -/
def execKrollP (d a : Nat) (s : State) : Out := s.keGate false (fun k => s.keEnd d (s.keCask k .krollP (s.rn a) 0))

/-- KROLL.s (R286). -/
def execKrollS (d a b : Nat) (s : State) : Out := s.keGate false (fun k => s.keEnd d (s.keFork k .krollS (s.rn a) (s.rn b)))

/-- The executing instruction has issued and stays at the head of its queue, where each issue turn runs it again until it completes. -/
def State.lingers (s : State) : Out :=
  let g := engCode s.cur.eng
  let e := s.cur.ent
  .next ((s.modCm (fun m => (m.issueWaits g e (prefixWaits e.pfx)).setHead g { e with issued := true })).finish .idle)

/-- The numbers that a KCOMMIT in flight keeps: N, the layer it reads next, how many there are, whether every MIRROR so far is at least N, the place of the
control block, that of the header, and the handle, whose translation it holds (12 R313). -/
def commitList (N L nl : Nat) (ok : Bool) (ctl : Nat × Nat) (l : Loc) (h : Nat) : List Nat :=
  [N, L, nl, b2n ok, ctl.1, ctl.2, l.tgt, l.pa, l.key, l.scope, h]

/-- KCOMMIT's checks, its read of COMMITW and, when that is below N, its issue (R286). -/
def State.commitIssue (s : State) (k : KeBy) (d a n : Nat) : Out :=
  let (hx, s1) := s.keHeader k .write a
  match hx with
  | .error e => s1.trapWith e.2
  | .ok x =>
    match firstErr (s1.hdrErrs k [x] false) with
    | some t => s1.trapWith t
    | none =>
      let ctl := s1.ctlOf k x
      let (c, s2) := (s1.farMiss k.party [x.loc]).ctlRead k ctl 4
      if n % 2 ^ 32 ≤ c then s.keEnd d (.fin (keWord 0 c) false s2 (strictDelay k.party ctl.1 1))
      else (s2.modEnt (fun e => { s.padEntry (portDelay k.party ctl.1) e with opv := commitList (n % 2 ^ 32) 0 x.nl true ctl x.loc a, era := s2.nextId })).lingers

/-- One more turn of a KCOMMIT in flight: a MIRROR word, and after the last the outcome. Flips, settles and other KCOMMITs of other cores may stand between two
turns (R287). -/
def State.commitStep (s : State) (d : Nat) : Out :=
  let v := fun (i : Nat) => s.cur.ent.opv.getD i 0
  let ctl := (v 4, v 5)
  let l : Loc := { tgt := v 6, pa := v 7, key := v 8, scope := v 9, va := v 10 }
  if v 1 < v 2 then
    let (ok, s1) := s.mirrorAt s.keParty (v 0) ctl (v 3 == 1) (v 1)
    (s1.modEnt (fun e => { s.padEntry (portDelay s.cur.core ctl.1) e with opv := commitList (v 0) (v 1 + 1) (v 2) ok ctl l (v 10) })).lingers
  else s.keEnd d (s.commitEnd s.keParty l ctl (v 0) (v 3 == 1))

/-- KCOMMIT (R286): one port operation a turn, while the core's place at a port is free (10 R266); with STRICT = 1 each reply comes at its strict time, and the
next operation is made then (01 R32; DEDUCED, log entry 25). -/
def execKcommit (d a b : Nat) (s : State) : Out :=
  if s.cur.ent.issued then
    if s.placeTaken s.cur.core then s.waits
    else
      match s.padOver s.cur.core s.cur.ent with
      | none => s.waits
      | some s1 => s1.commitStep d
  else s.keGate false (fun k => s.commitIssue k d (s.rn a) (s.rn b))

/-- KATTACH (R285). -/
def execKattach (d a : Nat) (s : State) : Out := s.keGate true (fun k => s.keEnd d (s.keCask k .kattach (s.rn a) 0))

/-- KDETACH (R285). -/
def execKdetach (d a : Nat) (s : State) : Out := s.keGate true (fun k => s.keEnd d (s.keCask k .kdetach (s.rn a) 0))

/-- KSTAT.cask (R281). -/
def execKstatCask (d a : Nat) (s : State) : Out := s.keGate true (fun k => s.keEnd d (s.keCask k .kstat (s.rn a) 0))

/-- Rows 7 and 9 of R279 for a slot-only form: CORE from a member, an EMPTY slot unless `empty`, another context's slot. -/
def State.slotErr (s : State) (v : Nat) (empty : Bool) : Bool :=
  let c := s.cur.core
  let x := s.slot (s.slotCore v) (v % 256)
  (!isSeq c && v / 2 ^ 58 != 0) || (x.state == .empty && !empty) || (x.state != .empty && !isSeq c && x.ctx != s.ctxOn c)

/-- KSTAT.slot (R281). -/
def execKstatSlot (d b : Nat) (s : State) : Out :=
  let v := s.rn b
  if s.slotErr v true then s.trap 0x71
  else (s.putS d (BitVec.ofNat 64 (s.slotStatus (s.slotCore v) (v % 256)))).done

/-- KWAIT (R281): completes once the slot neither racks in nor racks out. It waits for that before it issues, so that a stop finds it unissued (R302;
DEDUCED, log entry 25). -/
def execKwait (d b : Nat) (s : State) : Out :=
  let v := s.rn b
  if s.cm.kern.caskn = 0 then s.trap 0x70
  else if s.slotErr v true then s.trap 0x71
  else if (s.slot (s.slotCore v) (v % 256)).racking then s.waits
  else (s.putS d (BitVec.ofNat 64 (s.slotStatus (s.slotCore v) (v % 256)))).done

/-- KROLL.c (R286). -/
def execKrollC (d b : Nat) (s : State) : Out :=
  s.keGate false (fun k =>
    let v := s.rn b
    if s.slotErr v false then s.trap 0x71
    else
      let w := s.slotCore v
      let x := s.slot w (v % 256)
      let ctl := s.slotCtl k x
      let (cw, s1) := s.ctlRead k ctl 4
      let due := strictDelay k.party ctl.1 0
      if x.state ≠ .resident ∨ x.held = true then s.keEnd d (.fin (keWord 1 cw) false s1 due)
      else
        let r := s1.settleSlot w (v % 256) ctl cw
        s.keEnd d (.fin (keWord 0 cw) r.1 r.2 due))

/-- The moves that rack the banks of a slot, 64 bytes each, in the order of the slot's layers: for racking in from the casks that hold the banks. Every page of
such a slice, that of its header among them, is translated (row 4 of R279). -/
def State.bankMoves (s : State) (k : KeBy) (x : Slot) : Except Trap (List Move) × State :=
  x.layers.foldl (fun r L =>
    match r with
    | (.error t, s) => (.error t, s)
    | (.ok ms, s) =>
      let va := tgetD x.srcs L x.handle + 64 + L * x.sliceb
      match s.kePages k .read va x.sliceb with
      | (.error t, s1) => (.error t, s1)
      | (.ok ls, s1) =>
        (.ok (ms ++ (List.range (2 * x.bankb / 64)).map (fun i =>
          ({ src := .dev (va + 64 + 64 * i) (placeIn va ls (64 + 64 * i)), dst := .lit [], len := 64 } : Move))), s1)) (.ok [], s)

/-- The moves that rack a slot out, 64 bytes each: whole slices; none for a snapshot's slot. -/
def State.sliceMoves (s : State) (k : KeBy) (x : Slot) : Except Trap (List Move) × State :=
  if x.snap then (.ok [], s)
  else
    x.layers.foldl (fun r L =>
      match r with
      | (.error t, s) => (.error t, s)
      | (.ok ms, s) =>
        let va := x.handle + 64 + L * x.sliceb
        match s.kePages k .write va x.sliceb with
        | (.error t, s1) => (.error t, s1)
        | (.ok ls, s1) =>
          (.ok (ms ++ (List.range (x.sliceb / 64)).map (fun i =>
            ({ src := .lit [], dst := .dev (va + 64 * i) (placeIn va ls (64 * i)), len := 64 } : Move))), s1)) (.ok [], s)

/-- A slot overlaps another non-EMPTY slot of its core, or leaves the 4 MiB store, or is not EMPTY (row 7 of R279). -/
def State.slotClash (s : State) (w n lo hi : Nat) : Bool :=
  decide (0x400000 < hi) || (s.seat w).slots.any (fun p => p.2.state != .empty &&
    (p.1 == n || (decide (lo < p.2.off * 64 + (p.2.nl + 1) * p.2.sliceb) && decide (p.2.off * 64 < hi))))

/-- The slice header of a layer to rack, and whether an error struck it. -/
structure RackHead where
  layer : Nat
  bytes : List Byte
  bad : Bool

/-- Reads the slice headers of the layers to rack (R279, R280), with the row 4 errors of those whose page fails. -/
def State.rackHeads (s : State) (k : KeBy) (x : CaskHdr) (ls : List Nat) : List (Nat × Trap) × List RackHead × State :=
  ls.foldl (fun r L =>
    match r.2.2.translate k.party k.ctx (x.slice L) .read false with
    | (.error t, s1) => (r.1 ++ [(4, t)], r.2.1, s1)
    | (.ok l, s1) =>
      let (bad, s2) := (s1.noteUnreachable k.party k.ctx (x.slice L) l).keError k x.h L l
      (r.1, r.2.1 ++ [{ layer := L, bytes := if bad then List.replicate 64 0 else s2.keRead k l 64, bad := bad }], s2)) ([], [], s)

/-- The context that a slot racked into core `w` belongs to: the issuing member's, or the one that stands on the core for a sequencer (R499). -/
def State.slotCtx (s : State) (w : Nat) : Nat :=
  if isSeq s.cur.core then (if (s.core w).status = .free then 256 else s.ctxOn w) else s.ctxOn s.cur.core

/-- Makes the slot's racking entry: the executing instruction, issued, with its moves, its strict time for `n` sectors and a port operation at `w` (01 R32), and
whether a write of a control-block word was refused, which is told when it completes (14 R343). -/
def State.rackEntry (s : State) (w : Nat) (ms : List Move) (refused : Bool) : Entry :=
  { s.padEntry (strictDelay s.cur.core w ms.length) s.cur.ent with
    issued := true, moves := some ms, opv := if refused then [1] else [], era := s.nextId }

/-- The places of a list of moves. -/
def moveLocs (ms : List Move) : List Loc := ms.flatMap (fun m => [m.src, m.dst].filterMap (fun p => match p with
  | .dev _ l => some l
  | _ => none))

/-- KRIN issues (R280): RESN rises, the slot takes the slice headers, and its banks are racked in by RACK_IN_COMPLETE. -/
def State.krinStart (s : State) (k : KeBy) (x : CaskHdr) (w n : Nat) (slot : Slot) (hs : List RackHead) (ms : List Move) : Out :=
  let ctl := s.ctlOf k x
  let dmg := hs.any (fun p => p.bad)
  let r := (ctlUpdate (false, s) k ctl 8 (fun st => setBits st 15 0 (bits st 15 0 + 1))).2
  let r1 := if dmg then markDamaged r k ctl else r
  let s2 := (r1.2.farMiss k.party (moveLocs ms)).setSlot w n { slot with damaged := dmg, ent := s.rackEntry ctl.1 ms r1.1 }
  .next ((hs.foldl (fun s p => s.caskPut w (slot.base p.layer) p.bytes) s2).finish .gone)

/-- KRIN's checks, in the order of the rows of R279, and issue (R280). The rows of the SRC handles stand before row 4 of any page. -/
def State.krinIssue (s : State) (k : KeBy) (h v : Nat) : Out :=
  let w := s.slotCore v
  let n := v % 256
  let first := bits v 19 8
  let nl := bits v 31 20
  let (hx, s1) := s.keHeader k .read h
  match hx with
  | .error e => s1.trapWith e.2
  | .ok x =>
    let layers := (List.range (nl + 1)).map (· + first) |>.filter (fun L => decide (L < x.nl))
    let (eh, hs, s2) := s1.rackHeads k x layers
    let srcs := hs.filterMap (fun p => if sharedOf p.bytes then some (p.layer, srcOf p.bytes) else none)
    let (eo, xo, s3) := s2.keHeaders k (srcs.map (fun p => (p.2, Access.read)))
    let slot : Slot := { state := .rackingIn, ctx := s.slotCtx w, handle := h, first := first, nl := nl, off := bits v 47 32, ctl := x.ctl
                         nlayers := x.nl, bankb := x.bankb, srcs := srcs, by_ := s.cur.core }
    let (ms, s4) := if eh ++ eo = [] ∧ layers ≠ [] then s3.bankMoves k { slot with first := layers.headD 0, nl := layers.length - 1 } else (.ok [], s3)
    let e7 := if (v / 2 ^ 48 % 1024 ≠ 0 ∨ (isSeq s.cur.core = false ∧ v / 2 ^ 58 ≠ 0)
        ∨ s4.slotClash w n (slot.off * 64) (slot.off * 64 + (nl + 1) * x.sliceb) = true) then [(7, ({ cause := 0x71 } : Trap))] else []
    let e8 := if x.nl ≤ first + nl then [(8, ({ cause := 0x72 } : Trap))] else []
    match firstErr (eh ++ eo), ms with
    | some t, _ => s4.trapWith t
    | none, .error t => s4.trapWith t
    | none, .ok ms =>
      match firstErr (s4.hdrErrs k (x :: xo) false ++ e7 ++ e8) with
      | some t => s4.trapWith t
      | none => if s4.rackFree w = false then s.waits else s4.krinStart k x w n slot hs ms

/-- The slot that racks for the executing instruction, with its core: of the core itself, or of any core of a sequencer's die. -/
def State.rackSlot (s : State) (st : SlotState) : Option (Nat × Nat × Slot) :=
  let c := s.cur.core
  (if isSeq c then (List.range 64).map (fun i => (c - 512) * 64 + i) else [c]).findSome? (fun w =>
    ((s.seat w).slots.find? (fun p => p.2.state == st && p.2.by_ == c && p.2.ent.seqNo == s.cur.ent.seqNo && p.2.ent.lane == s.cur.ent.lane)).map
      (fun p => (w, p.1, p.2)))

/-- KRIN (R280). A KRIN whose translations were dropped at a stop and failed on resume walks again. -/
def execKrin (_d a b : Nat) (s : State) : Out :=
  if s.cur.ent.issued then
    match s.rackSlot .rackingIn with
    | some (w, n, x) =>
      match s.bankMoves s.keParty x with
      | (.error t, s1) => .next (s1.finish (.trapIssued t))
      | (.ok ms, s1) => .next ((s1.setSlot w n { x with ent := { x.ent with moves := some ms, era := s1.nextId } }).finish .gone)
    | none => s.done
  else s.keGate false (fun k => s.krinIssue k (s.rn a) (s.rn b))

/-- The page of the header of a slot's cask, which the KROUT of a DAMAGED cask writes (R301), translated (row 4 of R279). -/
def State.headMoves (s : State) (k : KeBy) (x : Slot) : Except Trap (List Loc) × State :=
  let (st, s1) := s.ctlRead k (s.slotCtl k x) 8
  if x.damaged = true ∨ bit st 30 = true then s1.kePages k .write x.handle 64 else (.ok [], s1)

/-- KROUT's checks and issue (R280). -/
def State.kroutIssue (s : State) (k : KeBy) (d v : Nat) : Out :=
  let w := s.slotCore v
  let n := v % 256
  let x := s.slot w n
  if s.slotErr v false then s.trap 0x71
  else
    match s.headMoves k x with
    | (.error t, s1) => s1.trapWith t
    | (.ok hs, s1) =>
      match s1.sliceMoves k x with
      | (.error t, s2) => s2.trapWith t
      | (.ok ms, s2) =>
        if x.state = .active ∨ x.held = true then s2.keEnd d (.fin (keWord 1 (s.lstep w x x.first)) false s2 (0, 0))
        else if x.racking ∨ s.rackFree w = false then s.waits
        else .next (((s2.farMiss k.party (hs ++ moveLocs ms)).setSlot w n { x with
          state := .rackingOut, unit := 0, by_ := s.cur.core, ent := s.rackEntry (s.slotCtl k x).1 ms false }).finish .gone)

/-- KROUT (R280). -/
def execKrout (d b : Nat) (s : State) : Out :=
  if s.cur.ent.issued then
    match s.rackSlot .rackingOut with
    | some (w, n, x) =>
      match s.sliceMoves s.keParty x with
      | (.error t, s1) => .next (s1.finish (.trapIssued t))
      | (.ok ms, s1) => .next ((s1.setSlot w n { x with ent := { x.ent with moves := some ms, era := s1.nextId } }).finish .gone)
    | none => s.done
  else s.keGate false (fun k => s.kroutIssue k d (s.rn b))

/-- Whether what core `c` has in flight moves on: the core runs, and no stop at once of its context has begun (16 R381). -/
def State.flows (s : State) (c : Nat) : Bool :=
  let x := s.core c
  x.seat.present && x.status == .running && !(match (s.ctx x.ctx).stop with
    | some p => p.atOnce
    | none => false)

/-- The party of a slot's racking instruction. -/
def State.rackParty (s : State) (x : Slot) : KeBy := { party := x.by_, ctx := s.xctx x.by_ }

/-- Whether the KE of core `c` can stop at a racking instruction: it has not stopped, and the member runs. -/
def State.keFree (s : State) (c : Nat) : Bool := (s.mem c).status == .running && !((s.mem c).stuck.any (fun p => p.1 == 7))

/-- A racking instruction `e` of core `c` returns to the head of its queue and traps there. -/
def State.rackTrap (s : State) (c : Nat) (e : Entry) (t : Trap) : State :=
  (s.modMem c (fun m => (m.setQ 7 ({ e with moves := none } :: m.q 7)).stop 7 t)).missOnTrap c t

/-- Ends a racking instruction: its result word, its post, and the trap of a refused control-block word (14 R343). -/
def State.rackEnd (s : State) (x : Slot) (r : Nat) (refused : Bool) : State :=
  let d := bits (x.ent.lanes.headD 0).toNat 24 19
  let s1 := s.modMem x.by_ (fun m => m.putS d (BitVec.ofNat 64 r))
  if refused then s1.rackTrap x.by_ { x.ent with skip := true } { cause := 0x80 } else s1.modMem x.by_ (fun m => m.postPrefix 7 x.ent.pfx)

/-- The cask-store offset of bank unit `i` of a slot: unit `i` of the banks of its layers in turn. -/
def Slot.bankUnit (x : Slot) (i : Nat) : Nat :=
  let per := 2 * x.bankb / 64
  x.off * 64 + i / per * x.sliceb + 64 + i % per * 64

/-- An error strikes a slice of a slot that racks in (R301): STATE.DAMAGED and the slot's DAMAGED; a refused write is told when the KRIN completes. -/
def State.slotDamaged (s : State) (k : KeBy) (w n : Nat) (ctl : Nat × Nat) : State :=
  let r := markDamaged (false, s) k ctl
  let x := r.2.slot w n
  r.2.setSlot w n { x with damaged := true, ent := { x.ent with opv := if r.1 then [1] else x.ent.opv } }

/-- Moves up to `k` units of a slot that racks in. -/
def State.rackIn (s : State) (w n k : Nat) (x : Slot) (ms : List Move) : State :=
  let b := s.rackParty x
  let s1 := ((List.range k).zip ((ms.drop x.unit).take k)).foldl (fun s p =>
    match p.2.src with
    | .dev _ l =>
      let (bad, s') := (s.noteUnreachable b.party b.ctx x.handle l).keError b x.handle (x.first + (x.unit + p.1) / (2 * x.bankb / 64)) l
      let s2 := s'.caskPut w (x.bankUnit (x.unit + p.1)) (if bad then List.replicate 64 0 else s'.keRead b l 64)
      if bad then s2.slotDamaged b w n (s.slotCtl b x) else s2
    | _ => s) s
  s1.setSlot w n { s1.slot w n with unit := x.unit + min k (ms.length - x.unit) }

/-- RACK_IN_COMPLETE (R280): up to `k` 64-byte units are copied; after the last, and with STRICT = 1 at its strict time (01 R32), the slices are settled and
the slot is RESIDENT. -/
def execRackInComplete (w n k : Nat) (s : State) : Out :=
  let x := s.slot w n
  if x.state ≠ .rackingIn ∨ s.flows x.by_ = false then .next s
  else
    match x.ent.moves with
    | none =>
      match s.bankMoves (s.rackParty x) x with
      | (.ok ms, s1) => .next (s1.setSlot w n { x with ent := { x.ent with moves := some ms, era := s1.nextId } })
      | (.error t, s1) => if s1.keFree x.by_ then .next ((s1.rackTrap x.by_ x.ent t).setSlot w n x) else .next s
    | some ms =>
      let s1 := s.rackIn w n k x ms
      let y := s1.slot w n
      if y.unit < ms.length ∨ s.placeTaken x.by_ = true then .next s1
      else
        let b := s.rackParty x
        let ctl := s1.slotCtl b x
        let (st, s2) := s1.ctlRead b ctl 8
        let (cw, s2) := s2.ctlRead b ctl 4
        let r := s2.settleSlot w n ctl cw
        let refused := r.1 || y.ent.opv == [1]
        if refused ∧ s.keFree x.by_ = false then .next s1
        else
          match r.2.padOver x.by_ y.ent with
          | none => .next s1
          | some s2 =>
            let z := s2.slot w n
            let s3 := s2.setSlot w n { z with state := .resident, snap := bit st 31, ent := {}, unit := 0 }
            .next (s3.rackEnd y (keWord (if bit st 30 then 5 else 0) (s3.lstep w z z.first)) refused)

/-- The bytes of unit `i` of a slot that racks out, with SHARED and SRC of its slice headers zero. -/
def State.outUnit (s : State) (w : Nat) (x : Slot) (i : Nat) : List Byte :=
  let bs := mread (s.seat w).cask (x.off * 64 + 64 * i) 64
  if i % (x.sliceb / 64) = 0 then
    bs.take 8 ++ leBytes 1 (setBits (leNat ((bs.drop 8).take 1)) 1 1 0) ++ (bs.drop 9).take 7 ++ List.replicate 8 0 ++ bs.drop 24
  else bs

/-- Moves up to `k` units of a slot that racks out. -/
def State.rackOut (s : State) (w n k : Nat) (x : Slot) (ms : List Move) : State :=
  let b := s.rackParty x
  let s1 := ((List.range k).zip ((ms.drop x.unit).take k)).foldl (fun s p =>
    match p.2.dst with
    | .dev _ l => (s.noteUnreachable b.party b.ctx x.handle l).keWrite b l (s.outUnit w x (x.unit + p.1))
    | _ => s) s
  s1.setSlot w n { s1.slot w n with unit := x.unit + min k (ms.length - x.unit) }

/-- HFLAGS.DAMAGED is set at a KROUT of a damaged cask (R301). -/
def State.damageHeader (s : State) (k : KeBy) (h : Nat) : State :=
  match s.keHeader k .write h with
  | (.ok x, s1) => s1.keWrite k (x.loc.add 12) (leBytes 4 (setBits x.hflags 1 1 1))
  | (.error _, s1) => s1

/-- RACK_OUT_COMPLETE (R280): up to `k` 64-byte units are written back; after the last, and with STRICT = 1 at its strict time, RESN falls and the slot is
EMPTY. RESN counts modulo 2 to the 16, the width of its field, here and where KRIN raises it (DESIGN CHOICE, log entry 56). -/
def execRackOutComplete (w n k : Nat) (s : State) : Out :=
  let x := s.slot w n
  if x.state ≠ .rackingOut ∨ s.flows x.by_ = false then .next s
  else
    match x.ent.moves with
    | none =>
      match s.sliceMoves (s.rackParty x) x with
      | (.ok ms, s1) => .next (s1.setSlot w n { x with ent := { x.ent with moves := some ms, era := s1.nextId } })
      | (.error t, s1) => if s1.keFree x.by_ then .next ((s1.rackTrap x.by_ x.ent t).setSlot w n x) else .next s
    | some ms =>
      let s1 := s.rackOut w n k x ms
      let y := s1.slot w n
      if y.unit < ms.length ∨ s.placeTaken x.by_ = true then .next s1
      else
        let b := s.rackParty x
        let ctl := s1.slotCtl b x
        let (st, r) := ctlUpdate (false, s1) b ctl 8 (fun st => setBits st 15 0 (bits st 15 0 + 65535))
        if r.1 ∧ s.keFree x.by_ = false then .next s1
        else
          match r.2.padOver x.by_ y.ent with
          | none => .next s1
          | some s2 =>
          let s2 := if x.damaged ∨ bit st 30 = true then s2.damageHeader b x.handle else s2
          .next ((s2.modSeat w (fun z => { z with slots := tdel z.slots n })).rackEnd y (keWord 0 (s1.lstep w x x.first)) r.1)

end Sys2Proof.Machine
end

