-- ==== Sys2Proof/Machine/Func.lean ====
section
/-! DEFINITION. The special functions (02 R53 to R55, R57): exact mathematical values carried as fixed-point numbers of 320 fraction bits with a
sticky remainder, so that one rounding delivers the correctly rounded result; and the pairwise sum. -/

namespace Sys2Proof.Machine

/-- Fraction bits of the fixed-point numbers below. -/
def fxP : Nat := 320

/-- A square root with its remainder (R53). -/
def Ex.sqrt (x : Ex) : Ex :=
  let k := 80 + bitLen x.m
  let sh := if (x.e - k) % 2 = 0 then k else k + 1
  let n := x.m * 2 ^ sh
  let r := isqrt n
  { m := r, e := (x.e - sh) / 2, sticky := r * r != n }

/-- A reciprocal square root with its remainder. -/
def Ex.rsqrt (x : Ex) : Ex :=
  let k := 200 + 2 * bitLen x.m
  let sh := if (x.e + k) % 2 = 0 then k else k + 1
  -- 1 / sqrt(m 2^e) = sqrt(2^sh / m) / 2^((e + sh) / 2)
  let q := 2 ^ sh / x.m
  let r := isqrt q
  { m := r, e := -((x.e + sh) / 2), sticky := r * r * x.m != 2 ^ sh }

/-- floor of a non-negative value times `2 ^ fxP`. -/
def Ex.fx (x : Ex) : Nat :=
  if 0 ≤ x.e + fxP then x.m * 2 ^ (x.e + fxP).toNat else x.m / 2 ^ (-(x.e + fxP)).toNat

/-- A signed fixed-point value; its last 16 bits absorb the error of the series. -/
def fxSigned (v : Int) : Ex := { neg := decide (v < 0), m := v.natAbs / 2 ^ 16, e := 16 - (fxP : Int), sticky := true }

/-- ln 2 times `2 ^ fxP`. -/
def fxLn2 : Nat := 1480553391661173448385607439722553250922680800745876974795605978609098082859138712941075737848984

/-- exp of a fixed-point number in [0, 1): the first 80 terms of its series. -/
def fxExp (r : Nat) : Nat :=
  ((List.range 80).foldl (fun (p : Nat × Nat) i => let t := p.1 * r / ((i + 1) * 2 ^ fxP); (t, p.2 + t)) (2 ^ fxP, 2 ^ fxP)).2

/-- 2 · atanh of a fixed-point number of magnitude at most 1/3: the first 110 terms of its series. -/
def fxAtanh2 (u : Nat) : Nat :=
  2 * ((List.range 110).foldl (fun (p : Nat × Nat) i => (p.1 * u / 2 ^ fxP * u / 2 ^ fxP, p.2 + p.1 / (2 * i + 1))) (u, 0)).2

/-- A positive value `2 ^ n · exp(r)`, `r` fixed-point in [0, 1). -/
def fxScaled (n : Int) (r : Nat) : Ex := { m := fxExp r / 2 ^ 16, e := n + 16 - (fxP : Int), sticky := true }

/-- What an exponential of a hugely negative or positive argument is, so far as any rounding can tell. -/
def exTiny : Ex := { m := 1, e := -4096, sticky := true }
def exHuge : Ex := { m := 1, e := 4096, sticky := true }

/-- 2 to the power of a finite value: exact for an integer (R53). -/
def Ex.exp2 (x : Ex) : Ex :=
  if x.isZero then { m := 1 }
  else if 12 ≤ x.lead then (if x.neg then exTiny else exHuge)
  else if 0 ≤ x.e ∨ x.m % 2 ^ (-x.e).toNat = 0 then
    let n : Int := if 0 ≤ x.e then (x.m * 2 ^ x.e.toNat : Nat) else (x.m / 2 ^ (-x.e).toNat : Nat)
    { m := 1, e := if x.neg then -n else n }
  else
    let v : Int := if x.neg then -(x.fx : Int) - 1 else x.fx
    let n := v / (2 ^ fxP : Nat)
    let f := (v - n * (2 ^ fxP : Nat)).toNat
    fxScaled n (f * fxLn2 / 2 ^ fxP)

/-- e to the power of a finite value. -/
def Ex.exp (x : Ex) : Ex :=
  if x.isZero then { m := 1 }
  else if 12 ≤ x.lead then (if x.neg then exTiny else exHuge)
  else
    let v : Int := if x.neg then -(x.fx : Int) - 1 else x.fx
    let n := v / (fxLn2 : Int)
    fxScaled n (v - n * fxLn2).toNat

/-- ln of the fraction of a positive value in [1, 2), fixed-point, and the exponent it is multiplied by. -/
def Ex.lnParts (x : Ex) : Int × Nat :=
  let l := x.m.log2
  let num := (x.m - 2 ^ l) * 2 ^ fxP / (x.m + 2 ^ l)
  ((l : Int) + x.e, fxAtanh2 num)

/-- ln of a positive value; ln 1 is +0. -/
def Ex.ln (x : Ex) : Ex :=
  if x.m = 2 ^ x.m.log2 ∧ (x.m.log2 : Int) + x.e = 0 then {}
  else
    let p := x.lnParts
    fxSigned (p.1 * fxLn2 + p.2)

/-- log2 of a positive value: exact for a power of two. -/
def Ex.log2e (x : Ex) : Ex :=
  let p := x.lnParts
  if x.m = 2 ^ x.m.log2 then { neg := decide (p.1 < 0), m := p.1.natAbs }
  else fxSigned (p.1 * (2 ^ fxP : Nat) + p.2 * 2 ^ fxP / fxLn2)

/-- exp2 and exp of any value (R54). -/
def FV.exp2 (v : FV) : FV × Nat :=
  match v with
  | .nan => (.nan, 0)
  | .inf neg => (if neg then .fin {} else .inf false, 0)
  | .fin x => (.fin x.exp2, 0)
def FV.exp (v : FV) : FV × Nat :=
  match v with
  | .nan => (.nan, 0)
  | .inf neg => (if neg then .fin {} else .inf false, 0)
  | .fin x => (.fin x.exp, 0)

/-- log2 and ln of any value (R54). -/
def FV.logWith (f : Ex → Ex) (v : FV) : FV × Nat :=
  match v with
  | .nan => (.nan, 0)
  | .inf neg => if neg then (.nan, fInvalid) else (.inf false, 0)
  | .fin x => if x.isZero then (.inf true, fDivzero) else if x.neg then (.nan, fInvalid) else (.fin (f x), 0)
def FV.log2 (v : FV) : FV × Nat := v.logWith Ex.log2e
def FV.ln (v : FV) : FV × Nat := v.logWith Ex.ln

/-- The reciprocal of any value (R54). -/
def FV.rcp (v : FV) : FV × Nat := FV.div (.fin { m := 1 }) v

/-- The square root of any value. -/
def FV.sqrt (v : FV) : FV × Nat :=
  match v with
  | .nan => (.nan, 0)
  | .inf neg => if neg then (.nan, fInvalid) else (.inf false, 0)
  | .fin x => if x.isZero then (v, 0) else if x.neg then (.nan, fInvalid) else (.fin x.sqrt, 0)

/-- The reciprocal square root of any value. -/
def FV.rsqrt (v : FV) : FV × Nat :=
  match v with
  | .nan => (.nan, 0)
  | .inf neg => if neg then (.nan, fInvalid) else (.fin {}, 0)
  | .fin x => if x.isZero then (.inf x.neg, fDivzero) else if x.neg then (.nan, fInvalid) else (.fin x.rsqrt, 0)

/-- One step of a sequence: a function's value rounded to FP32 (R55). -/
def rn32 (md : RMode) (r : FV × Nat) : FV × Nat :=
  let x := rnd32 r.1 md
  (f32 x.1, r.2 ||| x.2)

/-- A sum and a difference rounded to FP32. -/
def add32 (md : RMode) (a b : FV) : FV × Nat := rn32 md (sumFV (md.rm == 2) [a, b])

/-- One. -/
def fvOne : FV := .fin { m := 1 }

/-- Sigmoid (R55). -/
def sigmoid32 (md : RMode) (x : FV) : FV × Nat :=
  if x.isNan then (.nan, 0)
  else
    let e := rn32 md x.negate.exp
    let d := add32 md fvOne e.1
    let y := rn32 md d.1.rcp
    (y.1, e.2 ||| d.2 ||| y.2)

/-- Softplus (R55). -/
def softplus32 (md : RMode) (x : FV) : FV × Nat :=
  if x.isNan then (.nan, 0)
  else
    let e := rn32 md x.abs.negate.exp
    let d := add32 md fvOne e.1
    let l := rn32 md d.1.ln
    let y := add32 md (FV.max x (.fin {})) l.1
    (y.1, e.2 ||| d.2 ||| l.2 ||| y.2)

/-- A value with the sign of another. -/
def FV.withSign (v : FV) (neg : Bool) : FV := match v with
  | .nan => .nan | .inf _ => .inf neg | .fin x => .fin { x with neg := neg }

/-- Tanh (R55). -/
def tanh32 (md : RMode) (x : FV) : FV × Nat :=
  if x.isNan then (.nan, 0)
  else
    let e := rn32 md (x.abs.scale 1).negate.exp
    let n := add32 md fvOne e.1.negate
    let d := add32 md fvOne e.1
    let q := rn32 md (FV.div n.1 d.1)
    (q.1.withSign x.isNeg, e.2 ||| n.2 ||| d.2 ||| q.2)

/-- One level of the pairwise tree (R57). -/
def pairLevel (md : RMode) (l : List FV) : List FV × Nat :=
  match l with
  | a :: b :: r =>
    let x := add32 md a b
    let y := pairLevel md r
    (x.1 :: y.1, x.2 ||| y.2)
  | r => (r, 0)

/-- The pairwise tree of at most `2 ^ k` values (R57); no value gives +0. -/
def pairSum (md : RMode) (k : Nat) (l : List FV) : FV × Nat :=
  match k with
  | 0 => (l.headD (.fin {}), 0)
  | j + 1 =>
    let x := pairLevel md l
    let y := pairSum md j x.1
    (y.1, x.2 ||| y.2)

end Sys2Proof.Machine
end

