-- ==== Sys2Proof/Machine/Transfer.lean ====
section
/-! DEFINITION. Transfers of the load and store halves (09 R224 to R236; 13 R332): checks, the sectors an instruction moves, moving and completing
them; and bulk copies (R232). -/

namespace Sys2Proof.Machine

-- Collective instructions, as far as the order of the XS stream needs them (18 R422, R424, 13 R336).

/-- Width of an element type. -/
def collWidth (dt : Nat) : Nat :=
  match dt with
  | 1 => 16 | 2 => 16 | 3 => 8 | 4 => 8 | 10 => 16 | 11 => 8 | _ => 32

/-- The channel of a collective instruction. -/
def collChan (i : Instr) : Option Nat :=
  match i with
  | .ctri _ _ _ ch _ _ => some ch
  | .chist _ _ _ _ ch _ _ _ _ => some ch
  | .cmaxi _ _ _ ch _ _ _ => some ch
  | .csum _ _ _ _ ch _ _ => some ch
  | .cbcast _ _ ch _ _ => some ch
  | _ => none

/-- Bytes of an instruction's source and of its result (R427 to R431). -/
def collBytes (i : Instr) : Nat × Nat :=
  match i with
  | .ctri _ _ _ _ cnt dd => (1024 + (cnt + 1) * ((dd + 1) * 16) * 4, 1024 + (cnt + 1) * ((dd + 1) * 16) * 4)
  | .chist _ _ _ _ _ dt cnt mass _ => (if mass = 1 then 8 * (cnt + 1) else (cnt + 1) * collWidth dt / 8, 1024)
  | .cmaxi _ _ _ _ _ cnt _ => (8 * (cnt + 1), 8 * (cnt + 1))
  | .csum _ _ _ _ _ dt cnt => ((cnt + 1) * collWidth dt / 8, (cnt + 1) * collWidth dt / 8)
  | .cbcast _ _ _ cnt _ => (64 * (cnt + 1), 64 * (cnt + 1))
  | _ => (0, 0)

/-- Whether the member at a position reads its source, and whether it receives the result (R424, R431). -/
def collReads (i : Instr) (pos : Nat) : Bool :=
  match i with
  | .cbcast _ _ _ _ root => pos == root
  | _ => true
def collRecv (i : Instr) (pos : Nat) : Bool :=
  match i with
  | .ctri _ _ all _ _ _ => all == 1 || pos == 0
  | .chist _ _ _ all _ _ _ _ _ => all == 1 || pos == 0
  | .cmaxi _ _ all _ _ _ _ => all == 1 || pos == 0
  | .csum _ _ _ all _ _ _ => all == 1 || pos == 0
  | _ => true

/-- The position of the executing member in its team, and the team's size (R420). -/
def State.teamPos (s : State) (c : Nat) : Nat := (s.mem c).rank / (s.group (s.mem c).group).c
def State.teamSize (s : State) (c : Nat) : Nat := (s.group (s.mem c).group).d

/-- Which way a transfer goes, and what stands on its near side. -/
inductive XDir where
  | load | store
  deriving DecidableEq, Repr
inductive XNear where
  | scratch | acc | lit
  deriving DecidableEq, Repr

/-- A transfer instruction: direction, near side, whether its rows are indexed, its ring if it has one, whether it acquires, and the unit its far
addresses must be a multiple of. -/
structure XKind where
  dir : XDir
  near : XNear := .scratch
  indexed : Bool := false
  ring : Option Nat := none
  acq : Bool := false
  unit : Nat := 64
  deriving DecidableEq, Repr

/-- The transfer that an instruction is. -/
def xkind (i : Instr) : Option XKind :=
  match i with
  | .xld _ _ _ => some { dir := .load }
  | .xldAcq _ _ _ => some { dir := .load, acq := true }
  | .xldr _ _ q => some { dir := .load, ring := some q }
  | .xgath _ _ _ => some { dir := .load, indexed := true }
  | .xst _ _ _ => some { dir := .store }
  | .xstRing _ _ q => some { dir := .store, ring := some q }
  | .xsta _ _ _ => some { dir := .store, near := .acc }
  | .xscat _ _ _ => some { dir := .store, indexed := true }
  | .xstrel _ _ => some { dir := .store, near := .lit, unit := 8 }
  | _ => none

/-- A row of a transfer: near-side address, far-side address, bytes. -/
structure XRow where
  near : Nat
  far : Nat
  len : Nat
  deriving DecidableEq, Repr

/-- Fields of a row rectangle (R226) and its limit. -/
def rectRows (d : Nat) : Nat := bits d 31 20 + 1
def rectRowb (d : Nat) : Nat := bits d 19 0
def rectStride (d : Nat) : Nat := bits d 63 40 * 64
def rectOk (d : Nat) : Bool := bits d 39 32 == 0 && decide (64 ≤ rectRowb d ∧ rectRowb d ≤ 65536) && rectRowb d % 64 == 0

/-- Fields of a gather descriptor (R231). -/
def gathRowb (d : Nat) : Nat := (bits d 45 36 + 1) * 64
def gathN (d : Nat) : Nat := bits d 35 24 + 1
def gathIdx (d : Nat) : Nat := bits d 23 0

/-- The rows of a transfer from its operand values at issue: near base, far base, descriptor, then the index list. -/
def XKind.rows (k : XKind) (opv : List Nat) : List XRow :=
  let a := opv.getD 0 0
  let b := opv.getD 1 0
  let d := opv.getD 2 0
  if k.near = .lit then [{ near := a, far := b, len := 8 }]
  else if k.indexed then
    ((List.range (gathN d)).zip (opv.drop 3)).map (fun p => { near := a + p.1 * gathRowb d, far := b + p.2 * gathRowb d, len := gathRowb d })
  else (List.range (rectRows d)).map (fun i => { near := a + i * rectRowb d, far := b + i * rectStride d, len := rectRowb d })

/-- The places of the 64-byte sectors of a range (or of the 8 bytes of an XSTREL): one walk for each page, and one for each sector of a slab. -/
def State.sectorLocs (s : State) (c ctx : Nat) (kind : Access) (va n : Nat) : Except Trap (List (Nat × Loc)) × State :=
  (pageStarts va n).foldl (fun r p =>
    match r with
    | (.error t, s) => (.error t, s)
    | (.ok ls, s) =>
      let len := min (4096 - p % 4096) (va + n - p)
      let vas := (List.range (cdiv len 64)).map (fun i => p + 64 * i)
      if p / 2 ^ 48 = 255 then
        match s.translateAll c ctx kind true vas with
        | (.error t, s1) => (.error t, s1)
        | (.ok l, s1) => (.ok (ls ++ vas.zip l), s1)
      else
        match s.translate c ctx p kind true with
        | (.error t, s1) => (.error t, s1)
        | (.ok l, s1) => (.ok (ls ++ (List.range vas.length).map (fun i => (p + 64 * i, l.add (64 * i)))), s1)) (.ok [], s)

/-- The near-side places of the sectors of a row. -/
def State.nearPlaces (s : State) (c ctx : Nat) (k : XKind) (r : XRow) : Except Trap (List Place) × State :=
  let offs := (List.range (cdiv r.len 64)).map (fun i => r.near + 64 * i)
  match k.near with
  | .lit => (.ok [.lit (leBytes 8 r.near)], s)
  | .acc => (.ok (offs.map (fun a => .acc c (a % 2 ^ 20) a)), s)
  | .scratch =>
    if isSeq c then
      match s.sectorLocs c ctx (match k.dir with
        | .load => .write
        | .store => .read) r.near r.len with
      | (.error t, s1) => (.error t, s1)
      | (.ok l, s1) => (.ok (l.map (fun p => .dev p.1 p.2)), s1)
    else (.ok (offs.map Place.scratch), s)

/-- The moves of a transfer's rows, all its pages translated; the first page that fails is the result. -/
def State.rowMoves (s : State) (c ctx : Nat) (k : XKind) (rows : List XRow) : Except Trap (List Move) × State :=
  rows.foldl (fun r x =>
    match r with
    | (.error t, s) => (.error t, s)
    | (.ok ms, s) =>
      match s.sectorLocs c ctx (match k.dir with
        | .load => .read
        | .store => .write) x.far x.len with
      | (.error t, s1) => (.error t, s1)
      | (.ok far, s1) =>
        match s1.nearPlaces c ctx k x with
        | (.error t, s2) => (.error t, s2)
        | (.ok near, s2) =>
          let n := min 64 x.len
          (.ok (ms ++ (far.zip near).map (fun p =>
            let d : Place := .dev p.1.1 p.1.2
            match k.dir with
            | .load => { src := d, dst := p.2, len := n }
            | .store => { src := p.2, dst := d, len := n })), s2)) (.ok [], s)

/-- The moves that fill the rest of a pushed slot with zeros (R220). -/
def padMoves (base img slotb : Nat) : List Move :=
  (List.range ((slotb - img) / 64)).map (fun i => { src := .lit (List.replicate 64 0), dst := .scratch (base + img + 64 * i), len := 64 })

/-- The bytes of an image. -/
def rowsBytes (rows : List XRow) : Nat := rows.foldl (fun a r => a + r.len) 0

/-- The moves of a transfer from its operand values, the last of which is the slot size of a pushed ring. -/
def State.xmoves (s : State) (c ctx : Nat) (k : XKind) (opv : List Nat) : Except Trap (List Move) × State :=
  let rows := k.rows opv
  match s.rowMoves c ctx k rows with
  | (.error t, s1) => (.error t, s1)
  | (.ok ms, s1) =>
    match k.ring, k.dir with
    | some _, .load => (.ok (ms ++ padMoves (opv.getD 0 0) (rowsBytes rows) (opv.getD 3 0)), s1)
    | _, _ => (.ok ms, s1)

/-- A class 1 trap with its address. -/
def addrTrap (cause a : Nat) : Trap := { cause := cause, taddr := a }

/-- Row 3 of R227: a memory-side byte with address bits [63:56] not zero. -/
def devErrs (l : List (Nat × Nat)) : List (Nat × Trap) :=
  (l.filter (fun p => decide (2 ^ 56 < p.1 + p.2))).map (fun p => (3, addrTrap 0x10 (max p.1 (2 ^ 56))))

/-- A byte of a range is a slab address, which XCPY refuses (12 R319). -/
def slabErrs (l : List (Nat × Nat)) : List (Nat × Trap) :=
  (l.filter (fun p => decide (255 * 2 ^ 48 < p.1 + p.2 ∧ p.1 < 2 ^ 56))).map (fun p => (3, addrTrap 0x10 (max p.1 (255 * 2 ^ 48))))

/-- Row 4: a scratch-side byte at or above 0x100_0000. -/
def scratchErrs (l : List (Nat × Nat)) : List (Nat × Trap) :=
  (l.filter (fun p => decide (0x1000000 < p.1 + p.2))).map (fun p => (4, addrTrap 0x11 (max p.1 0x1000000)))

/-- Row 6: addresses that must be multiples of a unit. -/
def alignErrs (l : List (Nat × Nat)) : List (Nat × Trap) :=
  (l.filter (fun p => p.1 % p.2 != 0)).map (fun p => (6, addrTrap 0x13 p.1))

/-- Near-side rows: scratch, or device memory on a sequencer (R225). -/
def nearErrs (c : Nat) (l : List (Nat × Nat)) : List (Nat × Trap) := if isSeq c then devErrs l else scratchErrs l

/-- The instruction that a flight entry of the XS is. -/
def Entry.xsInstr (e : Entry) : Option Instr := decode? .xs e.lanes

/-- What an XS instruction in flight of the member at position `pos` of its team still has to read on its near side: ranges of scratch, or of the core's
accumulator SRAM (`true`); `none` for a parked transfer, which is to translate again. A collective in flight has not begun, and has read nothing (18 R421). -/
def Entry.toRead (pos : Nat) (e : Entry) : Option (List (Bool × Nat × Nat)) :=
  let a := e.opv.getD 1 0
  match e.xsInstr with
  | some i =>
    match collChan i, i with
    | some _, .ctri _ _ _ _ _ _ => some [(true, a % 2 ^ 20, (collBytes i).1)]
    | some _, _ => some (if collReads i pos then [(false, a, (collBytes i).1)] else [])
    | none, _ => e.moves.map (fun ms => (ms.drop e.moved).filterMap (fun m => match m.src with
        | .scratch b => some (false, b, m.len)
        | .acc _ o _ => some (true, o, m.len)
        | _ => none))
  | none => some []

/-- Whether two such sets share a 64-byte sector. -/
def clashes (x y : Option (List (Bool × Nat × Nat))) : Bool :=
  match x, y with
  | some l, some r => l.any (fun p => r.any (fun q => p.1 == q.1 && decide (p.2.1 / 64 * 64 < q.2.1 + q.2.2 ∧ q.2.1 / 64 * 64 < p.2.1 + p.2.2)))
  | _, _ => true

/-- Whether an entry in flight in the XS is a collective. -/
def Entry.isColl (e : Entry) : Bool := (e.xsInstr.bind collChan).isSome

/-- Whether a collective in flight has yet to read one of the ranges: a later read of the XS stream waits for it (13 R329, R336). -/
def State.collAhead (s : State) (c : Nat) (rs : List (Bool × Nat × Nat)) : Bool :=
  ((s.mem c).fl 6).any (fun e => e.isColl && clashes (e.toRead (s.teamPos c)) (some rs))

/-- Whether an instruction in flight in half `g` still has sectors to move. -/
def State.unmoved (s : State) (c g : Nat) : Bool :=
  ((s.mem c).fl g).any (fun e => match e.moves with
    | some ms => decide (e.moved < ms.length)
    | none => true)

/-- Whether an in-flight XL entry is an XLD.acq, by its opcode 0 and ACQ bit (R229). -/
def Entry.isAcq (e : Entry) : Bool := let h := (e.lanes.headD 0).toNat; opOf h == 0 && bit h 0

/-- Whether an entry in flight in half `g` is a transfer that is to translate again. -/
def Entry.isParked (g : Nat) (e : Entry) : Bool := e.moves.isNone && ((decode? (if g = 5 then .xl else .xs) e.lanes).bind xkind).isSome

/-- The engine must hold the instruction back: an acquiring XLD is in flight in the XL (R229), or a transfer that is to translate again is in flight in its own half,
so that no holder waits on one that may trap (12 R313). -/
def State.held? (s : State) : Bool :=
  let g := engCode s.cur.eng
  (s.cur.eng == .xl && (s.cm.fl 5).any Entry.isAcq) || (s.cm.fl g).any (Entry.isParked g)

/-- Whether a move touches host or CXL memory. -/
def Place.far? (p : Place) : Bool := match p with
  | .dev _ l => l.tgt != 0
  | _ => false
def Move.far? (m : Move) : Bool := m.src.far? || m.dst.far?

/-- Whether a place is device memory. -/
def Place.dev? (p : Place) : Bool := match p with
  | .dev _ _ => true
  | _ => false

/-- A transfer issues with its moves and the bytes it holds; one that touches host or CXL memory counts STRICTMISS (01 R32). -/
def State.fly (s : State) (opv : List Nat) (ms : List Move) : Out :=
  let s1 := if ms.any Move.far? then s.strictMiss s.cur.core else s
  .next ((s1.modEnt (fun e => { e with opv := opv, moves := some ms, moved := 0, t0 := s.ptc, era := s.nextId })).finish .flying)

/-- A transfer whose translations were dropped at a stop, and whose new walk failed, walks again (12 R306, R313). -/
def State.refly (s : State) (k : XKind) : Out :=
  match s.xmoves s.cur.core (s.xctx s.cur.core) k s.cur.ent.opv with
  | (.error t, s1) => .next (s1.finish (.trapIssued t))
  | (.ok ms, s1) => .next ((s1.modEnt (fun e => { e with moves := some ms, era := s1.nextId })).finish .flying)

/-- Translates a transfer that has passed rows 1 to 7 of R227, and issues it. -/
def State.xgo (s : State) (k : XKind) (opv : List Nat) : Out :=
  match s.xmoves s.cur.core (s.xctx s.cur.core) k opv with
  | (.error t, s1) => s1.trapWith t
  | (.ok ms, s1) => s1.fly opv ms

/-- A rectangle transfer between device memory and scratch (R229, R233). -/
def State.xrect (s : State) (k : XKind) (a b d : Nat) : Out :=
  let c := s.cur.core
  if s.cur.ent.issued then s.refly k
  else if rectOk d = false then s.trap 0x52
  else
    let rows := k.rows [a, b, d]
    match firstErr (devErrs (rows.map (fun r => (r.far, r.len))) ++ nearErrs c (rows.map (fun r => (r.near, r.len))) ++ alignErrs [(b, 64), (a, 64)]) with
    | some t => s.trapWith t
    | none => if s.held? then s.waits else s.xgo k [a, b, d]

/-- XLD (R229). -/
def execXld (a b c : Nat) (s : State) : Out := s.xrect { dir := .load } (s.rn a) (s.rn b) (s.rn c)

/-- XLD.acq (R229). -/
def execXldAcq (a b c : Nat) (s : State) : Out := s.xrect { dir := .load, acq := true } (s.rn a) (s.rn b) (s.rn c)

/-- XST (R233). -/
def execXst (a b c : Nat) (s : State) : Out := s.xrect { dir := .store } (s.rn a) (s.rn b) (s.rn c)

/-- The checks of a ring form (R227 rows 1 to 6): the trap, or the ring. -/
def State.xringCheck (s : State) (q b d : Nat) : Except Trap Ring :=
  let rows := ({ dir := .load } : XKind).rows [0, b, d]
  if rectOk d = false then .error { cause := 0x52 }
  else if isSeq s.cur.core then .error { cause := 0x50 }
  else
    match s.ring q with
    | none => .error { cause := 0x50 }
    | some r =>
      if r.slotb < rowsBytes rows then .error { cause := 0x51 }
      else
        match firstErr (devErrs (rows.map (fun x => (x.far, x.len))) ++ alignErrs [(b, 64)]) with
        | some t => .error t
        | none => .ok r

/-- XLDR (R230): a push. -/
def execXldr (b c q : Nat) (s : State) : Out :=
  let k : XKind := { dir := .load, ring := some q }
  if s.cur.ent.issued then s.refly k
  else
    match s.xringCheck q (s.rn b) (s.rn c) with
    | .error t => s.trapWith t
    | .ok r =>
      let opv := [r.tailAddr 0, s.rn b, s.rn c, r.slotb]
      match s.xmoves s.cur.core (s.xctx s.cur.core) k opv with
      | (.error t, s1) => s1.trapWith t
      | (.ok ms, s1) =>
        if s.held? ∨ r.canPush 1 = false then s.waits
        else (s1.modRing q (fun x => { x with pushBy := 5, pushN := 1 })).fly opv ms

/-- XST of a ring slot (R233): a pop. -/
def execXstRing (b c q : Nat) (s : State) : Out :=
  let k : XKind := { dir := .store, ring := some q }
  if s.cur.ent.issued then s.refly k
  else
    match s.xringCheck q (s.rn b) (s.rn c) with
    | .error t => s.trapWith t
    | .ok r =>
      let opv := [r.headAddr 0, s.rn b, s.rn c]
      match s.xmoves s.cur.core (s.xctx s.cur.core) k opv with
      | (.error t, s1) => s1.trapWith t
      | (.ok ms, s1) =>
        if s.held? ∨ r.canPop 1 = false then s.waits
        else (s1.modRing q (fun x => { x with popBy := 6, popN := 1 })).fly opv ms

/-- The words of an index list. -/
def words4 (bs : List Byte) (n : Nat) : List Nat := (List.range n).map (fun i => leNat ((bs.drop (4 * i)).take 4))

/-- The parts of `n` bytes of device memory at `a` on a sequencer's scratch side (R225), by sector, each walked as a read. -/
def State.nearParts (s : State) (a n : Nat) : Except Trap (List (Nat × Loc × Nat)) × State :=
  let c := s.cur.core
  if isSeq c then
    match s.sectorLocs c (s.xctx c) .read a n with
    | (.error t, s1) => (.error t, s1)
    | (.ok ls, s1) => (.ok (ls.map (fun p => (p.1, p.2, min 64 (min (a + n) ((p.1 / 4096 + 1) * 4096) - p.1)))), s1)
  else (.ok [], s)

/-- Reads `n` bytes on the scratch side at `a`: scratch once its pages are pinned, or on a sequencer the parts `ps` of device memory. A sector that an error strikes
reads as zeros, with a record (R227). -/
def State.nearRead (s : State) (a n : Nat) (ps : List (Nat × Loc × Nat)) (f : State → List Byte → Out) : Out :=
  let c := s.cur.core
  if isSeq c then
    let r := s.memRead c (s.xctx c) 0 0 (fun s l n => s.devRead c l n) ps
    f r.2 r.1
  else
    s.withScratch [(a, n)] (fun s =>
      let r := s.sreadUe c a n
      f r.2 r.1)

/-- XGATH and XSCAT (R231, R235): the index list is read when the instruction issues. The rows of R227 that need no index are checked also where the list
cannot be read. -/
def State.xindexed (s : State) (k : XKind) (a b d : Nat) : Out :=
  let c := s.cur.core
  let n := 4 * gathN d
  let ia := gathIdx d
  let plain := nearErrs c ((List.range (gathN d)).map (fun i => (a + i * gathRowb d, gathRowb d))) ++ alignErrs [(b, 64), (a, 64), (ia, 4)]
  let go := fun (s : State) (bs : List Byte) =>
    let opv := [a, b, d] ++ words4 bs (gathN d)
    match firstErr (devErrs ((k.rows opv).map (fun r => (r.far, r.len))) ++ plain) with
    | some t => s.trapWith t
    | none => s.xgo k opv
  if s.cur.ent.issued then s.refly k
  else if bits d 63 46 ≠ 0 then s.trap 0x52
  else if 2 ^ 56 ≤ b then s.trapWith (addrTrap 0x10 b)
  else
    match (if isSeq c = false ∧ 0x1000000 < ia + n then firstErr (scratchErrs [(ia, n)] ++ plain) else none) with
    | some t => s.trapWith t
    | none =>
      if s.held? ∨ s.unmoved c (engCode s.cur.eng) = true ∨ (s.cur.eng = .xs ∧ s.collAhead c [(false, ia, n)] = true) then s.waits
      else
        match s.nearParts ia n with
        | (.error t, s1) => s1.trapWith ((firstErr plain).getD t)
        | (.ok ps, s1) => s1.nearRead ia n ps go

/-- XGATH (R231). -/
def execXgath (a b c : Nat) (s : State) : Out := s.xindexed { dir := .load, indexed := true } (s.rn a) (s.rn b) (s.rn c)

/-- XSCAT (R235). -/
def execXscat (a b c : Nat) (s : State) : Out := s.xindexed { dir := .store, indexed := true } (s.rn a) (s.rn b) (s.rn c)

/-- Row 5 of R227 for XSTA (R234): the accumulator range must be the issuing core's own. -/
def State.xstaErr (s : State) (a n : Nat) : List (Nat × Trap) :=
  let c := s.cur.core
  if isSeq c ∨ 2 ^ 32 ≤ a then [(5, addrTrap 0x12 a)]
  else
    match s.accPlace c (s.ctxOn c) a with
    | .error cause => [(5, addrTrap cause a)]
    | .ok (w, off) => if w ≠ c ∨ 0x100000 < off + n then [(5, addrTrap 0x12 a)] else []

/-- XSTA (R234). -/
def execXsta (a b c : Nat) (s : State) : Out :=
  let k : XKind := { dir := .store, near := .acc }
  let d := s.rn c
  if s.cur.ent.issued then s.refly k
  else if rectOk d = false then s.trap 0x52
  else
    let opv := [s.rn a, s.rn b, d]
    let rows := k.rows opv
    match firstErr (devErrs (rows.map (fun r => (r.far, r.len))) ++ s.xstaErr (s.rn a) (rowsBytes rows) ++ alignErrs [(s.rn b, 64), (s.rn a, 64)]) with
    | some t => s.trapWith t
    | none => if s.held? then s.waits else s.xgo k opv

/-- XSTREL (R236). -/
def execXstrel (a b : Nat) (s : State) : Out :=
  let k : XKind := { dir := .store, near := .lit, unit := 8 }
  if s.cur.ent.issued then s.refly k
  else
    match firstErr (devErrs [(s.rn b, 8)] ++ alignErrs [(s.rn b, 8)]) with
    | some t => s.trapWith t
    | none => if s.held? then s.waits else s.xgo k [s.rn a, s.rn b, 0]

-- Moving sectors.

/-- Reads the source of a move: `none` while its scratch page is not pinned. -/
def State.moveRead (s : State) (c ctx : Nat) (acq : Bool) (m : Move) : Option (List Byte) × State :=
  match m.src with
  | .lit bs => (some bs, s)
  | .dev va l =>
    let s0 := s.noteUnreachable c ctx va l
    let s1 := if acq then s0.pushSector c l else s0
    match s.memHit false l with
    | some code => (some (List.replicate m.len 0), s1.memError c ctx code l va 0)
    | none => (some (s1.devRead c l m.len), s1)
  | .scratch a =>
    match s.present? c [(a, m.len)] with
    | some s1 => (none, s1)
    | none =>
      let r := s.sreadUe c a m.len
      (some r.1, r.2.usedRange c a m.len)
  | .acc w off va =>
    if s.accHit w off m.len then (some (List.replicate m.len 0), s.errorAt (dieOf w) c ctx 4 (off / 64 * 64) va 0) else (some (mread (s.seat w).acc off m.len), s)

/-- Writes the destination of a move: `none` while its scratch page is not pinned. -/
def State.moveWrite (s : State) (c ctx : Nat) (m : Move) (bs : List Byte) : Bool × State :=
  match m.dst with
  | .dev va l => (true, (s.noteUnreachable c ctx va l).performWrite c l bs)
  | .scratch a =>
    match s.present? c [(a, m.len)] with
    | some s1 => (false, s1)
    | none => (true, (s.swrite c a bs).usedRange c a m.len)
  | .acc w off _ => (true, s.modSeat w (fun x => { x.touch off m.len with acc := mwrite x.acc off bs }))
  | .lit _ => (true, s)

/-- Performs one move: whether it was made. -/
def State.moveOne (s : State) (c ctx : Nat) (acq : Bool) (m : Move) : Bool × State :=
  match s.moveRead c ctx acq m with
  | (none, s1) => (false, s1)
  | (some bs, s1) => s1.moveWrite c ctx m bs

/-- Performs moves in order until one cannot be made: how many were made. -/
def State.moveAll (s : State) (c ctx : Nat) (acq : Bool) (ms : List Move) : Nat × State :=
  match ms with
  | [] => (0, s)
  | m :: r =>
    match s.moveOne c ctx acq m with
    | (false, s1) => (0, s1)
    | (true, s1) =>
      let (n, s2) := s1.moveAll c ctx acq r
      (n + 1, s2)

/-- What completes with a transfer: its ring's push or pop. -/
def Member.xferDone (m : Member) (k : XKind) : Member :=
  match k.ring, k.dir with
  | some q, .load => m.modRing q (fun r => r.pushed 1)
  | some q, .store => m.modRing q (fun r => r.popped 1)
  | none, _ => m

/-- Replaces and removes the instruction at place `i` of those in flight in half `g`. -/
def Member.setFlight (m : Member) (g i : Nat) (e : Entry) : Member := m.setFl g ((m.fl g).set i e)
def Member.dropFlight (m : Member) (g i : Nat) : Member := m.setFl g ((m.fl g).eraseIdx i)

/-- Whether an instruction in flight has moved all its sectors. -/
def Entry.allMoved (e : Entry) : Bool := match e.moves with
  | some ms => decide (ms.length ≤ e.moved)
  | none => false

/-- The strict time at which a transfer completes, when it is padded (01 R32): 2 µs and 1 ns for each sector of device memory. -/
def Entry.due (e : Entry) : Option Nat :=
  match e.moves with
  | some ms => if ms.any Move.far? then none else some (e.t0 + 2000 + (ms.filter (fun m => m.src.dev? || m.dst.dev?)).length)
  | none => none

/-- An event that completes the padded entry `e`: `none` while it must wait. -/
def State.strictDue (s : State) (c : Nat) (due : Option Nat) : Option State :=
  match due with
  | none => some s
  | some t => s.strictAt c t

/-- Counts as moved the sectors that were moved ahead of their turn, once those before them are; `n` bounds their number. -/
def Entry.caught (e : Entry) (n : Nat) : Entry :=
  match n with
  | 0 => e
  | k + 1 => if e.ahead.contains e.moved then { e with moved := e.moved + 1, ahead := e.ahead.filter (fun i => i != e.moved) }.caught k else e

/-- The 64-byte unit that a place lies in: its space, and its number there (13 R327). -/
def Place.unit (p : Place) : Option (Nat × Nat) :=
  match p with
  | .dev _ l => some (l.tgt, l.pa / 64)
  | .scratch a => some (3, a / 64)
  | .acc w off _ => some (4 + w, off / 64)
  | .lit _ => none

/-- Whether two moves touch one unit: then the one that comes first in the stream is made first (R224, 13 R329). -/
def Move.meets (x y : Move) : Bool :=
  [x.src, x.dst].any (fun p => [y.src, y.dst].any (fun q => p.unit.isSome && p.unit == q.unit))

/-- The sectors that a transfer in flight has still to move. -/
def Entry.left (e : Entry) : List Move :=
  let ms := e.moves.getD []
  ((List.range ms.length).zip ms).filterMap (fun p => if p.1 < e.moved ∨ e.ahead.contains p.1 = true then none else some p.2)

/-- The sectors that a transfer moves next in order: at most `n`, up to one that was moved ahead of its turn. -/
def Entry.nextMoves (e : Entry) (ms : List Move) (n : Nat) : List Move :=
  ((ms.drop e.moved).take n).take (e.ahead.foldl (fun m i => min m (i - e.moved)) n)

/-- A transfer walks again, with the window bases that it read at issue (12 R313, R322). -/
def State.rewalk (s : State) (c g : Nat) (e : Entry) (k : XKind) : Except Trap (List Move) × State :=
  let r := ({ s with cur := { core := c, eng := (engOf g).getD .xl, ent := e } } : State).xmoves c (s.xctx c) k e.opv
  (r.1, { r.2 with cur := s.cur })

/-- The transfer at place `i` in flight in half `g`, having moved sectors, completes when it has moved all and its strict time has come. -/
def State.transferOver (s : State) (c g i : Nat) (e : Entry) (k : XKind) : State :=
  if e.allMoved then
    match s.strictDue c e.due with
    | some s2 => s2.modMem c (fun m => ((m.dropFlight g i).xferDone k).postPrefix g e.pfx)
    | none => s.modMem c (fun m => m.setFlight g i e)
  else s.modMem c (fun m => m.setFlight g i e)

/-- What the instructions in flight in half `g` before place `i` have still to move: a sector that meets none of it may be moved before it (R224, 13 R329). -/
def State.leftBefore (s : State) (c g i : Nat) : List Move := (((s.mem c).fl g).take i).flatMap Entry.left

/-- The transfer at place `i` in flight in half `g` moves up to `n` sectors, none that an earlier instruction of its stream is still to move. -/
def State.transferStep (s : State) (c g i n : Nat) (e : Entry) (k : XKind) : State :=
  match e.moves with
  | none =>
    if (((s.mem c).fl g).take i).all Entry.allMoved = false then s
    else
    match s.rewalk c g e k with
    | (.error t, s1) => (s1.modMem c (fun m => ((m.dropFlight g i).setQ g ({ e with issued := true } :: m.q g)).stop g t)).missOnTrap c t
    | (.ok ms, s1) => s1.modMem c (fun m => m.setFlight g i { e with moves := some ms, era := s1.nextId })
  | some ms =>
    let before := s.leftBefore c g i
    let (k', s1) := s.moveAll c (s.xctx c) k.acq ((e.nextMoves ms n).takeWhile (fun m => !before.any m.meets))
    s1.transferOver c g i ({ e with moved := e.moved + k' }.caught e.ahead.length) k

/-- The transfer at place `i` in flight in half `g` moves the sector `j` places after its next one ahead of its turn (13 R327: each sector separately). It meets none
that stands before it in the transfer, and none of these, which a stop makes it move too (`State.closeGap`), meets what earlier instructions have still to move. -/
def State.transferAhead (s : State) (c g i j : Nat) (e : Entry) (k : XKind) : State :=
  match e.moves with
  | none => s
  | some ms =>
    match ms[e.moved + j]? with
    | none => s
    | some m =>
      let before := s.leftBefore c g i
      if j = 0 ∨ e.ahead.contains (e.moved + j) = true ∨ ((ms.drop e.moved).take j).any m.meets = true
          ∨ ((ms.drop e.moved).take (j + 1)).any (fun y => before.any y.meets) = true then s
      else
        match s.moveOne c (s.xctx c) k.acq m with
        | (false, s1) => s1
        | (true, s1) => s1.modMem c (fun x => x.setFlight g i { e with ahead := e.ahead ++ [e.moved + j] })

/-- At a stop, the sectors of a transfer before one that was moved ahead of its turn are moved too, so that it has performed those before its progress and no
others (13 R339). -/
def State.closeGap (s : State) (c g i : Nat) (e : Entry) (k : XKind) : State :=
  (List.range e.ahead.length).foldl (fun s _ =>
    match ((s.mem c).fl g)[i]? with
    | some e => if e.ahead = [] then s else s.transferStep c g i (e.ahead.foldl max 0 + 1 - e.moved) e k
    | none => s) s

-- Bulk copies (R232).

/-- The first free copy slot of 512. -/
def Seat.freeCopy (x : Seat) : Option Nat := (List.range 512).find? (fun k => (tget x.copies k).isNone)

/-- Whether a side of a copy is in scratch: never on a sequencer. -/
def copyScratch (c f : Nat) : Bool := f == 1 && !isSeq c

/-- XCPY (R232): `t` is 1 for a source in scratch, `f` for a destination. -/
def execXcpy (a b c t f : Nat) (s : State) : Out :=
  let k := s.cur.core
  let dst := s.rn a
  let src := s.rn b
  let n := s.rn c
  let sides := [(dst, f), (src, t)]
  let dev := sides.filterMap (fun p => if copyScratch k p.2 then none else some (p.1, n))
  let scr := sides.filterMap (fun p => if copyScratch k p.2 then some (p.1, n) else none)
  if 2 ^ 36 < n ∨ n % 64 ≠ 0 then s.trap 0x52
  else
    match firstErr ((if n = 0 then [] else devErrs dev ++ slabErrs dev ++ scratchErrs scr) ++ alignErrs [(dst, 64), (src, 64)]) with
    | some e => s.trapWith e
    | none =>
      if s.held? then s.waits
      else
        match (s.seat k).freeCopy with
        | none => s.waits
        | some i =>
          if n = 0 then s.done
          else
          let x : Copy := { ent := { s.cur.ent with issued := true, t0 := s.ptc }, dst := dst, src := src, len := n }
          .next ((s.modSeat k (fun y => { y with copies := tset y.copies i x })).finish .gone)

/-- One end of the next sector of a copy, at `a`: with the place of its page, which is translated when the copy comes to it (R232). -/
def State.copySide (s : State) (c : Nat) (kind : Access) (f a : Nat) (held : Option (Nat × Loc)) : Except Trap (Place × Option (Nat × Loc)) × State :=
  if copyScratch c f then (.ok (.scratch a, none), s)
  else
    match held with
    | some l => (.ok (.dev a l.2, held), s)
    | none =>
      match s.translate c (s.xctx c) a kind false with
      | (.error t, s1) => (.error t, s1)
      | (.ok l, s1) => (.ok (.dev a l, some (s1.nextId, l)), s1)

/-- The next sector of a copy, and the copy with the pages that it then holds: the trap of the first that fails translation. -/
def State.copyMove (s : State) (c : Nat) (x : Copy) : Except Trap (Move × Copy) × State :=
  let h := (x.ent.lanes.headD 0).toNat
  match s.copySide c .read (h / 2 % 2) (x.src + x.done) x.srcLoc with
  | (.error t, s1) => (.error t, s1)
  | (.ok src, s1) =>
    match s1.copySide c .write (h % 2) (x.dst + x.done) x.dstLoc with
    | (.error t, s2) => (.error t, s2)
    | (.ok dst, s2) => (.ok ({ src := src.1, dst := dst.1, len := 64 }, { x with srcLoc := src.2, dstLoc := dst.2 }), s2)

/-- A copy that has moved its next sector; it holds a page until it leaves it. -/
def Copy.moved (x : Copy) : Copy :=
  let next := fun (a : Nat) (held : Option (Nat × Loc)) => if (a + x.done + 64) % 4096 = 0 then none else held.map (fun l => (l.1, l.2.add 64))
  { x with done := x.done + 64, srcLoc := next x.src x.srcLoc, dstLoc := next x.dst x.dstLoc }

/-- A copy that holds no page. -/
def Copy.parked (x : Copy) : Copy := { x with srcLoc := none, dstLoc := none }

/-- Replaces copy `i` of core `c`. -/
def State.setCopy (s : State) (c i : Nat) (x : Copy) : State := s.modSeat c (fun y => { y with copies := tset y.copies i x })

/-- Whether a copy waits for its fault to be served: the XL has trapped for it (R232). -/
def State.copyFaulted (s : State) (c i : Nat) : Bool := (s.mem c).stuck.any (fun p => p.2.copy == i + 1)

/-- Copies up to `n` sectors of copy `i`, stopping where a page fails or is not pinned. The first TGT 1 or TGT 2 page that it touches counts STRICTMISS (01 R32). -/
def State.copySectors (s : State) (c i n : Nat) : State :=
  match n with
  | 0 => s
  | k + 1 =>
    match tget (s.seat c).copies i with
    | none => s
    | some x =>
      if x.len ≤ x.done then s
      else
        match s.copyMove c x with
        | (.error _, s1) => s1
        | (.ok (m, y), s1) =>
          match s1.moveOne c (s1.xctx c) false m with
          | (false, s2) => s2.setCopy c i y
          | (true, s2) =>
            let s3 := if m.far? ∧ x.far = false then s2.strictMiss c else s2
            (s3.setCopy c i { y.moved with far := x.far || m.far? }).copySectors c i k

/-- XCPY_COMPLETE (R232): copy `i` moves up to `n` sectors; after the last it releases its copy slot and posts, with STRICT = 1 at its strict time unless it touched
a TGT 1 or TGT 2 page (01 R32). -/
def execXcpyComplete (c i n : Nat) (s : State) : Out :=
  match tget (s.seat c).copies i with
  | none => .next s
  | some _ =>
    if s.flows c = false ∨ s.copyFaulted c i = true then .next s
    else
      let s1 := s.copySectors c i n
      match tget (s1.seat c).copies i with
      | none => .next s1
      | some x =>
        if x.done < x.len then .next s1
        else
          match (if x.far then some s1 else s1.strictAt c (x.ent.t0 + 2000 + x.len / 64)) with
          | none => .next s1
          | some s2 => .next ((s2.modSeat c (fun y => { y with copies := tdel y.copies i })).modMem c (fun m => m.postPrefix 5 x.ent.pfx))

/-- COPY_PAGE_FAULT (R232): the page of the next sector of copy `i` fails translation; the XL traps, before its head issues, in the copy's name. -/
def execCopyPageFault (c i : Nat) (s : State) : Out :=
  match tget (s.seat c).copies i with
  | none => .next s
  | some x =>
    if s.flows c = false ∨ s.copyFaulted c i = true ∨ x.len ≤ x.done then .next s
    else
      match s.copyMove c x with
      | (.ok _, s1) => .next s1
      | (.error t, s1) => .next (((s1.setCopy c i x.parked).modMem c (fun m => m.stop 5 { t with copy := i + 1, prog := x.done / 64 })).strictMiss c)

end Sys2Proof.Machine
end

