-- ==== Sys2Proof/Machine/Message.lean ====
section
/-! DEFINITION. XFENCE (09 R237), host-ring appends (R238), token messages (R239 to R242), and the completion of what the load and store halves
have in flight (13 R332). -/

namespace Sys2Proof.Machine

/-- Whether an entry was dealt before the executing instruction (R237). -/
def Entry.before (e x : Entry) : Bool := decide (e.seqNo < x.seqNo) || (e.seqNo == x.seqNo && decide (e.lane < x.lane))

/-- Whether an XFENCE must wait: an XL or XS instruction dealt before it, or a bulk copy, has not completed. What a handler's EnterHandler set aside
does not count. -/
def State.fenced (s : State) : Bool :=
  let m := s.cm
  (m.q 5 ++ m.q 6 ++ m.fl 5 ++ m.fl 6).any (fun e => e.before s.cur.ent) || !(s.seat s.cur.core).copies.isEmpty

/-- XFENCE of the XL (R237). -/
def execXfenceXl (s : State) : Out := if s.fenced then s.waits else s.done

/-- XFENCE of the XS (R237). -/
def execXfenceXs (s : State) : Out := if s.fenced then s.waits else s.done

/-- Key of channel `ch` of the inbox that context `x` keeps on core `w` (R239): by die offset and core number. -/
def State.inboxKey (s : State) (x w ch : Nat) : Nat := (((dieOf w + 8 - (s.ctx x).ad) % 8) * 64 + coreOnDie w) * 8 + ch

/-- A channel of an inbox. -/
def State.inbox (s : State) (x k : Nat) : Inbox := tgetD (s.ctx x).inbox k {}
def State.modInbox (s : State) (x k : Nat) (f : Inbox → Inbox) : State :=
  s.modCtx x (fun c => { c with inbox := tset c.inbox k (f (tgetD c.inbox k {})) })

/-- Whether core `w` lies in the partition of context `x` (16 R376). -/
def State.inArc (s : State) (x w : Nat) : Bool :=
  let c := s.ctx x
  let q := ((dieOf w + 8 - c.ad) % 8) * 4 + coreOnDie w / 16
  decide (c.sq ≤ q ∧ q < c.sq + c.nq)

/-- The core that a message goes to (R241); `none` traps MSG_RANGE. -/
def State.msgCore (s : State) (x b : Nat) : Option Nat :=
  if b % 2 ^ 22 ≠ 0 ∨ 2 ^ 32 ≤ b then none
  else
    match s.accPlace s.cur.core x b with
    | .ok (w, _) => if s.inArc x w then some w else none
    | .error _ => none

/-- The context whose inboxes and host rings the executing instruction uses (16 R499), or CTX_OPERAND, which stands before every row of R227 (DESIGN CHOICE,
log entry 26). -/
def State.targetCtx (s : State) : Except Nat Nat := s.barrierCtx

/-- XMSGTX (R240, R241): it issues once the channel has a free place, which it reserves, and takes its 64 bytes. -/
def execXmsgtx (a b c ch : Nat) (s : State) : Out :=
  let k := s.cur.core
  let A := s.rn a
  match s.targetCtx with
  | .error cause => s.trap cause
  | .ok x =>
    let dst := s.msgCore x (s.rn b)
    let e7 := match dst with
      | none => [(7, addrTrap 0x16 (s.rn b))]
      | some _ => []
    match firstErr (nearErrs k [(A, 64)] ++ alignErrs [(A, 64)] ++ e7), dst with
    | some t, _ => s.trapWith t
    | none, none => s.trap 0x16
    | none, some w =>
      match s.nearParts A 64 with
      | (.error t, s1) => s1.trapWith t
      | (.ok ps, s1) =>
        let key := s.inboxKey x w ch
        if s.unmoved k 6 ∨ s.collAhead k [(false, A, 64)] = true ∨ 16 ≤ (s.inbox x key).msgs.length + (s.inbox x key).reserved then s.waits
        else
          (s1.farMiss k (ps.map (fun p => p.2.1))).nearRead A 64 ps (fun s bs =>
            let head := s.rn c % 2 ^ 32 * 2 ^ 32 + ch * 2 ^ 10 + k
            let s1 := s.modInbox x key (fun i => { i with reserved := i.reserved + 1 })
            .next ((s1.modEnt (fun e => { e with
              opv := [x, key], moves := some [], moved := 0, buf := leBytes 8 head ++ bs.drop 8, t0 := s.ptc })).finish .flying))

/-- Puts the message of the entry at place `i` of the XS's instructions in flight into its inbox, and completes the entry. A message to a die that does not
answer is discarded, with an error record (17 R409). -/
def State.deliverMsg (s : State) (c i : Nat) (e : Entry) : State :=
  let x := e.opv.getD 0 0
  let key := e.opv.getD 1 0
  let far := s.reaches (dieOf c) (((s.ctx x).ad + key / 512) % 8)
  let s1 := s.modInbox x key (fun b =>
    if b.reserved = 0 then b else { msgs := if far then b.msgs ++ [e.buf] else b.msgs, reserved := b.reserved - 1 })
  (if far then s1 else s1.errorRecord c (s.xctx c) 10 0 0 0).modMem c (fun m => (m.dropFlight 6 i).postPrefix 6 e.pfx)

/-- MESSAGE_ARRIVAL (R241): the oldest message of core `c` on its way stands in its inbox; so all messages of one sender arrive in the order sent, also those to
different channels or cores, which R241 leaves open (DESIGN CHOICE, log entry 56). -/
def execMessageArrival (c : Nat) (s : State) : Out :=
  let l := (s.mem c).fl 6
  match l.findIdx? Entry.isMsg with
  | none => .next s
  | some i =>
    let e := l.getD i {}
    if s.flows c = false then .next s
    else
      match s.strictAt c (e.t0 + 3000) with
      | none => .next s
      | some s1 => .next (s1.deliverMsg c i e)

/-- XMSGRX (R242): it issues once the channel holds a message, which it takes and writes to scratch. -/
def execXmsgrx (a ch : Nat) (s : State) : Out :=
  let c := s.cur.core
  let A := s.rn a
  match firstErr (nearErrs c [(A, 64)] ++ alignErrs [(A, 64)] ++ (if isSeq c then [(7, ({ cause := 0x16 } : Trap))] else [])) with
  | some t => s.trapWith t
  | none =>
    let x := s.ctxOn c
    let key := s.inboxKey x c ch
    match (s.inbox x key).msgs with
    | [] => s.waits
    | bs :: _ =>
      if s.held? ∨ s.unmoved c 5 = true then s.waits
      else s.withScratch [(A, 64)] (fun s => ((s.modInbox x key (fun i => { i with msgs := i.msgs.drop 1 })).swrite c A bs).done)

/-- The XHRINGs in flight to ring `q` of context `x`: their cores and entries. -/
def State.hringsTo (s : State) (x q : Nat) : List (Nat × Entry) :=
  s.cores.flatMap (fun p => ((p.2.seat.mem.fl 6).filter (fun e => e.isHring && e.opv.getD 0 0 == x && e.opv.getD 1 0 == q)).map (fun e => (p.1, e)))

/-- The places of the ring entries from count `w` on, and of WADDR, translated as writes in the ring's context. -/
def State.hringPlaces (s : State) (c x : Nat) (r : HRing) (w n : Nat) : Except Trap (List (Nat × Loc)) × State :=
  let vas := (List.range n).map (fun i => r.base + 64 * ((w + i) % 2 ^ r.log2n)) ++ [r.waddr]
  match s.translateAll c x .write false vas with
  | (.error t, s1) => (.error t, s1)
  | (.ok ls, s1) => (.ok (vas.zip ls), s1)

/-- XHRING (R238): it issues once the ring has room for its entries, behind what other XHRINGs have in flight there, with the entries it writes. -/
def execXhring (a b c : Nat) (s : State) : Out :=
  let k := s.cur.core
  let A := s.rn a
  let q := s.rn b
  let n := s.rn c
  match s.targetCtx with
  | .error cause => s.trap cause
  | .ok x =>
    if n = 0 ∨ 16 < n then s.trap 0x52
    else
      match firstErr (nearErrs k [(A, 64 * n)] ++ alignErrs [(A, 64)] ++ (if 63 < q then [(7, addrTrap 0x17 q)] else [])) with
      | some t => s.trapWith t
      | none =>
        let r := tgetD (s.ctx x).rings q {}
        let fl := (s.hringsTo x q).foldl (fun t p => t + p.2.opv.getD 2 0) 0
        let w := (r.widx + fl) % 2 ^ 32
        if r.on = false then s.waits
        else
          match s.hringPlaces k x r w n with
          | (.error t, s1) => s1.trapWith t
          | (.ok ps, s1) =>
            match s1.nearParts A (64 * n) with
            | (.error t, s2) => s2.trapWith t
            | (.ok ns, s2) =>
            if s.held? ∨ s.ringRoom x q (fl + n) = false ∨ s.unmoved k 6 = true ∨ s.collAhead k [(false, A, 64 * n)] = true then s.waits
            else
              s2.nearRead A (64 * n) ns (fun s bs =>
                let es := (List.range n).map (fun i => (bs.drop (64 * i)).take 64) ++ [leBytes 8 ((w + n) % 2 ^ 32)]
                let ms : List Move := (ps.zip es).map (fun p => { src := .lit p.2, dst := .dev p.1.1 p.1.2, len := p.2.length })
                s.fly [x, q, n, w] ms)

/-- The XHRING at place `i` of core `c`'s XS writes its entries and then the index, and completes, once it is the oldest at its ring. -/
def State.hringDone (s : State) (c i : Nat) (e : Entry) : State :=
  let x := e.opv.getD 0 0
  let q := e.opv.getD 1 0
  let w := e.opv.getD 3 0
  let n := e.opv.getD 2 0
  let s1 := (s.moveAll c (s.xctx c) false (e.moves.getD [])).2
  ((s1.modCtx x (fun k => { k with rings := tset k.rings q { tgetD k.rings q {} with widx := (w + n) % 2 ^ 32 } })).ringCount x q n).modMem c
    (fun m => (m.dropFlight 6 i).postPrefix 6 e.pfx)

/-- Whether an XHRING is the oldest in flight to its ring. -/
def State.hringFirst (s : State) (e : Entry) : Bool :=
  (s.hringsTo (e.opv.getD 0 0) (e.opv.getD 1 0)).all (fun p => decide ((p.2.opv.getD 3 0 + 2 ^ 32 - e.opv.getD 3 0) % 2 ^ 32 < 2 ^ 31))

/-- Whether an instruction in flight moves nothing while one before it in its stream has sectors left: an XSTREL (R236), and an XHRING, whose data moves in one step
(R228). -/
def Entry.inOrder (g : Nat) (e : Entry) : Bool :=
  e.isHring || (match (decode? (if g = 5 then .xl else .xs) e.lanes).bind xkind with
    | some k => k.near == .lit
    | none => false)

/-- Whether every instruction in flight before `e` in half `g` lets it move (R224): it has moved all its sectors, or `e` need not wait for it but at the units that both
touch (`State.leftBefore`), or it is a collective that is to read none of those that `e` reads (13 R336). -/
def State.mayMove (s : State) (c g : Nat) (l : List Entry) (e : Entry) : Bool :=
  l.all (fun x => if g = 6 ∧ x.isColl = true then !clashes (x.toRead (s.teamPos c)) (e.toRead (s.teamPos c))
    else x.allMoved || (x.moves.isSome && !e.inOrder g))

/-- Whether half `g` has trapped at an issued instruction that comes before `e` in its stream: one that was to walk again and failed. -/
def Member.behindStuck (m : Member) (g : Nat) (e : Entry) : Bool :=
  m.stuck.any (fun p => p.1 == g) && (match (m.q g).head? with
    | some h => h.issued && h.before e
    | none => false)

/-- TRANSFER_COMPLETE (13 R332): `half` 0 is the XL, 1 the XS; the instruction at place `n / 65536 % 65536` of those in flight moves `n % 65536` sectors at
most, none that one before it is still to move (R224), or, with `n / 2^32` not 0, the one sector so many places after its next. An XHRING moves its data in one
step (R228). -/
def execTransferComplete (c half n : Nat) (s : State) : Out :=
  let g := 5 + half % 2
  let i := n / 65536 % 65536
  let l := (s.mem c).fl g
  if s.flows c = false then .next s
  else
    match l[i]? with
    | none => .next s
    | some e =>
      if (s.mem c).behindStuck g e = true ∨ s.mayMove c g (l.take i) e = false then .next s
      else if g = 6 ∧ e.isHring = true then
        if s.hringFirst e then
          match s.strictDue c e.due with
          | some s1 => .next (s1.hringDone c i e)
          | none => .next s
        else .next s
      else
        match (decode? (if g = 5 then .xl else .xs) e.lanes).bind xkind with
        | none => .next s
        | some k => .next (if n < 2 ^ 32 then s.transferStep c g i (n % 65536) e k else s.transferAhead c g i (n / 2 ^ 32) e k)

end Sys2Proof.Machine
end

