-- ==== Sys2Proof/Machine/Collective.lean ====
section
/-! DEFINITION. Collectives on the trellis (18): issue and checks, the combining tree, the begin and the delivery of an instance. -/

namespace Sys2Proof.Machine

/-- Element types that collectives name by code (R424): the float format, if any. -/
def collFmt (dt : Nat) : Option Fmt :=
  match dt with
  | 0 => some fmtF32 | 1 => some fmtBf16 | 2 => some fmtF16 | 3 => some fmtE4m3 | 4 => some fmtE5m2 | _ => none

/-- What instructions of one instance must agree in (R421), with the value of s[c] where it counts. -/
def collKey (i : Instr) (cv : Nat) : List Nat :=
  match i with
  | .ctri _ _ all _ cnt dd => [0, all, 0, cnt, dd]
  | .chist _ _ _ all _ dt cnt mass bb => [1, all, dt, cnt, mass * 4 + bb, cv]
  | .cmaxi _ _ all _ dt cnt mn => [2, all, dt, cnt, mn]
  | .csum _ _ _ all _ dt cnt => [3, all, dt, cnt, 0, cv]
  | .cbcast _ _ _ cnt root => [4, 0, 0, cnt, root]
  | _ => []

-- The combining tree (R426).

/-- One level of the tree over positioned partial results. -/
def treeLevel {α : Type} (f : Nat → Nat → α → α → α) (lvl : Nat) (l : List (Nat × α)) : List (Nat × α) :=
  match l with
  | (p, x) :: (_, y) :: r => (p, f lvl p x y) :: treeLevel f lvl r
  | r => r

/-- The tree over at most 8 contributions in position order. -/
def tree {α : Type} (f : Nat → Nat → α → α → α) (l : List α) : Option α :=
  (((treeLevel f 3 (treeLevel f 2 (treeLevel f 1 ((List.range l.length).zip l)))).head?).map (·.2))

/-- RoundTo(x + y, f32, RNE) of FP32 words. -/
def addWord (x y : Nat) : Nat := (rnd32 (sumFV false [f32 x, f32 y]).1 modeRne).1

/-- RoundTo(x * f + y, f32, RNE) of FP32 words. -/
def fmaWord (x f y : Nat) : Nat := (rnd32 (sumFV false [(FV.mul (f32 x) (f32 f)).1, f32 y]).1 modeRne).1

/-- The 32-bit words of bytes. -/
def wordsOf (bs : List Byte) : List Nat := words4 bs (bs.length / 4)

/-- A row of a softmax triple: m, l and the O words (R427). -/
structure TripleRow where
  m : Nat
  l : Nat
  o : List Nat
  deriving DecidableEq, Repr

/-- The rows of a frame (R427). -/
def tripleRows (rows od : Nat) (ws : List Nat) : List TripleRow :=
  (List.range rows).map (fun i => { m := ws.getD i 0, l := ws.getD (128 + i) 0, o := (List.range od).map (fun c => ws.getD (256 + i * od + c) 0) })

/-- CombineTriple of one row (R427); `x` holds the lower positions. -/
def combineRow (x y : TripleRow) : TripleRow :=
  let num := fun (w : Nat) => if (f32 w).isNan then FV.inf true else f32 w
  let mx := num x.m
  let my := num y.m
  let xBig := !(FV.lt false mx my)
  let (g, t, mg, ms) := if xBig then (x, y, mx, my) else (y, x, my, mx)
  let same := !(FV.lt false ms mg)
  let f : Nat :=
    if same then (rnd32 fvOne modeRne).1
    else if ms == FV.inf true then 0
    else (rnd32 (FV.exp2 (add32 modeRne ms mg.negate).1).1 modeRne).1
  if f = 0 then { m := (rnd32 mg modeRne).1, l := g.l, o := g.o }
  else { m := (rnd32 mg modeRne).1, l := fmaWord t.l f g.l, o := (t.o.zip g.o).map (fun p => fmaWord p.1 f p.2) }

/-- A member's bins (R428). -/
def histBins (w b cv : Nat) (mass : Bool) (n : Nat) (bs : List Byte) : List Nat :=
  let v := cv % 2 ^ w
  let flt := cv / 2 ^ 32 % 2 ^ w
  let all := leNat bs
  (List.range n).foldl (fun bins e =>
    let key : Nat := if mass then all / 2 ^ (64 * e) % 2 ^ 32 else all / 2 ^ (w * e) % 2 ^ w
    if key &&& flt = v &&& flt then
      let k := key / 2 ^ (8 * b) % 256
      let x := bins.getD k 0
      bins.set k (if mass then addWord x (all / 2 ^ (64 * e + 32) % 2 ^ 32) else (x + 1) % 2 ^ 32)
    else bins) (List.replicate 256 0)

/-- The entry that ranks first of two (R429): values and indices. -/
def rankFirst (dt : Nat) (least : Bool) (x y : Nat × Nat) : Nat × Nat :=
  let nx := dt == 0 && (f32 x.1).isNan
  let ny := dt == 0 && (f32 y.1).isNan
  if nx ∧ ny then (fmtF32.cnan, min x.2 y.2)
  else if nx then y
  else if ny then x
  else
    let lt := fun (a b : Nat) => match dt with
      | 0 => FV.lt true (f32 a) (f32 b)
      | 5 => decide (toSigned 32 a < toSigned 32 b)
      | _ => decide (a < b)
    if lt x.1 y.1 then (if least then x else y)
    else if lt y.1 x.1 then (if least then y else x)
    else (x.1, min x.2 y.2)

/-- One element of a CSUM node (R430): level, position, STEP, element number. -/
def sumElem (dt lvl pos step e x y : Nat) : Nat :=
  match collFmt dt with
  | none => (x + y) % 2 ^ 32
  | some f =>
    let v := (sumFV false [f.decode x, f.decode y]).1
    (f.roundV v (if dt = 0 then modeRne else { modeRne with dsr := some (dsrHash (16 * lvl + pos) step e) })).1

/-- Elements of width `w`. -/
def elemsOf (w n : Nat) (bs : List Byte) : List Nat := let v := leNat bs; (List.range n).map (fun e => v / 2 ^ (w * e) % 2 ^ w)

/-- Bytes of elements of width `w`. -/
def bytesOf (w : Nat) (l : List Nat) : List Byte := l.flatMap (fun x => leBytes (w / 8) x)

/-- The pairs (value, index) of CMAXI entries. -/
def pairsOf (n : Nat) (bs : List Byte) : List (Nat × Nat) := (List.range n).map (fun e => (leNat ((bs.drop (8 * e)).take 4), leNat ((bs.drop (8 * e + 4)).take 4)))

/-- The result of an instance from its sources in position order: bytes by offset in the destination (R427 to R431). -/
def collResult (i : Instr) (cv : Nat) (srcs : List (List Byte)) : List (Nat × List Byte) :=
  match i with
  | .ctri _ _ _ _ cnt dd =>
    let rows := cnt + 1
    let od := (dd + 1) * 16
    match tree (fun _ _ x y => (x.zip y).map (fun p => combineRow p.1 p.2)) (srcs.map (fun b => tripleRows rows od (wordsOf b))) with
    | none => []
    | some r => (List.range r.length).zip r |>.flatMap (fun p =>
        [(4 * p.1, leBytes 4 p.2.m), (512 + 4 * p.1, leBytes 4 p.2.l)] ++
          ((List.range od).zip p.2.o).map (fun q => (1024 + (p.1 * od + q.1) * 4, leBytes 4 q.2)))
  | .chist _ _ _ _ _ dt cnt mass bb =>
    match tree (fun _ _ x y => (x.zip y).map (fun p => if mass = 1 then addWord p.1 p.2 else (p.1 + p.2) % 2 ^ 32))
        (srcs.map (histBins (collWidth dt) bb cv (mass == 1) (cnt + 1))) with
    | none => []
    | some r => [(0, bytesOf 32 r)]
  | .cmaxi _ _ _ _ dt cnt mn =>
    match tree (fun _ _ x y => (x.zip y).map (fun p => rankFirst dt (mn == 1) p.1 p.2)) (srcs.map (pairsOf (cnt + 1))) with
    | none => []
    | some r => [(0, r.flatMap (fun p => leBytes 4 p.1 ++ leBytes 4 p.2))]
  | .csum _ _ _ _ _ dt cnt =>
    let w := collWidth dt
    match tree (fun lvl pos x y => ((List.range (cnt + 1)).zip (x.zip y)).map (fun p => sumElem dt lvl pos (cv % 2 ^ 32) p.1 p.2.1 p.2.2))
        (srcs.map (elemsOf w (cnt + 1))) with
    | none => []
    | some r => [(0, bytesOf w r)]
  | .cbcast _ _ _ _ root => [(0, srcs.getD root [])]
  | _ => []

-- Issue (R422, R424, R425).

/-- The channel of a member. -/
def Member.chan (m : Member) (ch : Nat) : Chan := tgetD m.chans ch {}

/-- Rows 2 and 4 of R425 for a scratch span, rows 3 to 5 for a CTRI frame. -/
def State.collErrs (s : State) (acc dst : Bool) (a n : Nat) : List (Nat × Trap) :=
  if acc then
    let off := a % 2 ^ 20
    (s.xstaErr a n).map (fun e => (3, e.2)) ++ (if a % 64 ≠ 0 then [(4, addrTrap 0x13 a)] else [])
      ++ (if dst ∧ ((s.seat s.cur.core).armed.any (fun o => decide (o < off + n ∧ off < o + 16))) = true then [(5, ({ cause := 0x80 } : Trap))] else [])
  else (scratchErrs [(a, n)]).map (fun e => (2, e.2)) ++ (if a % 64 ≠ 0 then [(4, addrTrap 0x13 a)] else [])

/-- A collective instruction (R422, R425) with its register values: it issues and arrives at its instance. `bad` says that s[c] holds a reserved bit,
`shape` that it breaks a limit of row 1. -/
def State.collective (s : State) (i : Instr) (a b cv : Nat) (bad shape : Bool) : Out :=
  let c := s.cur.core
  let pos := s.teamPos c
  let acc := match i with
    | .ctri _ _ _ _ _ _ => true
    | _ => false
  if s.cur.ent.issued then .next (s.finish .flying)
  else if bad then s.trap 0x03
  else if isSeq c ∨ shape = true then s.trap 0x52
  else
    match firstErr ((if collReads i pos then s.collErrs acc false a (collBytes i).1 else []) ++ (if collRecv i pos then s.collErrs acc true b (collBytes i).2 else [])) with
    | some t => s.trapWith t
    | none =>
      let ch := (collChan i).getD 0
      let x := s.cm.chan ch
      if 4 ≤ x.issued - x.delivered then s.waits
      else
        .next (((s.modCm (fun m => { m with chans := tset m.chans ch { x with issued := x.issued + 1 } })).modEnt (fun e => { e with
          opv := [x.issued, a, b, cv], moves := some [], moved := 0, t0 := s.ptc })).finish .flying)

/-- CTRI (R427). -/
def execCtri (a b all ch cnt dd : Nat) (s : State) : Out :=
  s.collective (.ctri a b all ch cnt dd) (s.rn a) (s.rn b) 0 false (decide (128 < cnt + 1))

/-- CHIST (R428). -/
def execChist (a b c all ch dt cnt mass bb : Nat) (s : State) : Out :=
  let w := collWidth dt
  let cv := s.rn c
  s.collective (.chist a b c all ch dt cnt mass bb) (s.rn a) (s.rn b) cv (decide (cv % 2 ^ 32 / 2 ^ w ≠ 0 ∨ cv / 2 ^ (32 + w) ≠ 0)) false

/-- CMAXI (R429). -/
def execCmaxi (a b all ch dt cnt mn : Nat) (s : State) : Out := s.collective (.cmaxi a b all ch dt cnt mn) (s.rn a) (s.rn b) 0 false false

/-- CSUM (R430). -/
def execCsum (a b c all ch dt cnt : Nat) (s : State) : Out :=
  s.collective (.csum a b c all ch dt cnt) (s.rn a) (s.rn b) (s.rn c) (decide (2 ^ 32 ≤ s.rn c)) false

/-- CBCAST (R431). -/
def execCbcast (a b ch cnt root : Nat) (s : State) : Out :=
  s.collective (.cbcast a b ch cnt root) (s.rn a) (s.rn b) 0 false (decide (16384 < cnt + 1 ∨ s.teamSize s.cur.core ≤ root))

/-- CWAIT (R432): it waits until at most s[a] instances of the channel are undelivered; a fail mark then traps, as completed, and is cleared. -/
def execCwait (a ch : Nat) (s : State) : Out :=
  let x := s.cm.chan ch
  if s.rn a < x.issued - x.delivered then s.waits
  else if x.fail ≠ 0 then
    .next ((s.modCm (fun m => { m with chans := tset m.chans ch { x with fail := 0 } })).finish (.trapDone { cause := x.fail }))
  else s.done

-- Instances (R421, R423).

/-- The instances of a team's channel that have begun and are not delivered, oldest first. -/
def Group.pending (g : Group) (team ch : Nat) : List Inst := g.insts.filter (fun i => i.team == team && i.ch == ch)

/-- The entry in flight by which the member on core `c` has arrived at instance `k` of channel `ch`: its place, the entry, the instruction. -/
def State.arrived (s : State) (c ch k : Nat) : Option (Nat × Entry × Instr) :=
  let l := (s.mem c).fl 6
  ((List.range l.length).zip l).findSome? (fun p => match p.2.xsInstr with
    | some i => if collChan i = some ch ∧ p.2.opv.getD 0 0 = k then some (p.1, p.2, i) else none
    | none => none)

/-- A contribution: its core, its place in flight, its entry and its instruction. -/
structure Part where
  core : Nat
  place : Nat
  ent : Entry
  ins : Instr
  deriving DecidableEq, Repr

/-- The parts of an instance, when every member of the team has arrived. -/
def State.parts (s : State) (G : Group) (team ch k : Nat) : Option (List Part) :=
  (List.range G.d).foldl (fun r d =>
    match r with
    | none => none
    | some ps =>
      let rank := d * G.c + team
      let c := s.memberCore G rank
      if G.alive.contains rank = false ∨ s.flows c = false then none
      else
        match s.arrived c ch k with
        | none => none
        | some (i, e, ins) =>
          -- its reads come in the XS stream's order (13 R336)
          if (((s.mem c).fl 6).take i).any (fun x => clashes (x.toRead d) (e.toRead d)) then none
          else some (ps ++ [{ core := c, place := i, ent := e, ins := ins }])) (some [])

/-- The scratch range that a part reads. -/
def Part.reads (p : Part) (pos : Nat) : List (Nat × Nat) :=
  match p.ins with
  | .ctri _ _ _ _ _ _ => []
  | i => if collReads i pos then [(p.ent.opv.getD 1 0, (collBytes i).1)] else []

/-- The rows of a CTRI (R427). -/
def collRows (i : Instr) : Nat :=
  match i with
  | .ctri _ _ _ _ cnt _ => cnt + 1
  | _ => 0

/-- The source bytes of a part; sectors struck by an error read as zeros with a record. Its sectors have the numbers from 32768·position on. -/
def State.readPart (s : State) (pos : Nat) (p : Part) : List Byte × State :=
  let a := p.ent.opv.getD 1 0
  let n := (collBytes p.ins).1
  if collReads p.ins pos = false then ([], s)
  else
    match p.ins with
    | .ctri _ _ _ _ _ _ =>
      let off := a % 2 ^ 20
      let bs := mread (s.seat p.core).acc off n
      let ml := 4 * collRows p.ins
      let read := fun (r : Nat) => decide (r < ml ∨ (512 ≤ r ∧ r < 512 + ml) ∨ 1024 ≤ r)
      let us := ((List.range (cdiv n 64)).filter (fun k => read (64 * k))).map (fun k => off / 64 + k) |>.filter (fun u => s.accHit p.core (64 * u) 64)
      (blankUnits bs off us, us.foldl (fun s u => s.errorRecord p.core (s.ctxOn p.core) 4 (64 * u) (a + (64 * u - off)) 0) s)
    | _ =>
      let r := s.sreadUe p.core a n
      (r.1, r.2.usedRange p.core a n)

/-- The sources of an instance's parts in position order. -/
def State.readParts (s : State) (pos : Nat) (ps : List Part) : List (List Byte) × State :=
  match ps with
  | [] => ([], s)
  | p :: r =>
    let (b, s1) := s.readPart pos p
    let (bs, s2) := s1.readParts (pos + 1) r
    (b :: bs, s2)

/-- Begins instance `k` with its parts, whose source pages are pinned (R421, R422): the instructions complete. -/
def State.begin_ (s : State) (g team ch k : Nat) (ps : List Part) : State :=
  let key := fun (p : Part) => collKey p.ins (p.ent.opv.getD 3 0)
  let agree := ps.all (fun p => some (key p) == (ps.head?).map key)
  let ins := ((ps.head?).map (·.ins)).getD .nop
  let cv := ((ps.head?).map (fun p => p.ent.opv.getD 3 0)).getD 0
  let pos := (List.range ps.length).zip ps
  let (srcs, s1) := if agree then s.readParts 0 ps else ([], s)
  let acc := match ins with
    | .ctri _ _ _ _ _ _ => true
    | _ => false
  let G := s.group g
  let inst : Inst :=
    if agree then { team := team, ch := ch, k := k, t0 := s.ptc, acc := acc, data := collResult ins cv srcs
                    dsts := (pos.filter (fun p => collRecv ins p.1)).map (fun p => (p.1 * G.c + team, p.2.ent.opv.getD 2 0))
                    behind := (pos.filter (fun p => collRecv ins p.1)).flatMap (fun p =>
                      (((s.mem p.2.core).fl 6).take p.2.place).filterMap (fun e => (e.xsInstr.bind collChan).map (fun ch => (p.1 * G.c + team, ch, e.opv.getD 0 0)))) }
    else { team := team, ch := ch, k := k, t0 := s.ptc, fail := 0x52 }
  let s2 := ps.foldl (fun s p => s.modMem p.core (fun m => (m.dropFlight 6 p.place).postPrefix 6 p.ent.pfx)) s1
  s2.modGroup g (fun x => { x with insts := x.insts ++ [inst] })

/-- INSTANCE_BEGIN (R421): the next instance of channel `ch` of team `team` of group `g` begins once every team member has arrived at it. -/
def execInstanceBegin (g team ch : Nat) (s : State) : Out :=
  let G := s.group g
  let c0 := s.memberCore G team
  let k := ((s.mem c0).chan ch).delivered + (G.pending team ch).length
  match s.parts G team ch k with
  | none => .next s
  | some ps =>
    let s1 := ((List.range ps.length).zip ps).foldl (fun (r : Bool × State) p => match r.2.present? p.2.core (p.2.reads p.1) with
      | none => r
      | some s' => (false, s')) (true, s)
    if s1.1 then .next (s1.2.begin_ g team ch k ps) else .next s1.2

/-- Marks a channel failed, when it has no mark yet. -/
def Chan.failWith (x : Chan) (cause : Nat) : Chan := if x.fail = 0 then { x with fail := cause } else x

/-- Changes the channel of the member of rank `r`. -/
def State.modChan (s : State) (c ch : Nat) (f : Chan → Chan) : State :=
  s.modMem c (fun m => { m with chans := tset m.chans ch (f (m.chan ch)) })

/-- Writes an instance's result at one receiver; a word of an armed barrier keeps its value and marks the channel (R425). -/
def State.writeResult (s : State) (G : Group) (i : Inst) (d : Nat × Nat) : State :=
  let c := s.memberCore G d.1
  if G.alive.contains d.1 = false then s
  else if i.acc then
    let r := i.data.foldl (fun (r : Bool × State) p =>
      let x := r.2.portPut c (d.2 % 2 ^ 20 + p.1) 4 (leNat p.2)
      (r.1 && x.1, x.2)) (true, s)
    if r.1 then r.2 else r.2.modChan c i.ch (fun x => x.failWith 0x80)
  else i.data.foldl (fun s p => (s.swrite c (d.2 + p.1) p.2).usedRange c (d.2 + p.1) p.2.length) s

/-- The bytes of a unit of an instance's result: a sector of scratch, or an aligned word of a frame (R434, R436, 10 R246). -/
def Inst.unit (i : Inst) : Nat := if i.acc then 8 else 64

/-- Bytes at an offset, cut where a unit of `u` bytes begins. -/
def sectored (u fuel : Nat) (p : Nat × List Byte) : List (Nat × List Byte) :=
  match fuel with
  | 0 => []
  | k + 1 =>
    if p.2 = [] then []
    else
      let n := u - p.1 % u
      (p.1, p.2.take n) :: sectored u k (p.1 + n, p.2.drop n)

/-- What of the result is still to be written at the receiver in place `n` of the list, and what of that lies in unit `k`. -/
def Inst.rest (i : Inst) (n : Nat) : List (Nat × List Byte) :=
  if i.done = [] then i.data else (i.data.flatMap (fun p => sectored i.unit (p.2.length + 1) p)).filter (fun p => !i.done.contains (8 * (p.1 / i.unit) + n))
def Inst.sector (i : Inst) (n k : Nat) : List (Nat × List Byte) :=
  (i.data.flatMap (fun p => sectored i.unit (p.2.length + 1) p)).filter (fun p => p.1 / i.unit == k && !i.done.contains (8 * k + n))

/-- Whether a result write at a receiver waits for a collective that stands before its instruction in the receiver's XS, has not begun and is to read where it
writes (R433); an instruction whose core stops is withdrawn (R423). -/
def State.sourceHeld (s : State) (G : Group) (i : Inst) (d : Nat × Nat) : Bool :=
  let c := s.memberCore G d.1
  s.flows c && i.behind.any (fun b => b.1 == d.1 && (match s.arrived c b.2.1 b.2.2 with
    | some (_, e, _) => clashes (e.toRead (d.1 / G.c)) (some (i.data.map (fun p => (i.acc, (if i.acc then d.2 % 2 ^ 20 else d.2) + p.1, p.2.length))))
    | none => false))

/-- Whether the pages of an instance's results are pinned at its receivers; if not, the state in which they are refilled. -/
def State.resultsReady (s : State) (G : Group) (i : Inst) : Bool × State :=
  if i.acc then (true, s)
  else
    i.dsts.foldl (fun r d =>
      if G.alive.contains d.1 = false then r
      else
        match r.2.present? (s.memberCore G d.1) (i.data.map (fun p => (d.2 + p.1, p.2.length))) with
        | none => r
        | some s' => (false, s')) (true, s)

/-- One unit of an instance's result is written at one receiver, ahead of the others: they are written in any order (R436), and with STRICT = 1 at their fixed time
(01 R32). -/
def State.deliverSector (s : State) (g : Nat) (i : Inst) (n k : Nat) : State :=
  let G := s.group g
  let j : Inst := { i with data := i.sector n k }
  match i.dsts[n]? with
  | none => s
  | some d =>
    let (ok, s1) := s.resultsReady G { j with dsts := [d] }
    if ok = false ∨ j.data = [] ∨ s.sourceHeld G j d = true then s1
    else (s1.writeResult G j d).modGroup g (fun x => { x with
      insts := x.insts.map (fun y => if y.team = i.team ∧ y.ch = i.ch ∧ y.k = i.k then { y with done := (8 * k + n) :: y.done } else y) })

/-- The oldest instance of a channel writes what is left of its result, and is delivered. -/
def State.deliver_ (s : State) (g team ch : Nat) (i : Inst) (cores : List Nat) (strict : Bool) : State :=
  let G := s.group g
  let s2 := ((List.range i.dsts.length).zip i.dsts).foldl (fun s d => s.writeResult G { i with data := i.rest d.1 } d.2) s
  let s3 := cores.foldl (fun s c => (if strict ∧ i.t0 + 4000 < s.ptc then s.strictMiss c else s).modChan c ch (fun x =>
    let y := { x with delivered := x.delivered + 1 }
    if i.fail ≠ 0 then y.failWith i.fail else y)) s2
  s3.modGroup g (fun x => { x with insts := x.insts.filter (fun j => !(j.team == team && j.ch == ch && j.k == i.k)) })

/-- INSTANCE_DELIVERY (R421, R434): the oldest instance of channel `ch` modulo 8 that has begun writes its results and is delivered; under STRICT 4 µs after
it began (01 R32). A group that stays for it alone then ends (R423).
With `ch / 8` = 8k + n + 1 it writes only unit k of its result at the receiver in place n. -/
def execInstanceDelivery (g team ch : Nat) (s : State) : Out :=
  let G := s.group g
  match G.pending team (ch % 8) with
  | [] => .next s
  | i :: _ =>
    let cores := ((List.range G.d).map (fun d => d * G.c + team)).filter (fun r => G.alive.contains r) |>.map (s.memberCore G)
    let strict := i.fail == 0 && cores.any (fun c => s.strict c)
    if strict ∧ s.ptc < i.t0 + 4000 then .next s
    else if 8 ≤ ch then .next (s.deliverSector g i ((ch / 8 - 1) % 8) ((ch / 8 - 1) / 8))
    else
      let (ok, s1) := s.resultsReady G i
      if ok = false ∨ i.dsts.any (fun d => G.alive.contains d.1 && s.sourceHeld G i d) = true then .next s1
      else
        let s2 := s1.deliver_ g team ch i cores strict
        .next (if s2.liveOf (s2.group g) = [] then s2.checkGroup g else s2)

end Sys2Proof.Machine
end

