-- ==== Sys2Proof/Machine/Page.lean ====
section
/-! DEFINITION. Invalidations and their acknowledgement (12 R311 to R314), and the privileged page instructions (R325). -/

namespace Sys2Proof.Machine

/-- The dies, as bits. -/
def allDies : Nat := 255

/-- Sets bit `i` of a mask. -/
def orBit (m i : Nat) : Nat := m ||| 2 ^ i

/-- Whether an invalidation drops a translation-cache entry: for an address, the entries on its walk (R325). -/
def Inval.hitsTlb (v : Inval) (t : TlbEnt) : Bool :=
  match v.kind with
  | 0 => t.ctx == v.ctx && t.va == v.arg / 2 ^ (12 + 9 * t.lvl)
  | 1 => t.ctx == v.ctx
  | 3 => true
  | _ => false

/-- Whether it drops a cached slab descriptor. -/
def Inval.hitsSlab (v : Inval) (t : SlabEnt) : Bool :=
  match v.kind with
  | 1 => t.ctx == v.ctx
  | 2 => t.ctx == v.ctx && t.slab == v.arg
  | 3 => true
  | _ => false

/-- Whether a translation of address `va` in context `x`, made before the invalidation, is one it waits for (R314): one whose walk used an entry that
the invalidation drops. Every walk of one root entry's range uses that entry. A slab address stands also for the address that it resolves to and for its
descriptor's, whichever they are (DEDUCED, log entry 21). -/
def Inval.covers (v : Inval) (x va : Nat) : Bool :=
  match v.kind with
  | 0 => x == v.ctx && (va / 2 ^ 48 == v.arg / 2 ^ 48 || va / 2 ^ 48 == 255)
  | 1 => x == v.ctx
  | 2 => x == v.ctx && va / 2 ^ 48 == 255 && va / 2 ^ 36 % 4096 == v.arg
  | 3 => true
  | _ => false

/-- Every die drops what the invalidation covers (R314); a barrier-map entry leaves the map caches (16 R396). -/
def State.dropCaches (s : State) (v : Inval) : State :=
  let s1 : State := { s with cores := tmap (fun _ (x : Core) => { x with tlb := x.tlb.filter (fun t => !v.hitsTlb t), slabs := x.slabs.filter (fun t => !v.hitsSlab t) }) s.cores }
  let s2 : State := { s1 with
    disp := { s1.disp with tlb := s1.disp.tlb.filter (fun t => !v.hitsTlb t) }
    dies := tmap (fun _ (d : Die) => { d with tlb := d.tlb.filter (fun t => !v.hitsTlb t) }) s1.dies }
  if v.kind = 4 then { s2 with dies := tmap (fun _ (d : Die) => { d with maps := tdel d.maps (v.ctx * 256 + v.arg) }) s2.dies } else s2

/-- A translation that something in flight holds (R313): the number of the next invalidation when it was made, its context and its address. -/
structure Held where
  era : Nat
  ctx : Nat
  va : Nat
  deriving DecidableEq, Repr

/-- The translations that an instruction in flight on a core of context `x` holds in its moves. -/
def Entry.holds (x : Nat) (e : Entry) : List Held :=
  let ctx := if e.isHring ∧ e.opv.length = 4 then e.opv.getD 0 0 else x
  (e.moves.getD []).flatMap (fun m => [m.src, m.dst].filterMap (fun p => match p with
    | .dev va _ => some { era := e.era, ctx := ctx, va := va }
    | _ => none))

/-- Those that a bulk copy holds: the pages that it is copying. -/
def Copy.holds (x : Nat) (y : Copy) : List Held :=
  [(y.srcLoc, y.src), (y.dstLoc, y.dst)].filterMap (fun p => p.1.map (fun l => { era := l.1, ctx := x, va := p.2 + y.done }))

/-- That of the header, which a KCOMMIT in flight holds. -/
def Entry.commitHolds (x : Nat) (e : Entry) : List Held :=
  if e.issued ∧ e.skip = false ∧ opOf (e.lanes.headD 0).toNat = 0x05 then [{ era := e.era, ctx := x, va := e.opv.getD 10 0 }] else []

/-- The translations held by what core `c` has in flight: transfers, bulk copies, a KCOMMIT, and racking instructions that it issued. -/
def State.held (s : State) (c : Nat) : List Held :=
  let x := s.xctx c
  ([5, 6].flatMap (fun g => ((s.mem c).fl g).flatMap (Entry.holds x)))
    ++ (s.seat c).copies.flatMap (fun p => p.2.holds x) ++ (((s.mem c).q 7).take 1).flatMap (Entry.commitHolds x)
    ++ s.cores.flatMap (fun p => p.2.seat.slots.flatMap (fun q => if q.2.racking ∧ q.2.by_ = c then Entry.holds x q.2.ent else []))

/-- Whether a holder on die `d` keeps invalidation `i` from being acknowledged there; one whose translation was made since does not (R314). -/
def State.holders (s : State) (i : Nat) (v : Inval) (d : Nat) : Bool :=
  s.cores.any (fun p => dieOf p.1 == d && (s.held p.1).any (fun h => decide (h.era ≤ i) && v.covers h.ctx h.va))

/-- Starts an invalidation. -/
def State.invalidate (s : State) (v : Inval) : State :=
  let s1 := s.dropCaches v
  { s1 with invals := tset s1.invals s1.nextId v, nextId := s1.nextId + 1 }

/-- The invalidation that party `c` waits for. -/
def State.invalOf (s : State) (c : Nat) : Option (Nat × Inval) := s.invals.find? (fun p => p.2.core == c)

/-- Whether all eight dies have acknowledged. -/
def Inval.over (v : Inval) : Bool := v.acked == allDies

/-- A context's descriptor address, barrier maps and inboxes leave the machine: it is FREE (16 R380). -/
def State.freeCtx (s : State) (x : Nat) : State :=
  { s with
    tri := { s.tri with keys := s.tri.keys.filter (fun p => p.2.ctx != x) }
    ctxs := tset s.ctxs x { result := (s.ctx x).result, cdesc := (s.ctx x).cdesc, hrread := (s.ctx x).hrread }
    dies := tmap (fun _ (d : Die) => { d with maps := d.maps.filter (fun p => p.1 / 256 != x) }) s.dies }

/-- A die acknowledges an invalidation; `reset` says that it did by entering reset. When the eighth does, what the device began on its own completes:
a key's retirement (19 R446) or a context's teardown (16 R380). -/
def State.ackInval (s : State) (i d : Nat) (reset : Bool) : State :=
  match tget s.invals i with
  | none => s
  | some v =>
    let w := { v with acked := orBit v.acked d, resets := if reset ∧ bit v.acked d = false then orBit v.resets d else v.resets }
    let s1 := { s with invals := tset s.invals i w }
    if w.over ∧ w.after = 3 then ({ s1 with invals := tdel s1.invals i } : State).freeCtx w.ctx
    else s1

/-- INVALIDATION_ACK (R314): die `d` acknowledges once its holders of a matching translation have completed or parked. -/
def execInvalidationAck (i d : Nat) (s : State) : Out :=
  match tget s.invals i with
  | none => .next s
  | some v => if 8 ≤ d ∨ s.holders i v d = true then .next s else .next (s.ackInval i d false)

/-- A privileged instruction that invalidates: it issues, and the CE stays at it until the eighth die has acknowledged; `done` is what s[d] then
receives. -/
def State.waitInval (s : State) (d : Nat) (f : Inval → Nat) : Out :=
  match s.invalOf s.cur.core with
  | some (i, v) =>
    if v.over then
      ({ s with invals := tdel s.invals i } : State).putS d (BitVec.ofNat 64 (f v)) |>.done
    else s.lingers
  | none => s.done

/-- Whether a context number names a created context (R325). -/
def State.ctxCreated (s : State) (x : Nat) : Bool := decide (x < 256) && (s.ctx x).state != .free

/-- A TLBINV (R325): s[d] receives the dies that acknowledged by entering reset. A PAGE_OPERAND trap carries s[a] in TADDR, 0 for TLBINV.ctx, and kind and level 0
(DESIGN CHOICE, log entry 56). -/
def State.tlbinv (s : State) (d kind x arg : Nat) (ok : Bool) : Out :=
  if s.cur.ent.issued then s.waitInval d (fun v => v.resets)
  else if ok = false then s.trapWith { cause := 0x27, taddr := arg }
  else (s.invalidate { core := s.cur.core, kind := kind, ctx := x, arg := arg }).lingers

/-- TLBINV.va (R325). An operand with any of bits [63:56] set traps PAGE_OPERAND (DESIGN CHOICE, log entry 56: not ADDR_RANGE of 01 R26). -/
def execTlbinvVa (d a b : Nat) (s : State) : Out := s.tlbinv d 0 (s.rn b) (s.rn a) (s.ctxCreated (s.rn b) && decide (s.rn a < 2 ^ 56))

/-- TLBINV.ctx (R325). -/
def execTlbinvCtx (d b : Nat) (s : State) : Out := s.tlbinv d 1 (s.rn b) 0 (s.ctxCreated (s.rn b))

/-- TLBINV.slab (R325). -/
def execTlbinvSlab (d a b : Nat) (s : State) : Out := s.tlbinv d 2 (s.rn b) (s.rn a) (s.ctxCreated (s.rn b) && decide (s.rn a < 4096))

/-- TLBINV.all (R325). -/
def execTlbinvAll (d : Nat) (s : State) : Out := s.tlbinv d 3 0 0 true

-- SLABFW (R323 to R325).

/-- The place of slab descriptor `n` of context `x`, walked for reading and writing; `none` when the walk fails or the page is not in HBM (R319). -/
def State.slabPlace (s : State) (c x n : Nat) : Option Loc × State :=
  let va := (s.ctx x).slabt + 32 * n
  match s.translate c x va .read false with
  | (.error _, s1) => (none, s1)
  | (.ok _, s1) =>
    match s1.translate c x va .write false with
    | (.error _, s2) => (none, s2)
    | (.ok l, s2) => if l.tgt = 0 ∧ n < (s.ctx x).slabn then (some l, s2) else (none, s2)

/-- A SLABFW: `f` gives the new descriptor bytes from the old, or STATE. -/
def State.slabfw (s : State) (d a : Nat) (ok : Bool) (f : Nat → Option Nat) : Out :=
  let A := s.rn a
  let x := A / 4096
  if s.cur.ent.issued then s.waitInval d (fun _ => 0)
  else if 2 ^ 20 ≤ A ∨ ok = false ∨ s.ctxCreated x = false then s.trapWith { cause := 0x27, taddr := A }
  else
    match s.slabPlace s.cur.core x (A % 4096) with
    | (none, s1) => (s1.putS d 3).done
    | (some l, s1) =>
      let r := s1.descRead s.cur.core x ((s.ctx x).slabt + 32 * (A % 4096)) l
      match f r.1 with
      | none => (r.2.putS d 3).done
      | some D => ((r.2.systemWrite s.cur.core l (leBytes 32 D)).invalidate { core := s.cur.core, kind := 2, ctx := x, arg := A % 4096, after := 1 }).lingers

/-- KIND, FWD and LCAP of a descriptor. -/
def slabKind (D : Nat) : Nat := bits D 203 202
def slabFwd (D : Nat) : Bool := bit D 204
def slabLcap (D : Nat) : Nat := bits D 196 192

/-- SLABFW.st (R323 step 1). -/
def execSlabfwSt (d a b : Nat) (s : State) : Out :=
  s.slabfw d a (decide (s.rn b % 64 = 0)) (fun D =>
    if slabKind D = 1 ∧ slabFwd D = false ∧ slabLcap D < 30 then
      some (setBits (setBits (setBits (setBits (setBits D 127 64 D) 63 0 (s.rn b)) 191 160 0) 196 192 (slabLcap D + 1)) 204 204 1)
    else none)

/-- SLABFW.mw (R323 step 3). -/
def execSlabfwMw (d a b : Nat) (s : State) : Out :=
  s.slabfw d a true (fun D =>
    if slabFwd D = true ∧ bits D 191 160 ≤ s.rn b ∧ s.rn b ≤ 2 ^ slabLcap D / 2 then some (setBits D 191 160 (s.rn b)) else none)

/-- SLABFW.end (R323 step 4). -/
def execSlabfwEnd (d a : Nat) (s : State) : Out :=
  s.slabfw d a true (fun D => if slabFwd D = true ∧ bits D 191 160 = 2 ^ slabLcap D / 2 then some (setBits D 204 204 0) else none)

-- PGPIN and PGUNPIN (R316, R325).

/-- The core that a page instruction names, when its operands are within their limits. -/
def State.pageCore (s : State) (a b : Nat) : Option Nat :=
  if s.rn a < 64 ∧ s.rn b < 256 then some ((s.cur.core - 512) * 64 + s.rn a) else none

/-- A context runs on the core. -/
def State.runsOn (s : State) (w : Nat) : Bool := (s.core w).status == .running

/-- The pages that a core holds. -/
def Core.heldPages (x : Core) : Nat := (x.pages.filter (fun p => p.2.held || p.2.pin)).length + (x.wants.filter (fun w => w.2.1)).length

/-- Puts the page's hold, or asks for its refill. -/
def Core.pinPage (x : Core) (page now : Nat) : Core :=
  match x.spage page with
  | some (k, p) => { x with pages := tset x.pages k (match p.state with
      | .pinned => { p with held := true }
      | .refilling => { p with pin := true }
      | _ => p) }.touch page now true
  | none => x.touch page now true

/-- Whether the page is PINNED and HELD. -/
def Core.pinnedHeld (x : Core) (page : Nat) : Bool := match x.spage page with
  | some (_, p) => p.state == .pinned && p.held
  | none => false

/-- PGPIN (R325): it completes when the page is PINNED, or when the context that ran there has stopped since. While it runs on, its operand
values are the context, the core and the page. -/
def execPgpin (d a b : Nat) (s : State) : Out :=
  if s.cur.ent.issued then
    let w := s.cur.ent.opv.getD 1 0
    let page := s.cur.ent.opv.getD 2 0
    if s.runsOn w = false ∨ s.ctxOn w ≠ s.cur.ent.opv.getD 0 0 then (s.putS d 0).done
    else
      let s1 := s.modCore w (fun x => x.pinPage page s.ptc)
      if (s1.core w).pinnedHeld page then (s1.putS d 0).done else s1.lingers
  else
    match s.pageCore a b with
    | none => s.trapWith { cause := 0x27, taddr := s.rn a }
    | some w =>
      let page := s.rn b
      if s.runsOn w = false then (s.putS d 2).done
      else if 40 ≤ (s.core w).heldPages then (s.putS d 1).done
      else
        let s1 := s.modCore w (fun x => x.pinPage page s.ptc)
        if (s1.core w).pinnedHeld page then (s1.putS d 0).done
        else (s1.modEnt (fun e => { e with opv := [s.ctxOn w, w, page] })).lingers

/-- A page loses its hold. -/
def Core.unpinPage (x : Core) (page : Nat) : Core :=
  let y : Core := { x with wants := x.wants.map (fun w => if w.1 = page then (w.1, false, w.2.2) else w) }
  match y.spage page with
  | some (k, p) => { y with pages := tset y.pages k { p with held := false, pin := false } }
  | none => y

/-- PGUNPIN (R325). On a core where no context runs it answers OK, as PGUNPIN.ev does: the table gives IDLE for PGPIN only (DESIGN CHOICE, log entry 56). -/
def execPgunpin (d a b : Nat) (s : State) : Out :=
  match s.pageCore a b with
  | none => s.trapWith { cause := 0x27, taddr := s.rn a }
  | some w =>
    if s.runsOn w then ((s.modCore w (fun x => x.unpinPage (s.rn b))).putS d 0).done else (s.putS d 0).done

/-- Evicts page `page` of core `w` for PGUNPIN.ev, whose operand values are then one more than the physical page that is written back (0 before), the
core and the page. A page that is refilling is evicted once it is PINNED, and one with a sector request pending once it has none. -/
def State.evictPage (s : State) (d w page : Nat) : Out :=
  if s.runsOn w = false then (s.putS d 0).done
  else
    let s1 := s.modCore w (fun x => x.unpinPage page)
    match (s1.core w).spage page with
    | none => (s1.putS d 0).done
    | some (k, p) =>
      match p.state with
      | .pinned =>
        if (s1.core w).pendingPages.contains page then (s1.modEnt (fun e => { e with opv := [0, w, page] })).lingers
        else
        let s2 := s1.modCore w (fun x => x.evict k s.ptc)
        (s2.modEnt (fun e => { e with opv := [k + 1, w, page] })).lingers
      | .writingBack => (s1.modEnt (fun e => { e with opv := [k + 1, w, page] })).lingers
      | .refilling => (s1.modEnt (fun e => { e with opv := [0, w, page] })).lingers
      | .departed => (s1.putS d 0).done

/-- PGUNPIN.ev (R325): it then evicts the page, and completes after the write-back. On a core where no context runs it answers OK (DESIGN CHOICE, log entry 56). -/
def execPgunpinEv (d a b : Nat) (s : State) : Out :=
  if s.cur.ent.issued then
    let k := s.cur.ent.opv.getD 0 0
    let w := s.cur.ent.opv.getD 1 0
    let page := s.cur.ent.opv.getD 2 0
    if k = 0 then s.evictPage d w page
    else
      match tget (s.core w).pages (k - 1) with
      | some p => if p.page = page ∧ p.state = .writingBack then s.lingers else (s.putS d 0).done
      | none => (s.putS d 0).done
  else
    match s.pageCore a b with
    | none => s.trapWith { cause := 0x27, taddr := s.rn a }
    | some w => s.evictPage d w (s.rn b)

end Sys2Proof.Machine
end

