-- ==== Sys2Proof/Machine/Stop.lean ====
section
/-! DEFINITION. Stopping a context (16 R381, R391, R394): its arc, the start of a stop, what comes about when every core holds the context, and the
teardown of a destroyed one (R380). -/

namespace Sys2Proof.Machine

/-- The cores of a context's arc (16 R376), by die offset and core number. -/
def State.arcCores (s : State) (x : Nat) : List Nat :=
  let c := s.ctx x
  ((List.range 8).flatMap (fun o => ((List.range 64).filter (fun n => decide (c.sq ≤ 4 * o + n / 16 ∧ 4 * o + n / 16 < c.sq + c.nq))).map
    (fun n => ((c.ad + o) % 8) * 64 + n)))

/-- The dies of the arc. -/
def State.arcDies (s : State) (x : Nat) : List Nat := (List.range 8).filter (fun d => (s.arcCores x).any (fun c => dieOf c == d))

/-- The arc's cores on a die. -/
def State.coresHere (s : State) (x d : Nat) : List Nat := (s.arcCores x).filter (fun c => dieOf c == d)

/-- Whether core `c` stands in status `st` with context `x`. -/
def State.stands (s : State) (c x : Nat) (st : CoreStatus) : Bool := (s.core c).status == st && (s.core c).ctx == x

/-- The groups of a context. -/
def State.groupsOf (s : State) (x : Nat) : List (Nat × Group) := s.groups.filter (fun p => p.2.ctx == x)

/-- Changes the kernel-table entries that a context's groups use. -/
def State.usedKernels (s : State) (x : Nat) (st : KernState) : State :=
  (s.groupsOf x).foldl (fun s p => s.modCtx x (fun c => match tget c.kerns p.2.kern with
    | some e => { c with kerns := tset c.kerns p.2.kern { e with state := st } }
    | none => c)) s

/-- A stop begins, or joins the one in progress (R381, R394): a group that has not reached RUNNING abandons its loading (06 R158). -/
def State.beginStop (s : State) (x : Nat) (p : Stop) : State :=
  match (s.ctx x).stop with
  | some q =>
    s.modCtx x (fun c => { c with stop := some {
      atOnce := q.atOnce || p.atOnce
      start := if q.atOnce ∨ p.atOnce = false then q.start else s.ptc
      waiters := p.waiters.foldl addOnce q.waiters
      dogs := p.dogs.foldl addOnce q.dogs
      destroy := q.destroy || p.destroy } })
  | none =>
    let s1 := s.modCtx x (fun c => { c with
      state := match c.state with
        | .running => .preempting
        | st => st
      stop := some { p with start := s.ptc } })
    (s.groupsOf x).foldl (fun s g => match g.2.state with
      | .loading => s.modGroup g.1 (fun G => { G with state := .forming, loaded := [] })
      | _ => s) s1

/-- A context becomes FAULTED (R378), also one that is only loaded somewhere (R392); the first cause stays, but that its image is lost stands whatever
came before (R385). -/
def State.faultCtx (s : State) (x cause : Nat) : State :=
  match (s.ctx x).state with
  | .faulted => if cause = 0xB3 then s.modCtx x (fun c => { c with cause := cause }) else s
  | .bound => s.modCtx x (fun c => { c with state := .faulted, cause := cause })
  | .running => s.modCtx x (fun c => { c with state := .faulted, cause := cause })
  | .preempting => s.modCtx x (fun c => { c with state := .faulted, cause := cause })
  | .saved => s.modCtx x (fun c => { c with state := .faulted, cause := cause })
  | .parked => s.modCtx x (fun c => { c with state := .faulted, cause := cause })
  | _ => s

/-- Gives a sequencer instruction that waits at the head of the CE its status. -/
def State.answerWaiter (s : State) (d status : Nat) : State :=
  s.modMem (512 + d) (fun m => match m.q 1 with
    | e :: r => if e.issued ∧ opOf (e.lanes.headD 0).toNat = 0x6D then m.setQ 1 ({ e with opv := [status] } :: r) else m
    | [] => m)

/-- The member on a core has stopped at a YIELD, is halted, or there is none (R394). -/
def Core.standsStill (x : Core) : Bool := !x.seat.present || x.seat.mem.yielded || x.seat.mem.isHalted

-- What comes about on the cores.

/-- The core's port operation is performed and answered; a waiting BWAIT is left unissued (14 R355). -/
def State.finishPort (s : State) (c : Nat) : State :=
  let s1 := (s.performPort c).modCore c (fun x => { x with bwait := none })
  match (s1.core c).port with
  | some r => if r.isBwait then s1.portClear c else s1.portReply c r
  | none => s1

/-- A KCOMMIT in flight on core `c` runs to its end (R381 step 2); `n` bounds its turns. -/
def State.finishCommit (s : State) (c n : Nat) : State :=
  match n with
  | 0 => s
  | k + 1 =>
    match (s.mem c).q 7 with
    | [] => s
    | e :: _ =>
      let h := (e.lanes.headD 0).toNat
      if e.issued ∧ e.skip = false ∧ opOf h = 0x05 then
        match (s.setCur c .ke e).commitStep (bits h 24 19) with
        | .next t => (t.settle []).finishCommit c k
        | _ => s
      else s

/-- Delivers every message that core `c` has on its way (09 R228). -/
def State.finishMessages (s : State) (c n : Nat) : State :=
  match n with
  | 0 => s
  | k + 1 =>
    match ((s.mem c).fl 6).findIdx? Entry.isMsg with
    | none => s
    | some i => (s.deliverMsg c i (((s.mem c).fl 6).getD i {})).finishMessages c k

/-- Performs every XHRING in flight to ring `q` of context `x`, oldest first (09 R228). -/
def State.finishRing (s : State) (x q n : Nat) : State :=
  match n with
  | 0 => s
  | k + 1 =>
    match (s.hringsTo x q).find? (fun p => s.hringFirst p.2) with
    | none => s
    | some (c, e) => (s.hringDone c (((s.mem c).fl 6).findIdx (fun y => y == e)) e).finishRing x q k

/-- A transfer of half `g` of core `c` that has moved sectors ahead of their turn. -/
def State.gapAt (s : State) (c g : Nat) : Option Nat := ((s.mem c).fl g).findIdx? (fun e => e.ahead != [])

/-- The transfers of half `g` of core `c` come to their boundary (R381 step 2): each has moved the sectors before its progress and no others. -/
def State.closeGaps (s : State) (c g n : Nat) : State :=
  match n with
  | 0 => s
  | k + 1 =>
    match s.gapAt c g with
    | none => s
    | some i =>
      let e := ((s.mem c).fl g).getD i {}
      match (decode? (if g = 5 then .xl else .xs) e.lanes).bind xkind with
      | some x => (s.closeGap c g i e x).closeGaps c g k
      | none => s

/-- Drops the translations that core `c`'s instructions in flight hold (12 R313). -/
def Member.park (m : Member) : Member :=
  let drop := fun (g : Eng) (e : Entry) => if ((decode? g e.lanes).bind xkind).isSome then { e with moves := none, ahead := [] } else e
  (m.setFl 5 ((m.fl 5).map (drop .xl))).setFl 6 ((m.fl 6).map (drop .xs))

/-- The slot records at a stop (11 R274, R302): ACTIVE slots are held, racking ones drop their translations. -/
def Slot.park (x : Slot) : Slot :=
  { x with held := x.held || x.state == .active, ent := { x.ent with moves := if x.racking then none else x.ent.moves } }

/-- The write-backs of a core's pages complete, and what waits for their physical pages is served. -/
def State.finishWritebacks (s : State) (c : Nat) : State :=
  ((s.core c).pages.foldl (fun s q =>
    if q.2.state = .writingBack then (s.writeBacking c q.1 q.2).modCore c (fun x => x.freeSpage q.1) else s) s).modCore c (fun x => x.served s.ptc)

/-- The refills of a core finish (12 R316), those among them that still wait for a physical page; `n` bounds the rounds. -/
def State.finishRefills (s : State) (c n : Nat) : State :=
  let s1 := (s.core c).pages.foldl (fun s q =>
    if q.2.state = .refilling ∧ q.2.ctx = s.ctxOn c then s.refillDone c q.1 q.2 else s) s
  match n with
  | 0 => s1
  | k + 1 => if (s1.core c).wants = [] then s1 else (s1.modCore c (fun x => x.served s.ptc)).finishWritebacks c |>.finishRefills c k

/-- The pages of the stopped context become DEPARTED, their holds dropped, and none waits (12 R316). -/
def Core.departPages (x : Core) : Core :=
  { x with wants := [], pages := tmap (fun _ (p : SPage) => if p.ctx = x.ctx ∧ p.state = .pinned then { p with state := .departed, held := false, pin := false } else p) x.pages }

/-- An instruction whose effects are made completes (R381 step 2). -/
def Member.finishPads (m : Member) : Member :=
  [1, 2, 3, 4, 5, 6, 7].foldl (fun m g => match m.q g with
    | e :: _ => if e.issued ∧ e.skip = true ∧ (e.pad ≠ 0 ∨ e.clk ≠ 0) then (m.pop g).postPrefix g e.pfx else m
    | [] => m) m

/-- Core `c` comes to hold its context (R381 steps 2 to 4). -/
def State.holdCore (s : State) (c : Nat) : State :=
  let s2 := (s.finishRefills c (2 * (s.core c).wants.length + 1)).release c true |>.flush c
  s2.modCore c (fun x => { x.departPages with
    status := .holding
    seat := { x.seat with
      mem := { x.seat.mem.park.finishPads with yielded := false }
      slots := tmap (fun _ (y : Slot) => y.park) x.seat.slots
      copies := tmap (fun _ (y : Copy) => y.parked) x.seat.copies } })

/-- Delivers the trap that stops the engines of core `c`, if one does (R399). -/
def State.deliverAt (s : State) (c : Nat) : State :=
  if (s.seat c).present ∧ (s.mem c).isHalted = false then s.deliver c else s

/-- Groups that run are suspended (06 R158). -/
def State.suspendGroups (s : State) (x : Nat) : State :=
  ((s.groupsOf x).foldl (fun s g => match g.2.state with
    | .running => s.modGroup g.1 (fun G => { G with prev := .running, state := .suspended })
    | .partly => s.modGroup g.1 (fun G => { G with prev := .partly, state := .suspended })
    | .faulted => s.modGroup g.1 (fun G => { G with prev := .faulted, state := .suspended })
    | _ => s) s).usedKernels x .evicted

-- The end of a context's groups (R380).

/-- Every group of a context ends: its members retire without END's release and without arrive-drops, and its LAUNCH becomes FAULTED. -/
def State.endGroups (s : State) (x cause : Nat) : State :=
  (s.groupsOf x).foldl (fun s g =>
    (g.2.alive.foldl (fun s r => s.retireRank g.1 r) s).endGroup g.1 true cause) s

/-- What a context leaves on the cores goes: its DEPARTED pages and its slots; a write-back that has begun completes (12 R316, 16 R380). -/
def State.dropTraces (s : State) (x : Nat) : State :=
  s.cores.foldl (fun s p =>
    let mine := p.2.pages.filter (fun q => q.2.ctx == x)
    ((mine.filter (fun q => q.2.state == .writingBack)).foldl (fun s q => s.writeBacking p.1 q.1 q.2) s).modCore p.1 (fun y =>
      (mine.foldl (fun (y : Core) q => y.freeSpage q.1) { y with seat := { y.seat with slots := y.seat.slots.filter (fun q => q.2.ctx != x) } }).served s.ptc)) s

/-- A core becomes free: nothing of a context runs there; its accumulator SRAM, its slot records and its cask store stand as they stood (R499). It keeps no
text, so that a RESIDENT kernel whose last core this was becomes VERIFIED (DESIGN CHOICE, log entry 56: 05 R116 has no row for it). -/
def Core.free (y : Core) : Core :=
  { y with
    status := .free
    seat := { y.seat with present := false, mem := {}, live := [], armed := [], fade := 0, copies := [] }
    text := (0, 0), port := none, bwait := none, cfg := 0 }

/-- A command is discarded before it starts. -/
def Queue.discard (q : Queue) : Queue :=
  { q with cmds := tmap (fun _ (e : Cmd) => if e.state = .accepted ∨ e.state = .chosen then { e with state := .dropped } else e) q.cmds }

/-- The teardown of a destroyed context (R380): it is FREE once the invalidation that this starts completes. -/
def State.teardown (s : State) (x : Nat) : State :=
  let s1 := s.endGroups x (s.ctx x).cause
  let s2 : State := { s1 with queues := tmap (fun _ (q : Queue) => if q.state ≠ QState.disabled ∧ q.ctx = x then { q.discard with state := .disabled } else q) s1.queues }
  let s3 : State := { s2 with dies := tmap (fun _ (d : Die) => { d with frames := d.frames.filter (fun f => f.2.ctx != x) }) s2.dies }
  let s4 := (s3.cores.filter (fun p => !isSeq p.1 && p.2.ctx == x && p.2.status != .free)).foldl
    (fun s p => s.modCore p.1 (fun y => { y with seat := { y.seat with acc := [] } }.free)) s3
  let s5 := (s4.dropTraces x).modCtx x (fun c => { c with kerns := [], parked := [], inbox := [], rdy := 0, stop := none, waiting := [] })
  let s6 : State := { s5 with cores := tmap (fun _ (y : Core) => if y.text.1 = x + 1 then { y with text := (0, 0) } else y) s5.cores }
  s6.refreshKernels.invalidate { core := 0x3FF, kind := 1, ctx := x, arg := 0, after := 3 }

/-- Every PREEMPT that waits on a stop receives its status. -/
def State.answerAll (s : State) (ds : List Nat) (status : Nat) : State := ds.foldl (fun s d => s.answerWaiter d status) s

/-- The WAIT commands of a context that wait at ports present their requests anew when it runs again (14 R355). -/
def State.unwait (s : State) (x : Nat) : State :=
  { s with queues := tmap (fun _ (q : Queue) => if q.ctx = x then
      { q with cmds := tmap (fun _ (e : Cmd) => if e.got.isNone then { e with reg := none } else e) q.cmds } else q) s.queues }

/-- The last holding core of a pre-empted context is free: it is SAVED (R378). -/
def State.savedNow (s : State) (x : Nat) : State :=
  if (s.ctx x).state = .preempting ∧ (s.ctx x).stop.isNone ∧ (s.arcCores x).all (fun c => !s.stands c x .holding) = true then
    s.modCtx x (fun c => { c with state := .saved })
  else s

/-- The watchdog of queue `q` has its effect (15 R371 step 2): every STARTED command becomes FAULTED, and so does the queue. -/
def State.dogBites (s : State) (q : Nat) : State :=
  let rs := (s.queue q).cmds.filter (fun p => p.2.runs)
  if rs = [] then s.queueFault q 0xB0
  else (rs.foldl (fun s p => s.finalize q p.1 true 0xB0 0) s).modQueue q (fun y => { y with state := .faulted, cause := 0xB0 })

/-- What the watchdogs that asked for a stop do once it is over (15 R371 steps 2 and 3, 16 R399). -/
def State.dogsEnd (s : State) (x : Nat) (qs : List Nat) : State :=
  let s1 := qs.foldl (fun s q => s.dogBites q) s
  if qs = [] then s1 else s1.faultCtx x 0xB0

/-- Core `c` stops and comes to hold its context: its port operation and KCOMMIT end, its messages and ring entries leave, and a trap that stops its engines is
delivered first (R381, R399). -/
def State.stopCores (s : State) (x : Nat) (cs : List Nat) : State :=
  let s1 := cs.foldl (fun s c => (s.finishPort c).finishCommit c 4098) s
  let s2 := (List.range 64).foldl (fun s q => s.finishRing x q ((s.hringsTo x q).length)) s1
  let s3 := cs.foldl (fun s c => s.finishMessages c (((s.mem c).fl 6).length)) s2
  cs.foldl (fun s c => s.holdCore c) (cs.foldl (fun s c => s.deliverAt c) s3)

/-- The stop has completed: every core of the arc holds the context. -/
def State.finishStop (s : State) (x : Nat) (p : Stop) : State :=
  let cs := (s.arcCores x).filter (fun c => s.stands c x .running)
  let s4 := ((s.stopCores x cs).suspendGroups x).unwait x
  let s5 := ((s4.modCtx x (fun c => { c with stop := none, stopped := p.start, rdy := 0 })).savedNow x).answerAll p.waiters 0
  let s6 := s5.dogsEnd x p.dogs
  if p.destroy then s6.teardown x else s6

/-- Of a stop that is pending at YIELDs, the cores stop one by one (R394): those without a member at once, the others once their member stands still, its
transfers are at a boundary and no instance of its group is under way. -/
def State.holdStill (s : State) (x : Nat) : State :=
  s.stopCores x ((s.arcCores x).filter (fun c => s.stands c x .running && (s.core c).standsStill
    && (!(s.seat c).present || ((s.gapAt c 5).isNone && (s.gapAt c 6).isNone && (s.group (s.mem c).group).insts == []))))

/-- Whether a collective instance of the context has begun and is not delivered (R381 step 2). -/
def State.instancesOpen (s : State) (x : Nat) : Bool := (s.groupsOf x).any (fun g => g.2.insts != [])

/-- STOP_COMPLETE (R381): every core of the arc stops and holds the context, within 20 µs of the start; of a stop that is pending at YIELDs, only those whose
member stands still, until every member does (R394). -/
def execStopComplete (x : Nat) (s : State) : Out :=
  match (s.ctx x).stop with
  | none => .next s
  | some p =>
    let still := (s.arcCores x).all (fun c => !s.stands c x .running || (s.core c).standsStill)
    if p.atOnce = true ∧ p.start + 20000 ≤ s.ptc then .next s
    else if p.atOnce = false ∧ still = false then .next (s.holdStill x)
    else
      let gaps := fun (s : State) => (s.arcCores x).any (fun c => s.stands c x .running && ((s.gapAt c 5).isSome || (s.gapAt c 6).isSome))
      let s1 := if gaps s then (s.arcCores x).foldl (fun s c => if s.stands c x .running then (s.closeGaps c 5 64).closeGaps c 6 64 else s) s else s
      if s1.instancesOpen x ∨ gaps s1 = true then .next s1 else .next (s1.finishStop x p)

/-- The inboxes that context `x` keeps on core `c` are lost; a message on its way finds no place reserved. -/
def State.dropInbox (s : State) (x c : Nat) : State :=
  s.modCtx x (fun k => { k with inbox := k.inbox.filter (fun p => p.1 / 8 != s.seatNo x c) })

/-- A core is reset (R391): what the context kept there is lost. -/
def State.resetCore (s : State) (c : Nat) : State :=
  (s.dropInbox (s.ctxOn c) c).modCore c (fun y =>
    let z := { y with
      wants := [], refills := []
      seat := { y.seat with acc := [], cask := y.seat.cask, slots := y.seat.slots.filter (fun q => q.2.ctx != y.ctx) }
      l1 := [], fifo := [], outq := [] }.free
    (z.pages.filter (fun q => q.2.ctx == y.ctx)).foldl (fun z q => z.freeSpage q.1) z)

/-- The stop has run out of time (R391): its cores are reset, and the context becomes FAULTED. -/
def State.timeoutStop (s : State) (x : Nat) (p : Stop) : State :=
  let cs := (s.arcCores x).filter (fun c => s.hasCtx c x)
  let s1 := (s.suspendGroups x).groupsOf x |>.foldl (fun s g => s.modGroup g.1 (fun G => { G with insts := [] })) (s.suspendGroups x)
  let s2 := (cs.foldl (fun s c => s.resetCore c) s1).unwait x
  let s3 := (((s2.faultCtx x 0xB2).modCtx x (fun c => { c with stop := none, stopped := p.start, rdy := 0 })).answerAll p.waiters 4).dogsEnd x p.dogs
  if p.destroy then s3.teardown x else s3.refreshKernels

/-- STOP_TIMEOUT (R391): 20 µs after its start a stop has not completed. -/
def execStopTimeout (x : Nat) (s : State) : Out :=
  match (s.ctx x).stop with
  | none => .next s
  | some p => if p.atOnce ∧ p.start + 20000 ≤ s.ptc then .next (s.timeoutStop x p) else .next s

end Sys2Proof.Machine
end

