-- ==== Sys2Proof/Machine/Context.lean ====
section
/-! DEFINITION. The privileged context instructions (16 R393 to R397): pre-emption, saving, parking, loading and resuming a context, the barrier map,
and halted members. -/

namespace Sys2Proof.Machine

/-- The context that a sequencer's s[a] names, with `limit` one past the largest value; `none` traps CTX_OPERAND (R393). -/
def State.ctxArg (s : State) (a limit : Nat) : Option Nat :=
  let v := s.rn a
  let x := v % 256
  let c := s.ctx x
  if limit ≤ v ∨ c.state = .free ∨ c.state = .created ∨ c.kind ≠ 0 then none
  else if (s.arcDies x).contains (dieOf s.cur.core) then some x else none

/-- Runs `f` on the context that s[a] names. -/
def State.withCtx (s : State) (a : Nat) (f : Nat → Out) : Out :=
  match s.ctxArg a 256 with
  | none => s.trap 0xA5
  | some x => f x

/-- Completes with a status in s[d] (R393). -/
def State.status (s : State) (d v : Nat) : Out := (s.putS d (BitVec.ofNat 64 v)).done

-- PREEMPT (R394).

/-- PREEMPT and PREEMPT.y. While it waits, its operand list is empty; the end of the stop puts the status there. -/
def State.preempt (s : State) (d a : Nat) (now : Bool) : Out :=
  if s.cur.ent.issued then
    match s.cur.ent.opv with
    | v :: _ => s.status d v
    | [] => s.lingers
  else
    s.withCtx a (fun x =>
      if (s.ctx x).state ≠ .running ∧ (s.ctx x).stop.isNone = true then s.status d 3
      else
        let s1 := s.beginStop x { atOnce := now, waiters := [dieOf s.cur.core] }
        (if now then s1 else { s1.holdStill x with cur := s.cur }).lingers)

/-- PREEMPT (R394, fn 0). -/
def execPreempt (d a : Nat) (s : State) : Out := s.preempt d a true

/-- PREEMPT.y (R394, fn 1). -/
def execPreemptY (d a : Nat) (s : State) : Out := s.preempt d a false

-- Images (R382, R384, R385).

/-- The extension of a core's image, and the park place of one. -/
def State.extAddr (s : State) (x i : Nat) : Nat := (s.ctx x).xbase + i * 0x10000
def State.parkAddr (s : State) (x i : Nat) : Nat := (s.ctx x).pbase + i * 0x140000

/-- The pages of `n` bytes at `va`, translated for core `c` of context `x`; `hbm` says that each must be a TGT 0 page. -/
def State.areaPages (s : State) (c x va n : Nat) (k : Access) (hbm : Bool) : Option (List Loc) × State :=
  match s.translateAll c x k false ((List.range (n / 4096)).map (fun i => va + 4096 * i)) with
  | (.error _, s1) => (none, s1)
  | (.ok ls, s1) => (if hbm ∧ ls.any (fun l => l.tgt != 0) = true then none else some ls, s1)

/-- The CONTROL bytes of image `num` after the seal (they have no published layout). -/
def controlBytes (num : Nat) : List Byte := (List.range (10240 - 32)).map (fun i => Config.controlByte num (i + 32))

/-- The extension's bytes: records of copies and of layers, and zeros. -/
def extBytes (num : Nat) : List Byte := (List.range 49152).map (fun i => Config.controlByte num (i + 10240)) ++ List.replicate 16384 0

/-- The seal of an image (R385): of context `x`, place `i` in it, its CONTROL bytes and its extension. -/
def State.seal_ (s : State) (x i : Nat) (control ext : List Byte) : List Byte :=
  hmac (kseal s.tri.boots) (leBytes 1 x ++ leBytes 1 (i / 64) ++ leBytes 1 (i % 64) ++ control ++ ext)

/-- The bytes at translated pages, as the executing party reads them (13 R331). -/
def State.readPages (s : State) (ls : List Loc) : List Byte := ls.flatMap (fun l => s.partyRead s.cur.core l 4096)

/-- Writes bytes at translated pages. -/
def State.writePages (s : State) (ls : List Loc) (bs : List Byte) : State :=
  ((List.range ls.length).zip ls).foldl (fun s p => s.systemWrite s.cur.core p.2 ((bs.drop (4096 * p.1)).take 4096)) s

/-- Frame `k` of core `c`, and what it holds. -/
def State.frame (s : State) (c k : Nat) : Option Image := tget (s.die (dieOf c)).frames (2 * coreOnDie c + k)
def State.setFrame (s : State) (c k : Nat) (m : Option Image) : State :=
  s.modDie (dieOf c) (fun d => { d with frames := match m with
    | some i => tset d.frames (2 * coreOnDie c + k) i
    | none => tdel d.frames (2 * coreOnDie c + k) })

/-- Whether an offset in the cask store lies in a slot that is not EMPTY. -/
def slotsCover (t : Tab Slot) (o : Nat) : Bool :=
  t.any (fun p => p.2.state != .empty && decide (64 * p.2.off ≤ o ∧ o < 64 * p.2.off + (p.2.nl + 1) * p.2.sliceb))

/-- What an image of context `x` takes of a seat: of the cask store and its slots only the context's own (11 R302, R395). -/
def Seat.imaged (m : Seat) (x : Nat) : Seat :=
  let mine := m.slots.filter (fun p => p.2.ctx == x)
  { m with slots := mine, cask := m.cask.filter (fun b => slotsCover mine b.1) }

/-- Writes the extension and the sealed image of core `c`, which then is free; `none` when an extension page fails translation. -/
def State.saveCore (s : State) (x k c : Nat) (ls : List Loc) : State :=
  let num := s.nextId
  let i := s.seatNo x c
  let ext := extBytes num
  let img : Image := { ctx := x, num := num, mac := leNat (s.seal_ x i (controlBytes num) ext), seat := (s.seat c).imaged x }
  (({ s.writePages ls ext with nextId := num + 1 } : State).setFrame c k (some img)).modCore c Core.free

/-- The extension pages of a list of cores; `none` when a page of one fails. -/
def State.extPages (s : State) (x : Nat) (cs : List Nat) (k : Access) (hbm : Bool) : Option (List (Nat × List Loc)) × State :=
  match cs with
  | [] => (some [], s)
  | c :: r =>
    match s.areaPages c x (s.extAddr x (s.seatNo x c)) 65536 k hbm with
    | (none, s1) => (none, s1)
    | (some ls, s1) =>
      match s1.extPages x r k hbm with
      | (none, s2) => (none, s2)
      | (some m, s2) => (some ((c, ls) :: m), s2)

/-- CTXSAVE of frame `k` (R395). -/
def State.ctxsave (s : State) (d a k : Nat) : Out :=
  s.withCtx a (fun x =>
    let cs := (s.coresHere x (dieOf s.cur.core)).filter (fun c => s.stands c x .holding)
    if cs = [] then s.status d 1
    else if cs.any (fun c => (s.frame c k).isSome) then s.status d 2
    else
      match s.extPages x cs .write false with
      | (none, s1) => (s1.faultCtx x 0xB3).status d 3
      | (some ps, s1) => (((ps.foldl (fun s p => s.saveCore x k p.1 p.2) s1).savedNow x).refreshKernels).status d 0)

/-- CTXSAVE (R395). -/
def execCtxsave (d a k : Nat) (s : State) : Out := s.ctxsave d a (k % 2)

-- Park and unpark (R382, R384, R386).

/-- Little-endian bytes of the registers `lo` to `lo + n - 1` of a table, each of `w` bytes. -/
def tabBytes {k : Nat} (t : Tab (BitVec k)) (w lo n : Nat) : List Byte := (List.range n).flatMap (fun i => leBytes w (tgetD t (lo + i) 0).toNat)

/-- The table back from its bytes. -/
def tabOf (k w lo n : Nat) (bs : List Byte) : Tab (BitVec k) :=
  (List.range n).filterMap (fun i =>
    let v := BitVec.ofNat k (leNat ((bs.drop (w * i)).take w))
    if v = 0 then none else some (lo + i, v))

/-- The INBOX region: message `m` of channel `ch` at 1024 · ch + 64 · m. -/
def State.inboxBytes (s : State) (x i : Nat) : List Byte :=
  (List.range 8).flatMap (fun ch =>
    let bs := (s.inbox x (8 * i + ch)).msgs.flatMap (fun m => m)
    bs ++ List.replicate (1024 - bs.length) 0)

/-- The regions of an image before ACC, which park copies (R382). -/
def State.imageBytes (s : State) (x i : Nat) (m : Image) : List Byte :=
  let y := m.seat.mem
  leBytes 32 m.mac ++ controlBytes m.num ++ s.inboxBytes x i ++ tabBytes y.masks 128 1 15 ++ List.replicate 128 0
    ++ tabBytes y.partialP 4 0 20480 ++ tabBytes y.taps 128 32 224 ++ tabBytes y.tiles 128 0 1024

/-- Writes an image at its park place; a block that is not LIVE is not written (R382, 10 R244). -/
def State.parkImage (s : State) (x i : Nat) (m : Image) (ls : List Loc) : State :=
  let s1 := s.writePages (ls.take 64) (s.imageBytes x i m)
  (List.range 16).foldl (fun s b => if m.seat.live.contains b then s.writePages ((ls.drop (64 + 16 * b)).take 16) (mread m.seat.acc (65536 * b) 65536) else s) s1

/-- Writes back the DEPARTED pages of a context on core `c` (12 R316). -/
def State.flushDeparted (s : State) (c x : Nat) : State :=
  (s.core c).pages.foldl (fun s q => if q.2.ctx = x ∧ q.2.state = .departed then (s.writeBacking c q.1 q.2).modCore c (fun y => y.freeSpage q.1) else s) s

/-- The park pages of a list of cores. -/
def State.parkPages (s : State) (x : Nat) (cs : List Nat) (k : Access) : Option (List (Nat × List Loc)) × State :=
  match cs with
  | [] => (some [], s)
  | c :: r =>
    match s.areaPages c x (s.parkAddr x (s.seatNo x c)) 0x140000 k true with
    | (none, s1) => (none, s1)
    | (some ls, s1) =>
      match s1.parkPages x r k with
      | (none, s2) => (none, s2)
      | (some m, s2) => (some ((c, ls) :: m), s2)

/-- The units of frame `k` of core `c` that errors strike. -/
def State.frameHits (s : State) (c k : Nat) : List Nat :=
  s.ue.filterMap (fun e => match e with
    | .frame w j u => if w = c ∧ j = k then some u else none
    | _ => none)

/-- The error records of the units of a frame that errors strike (25 R497 CODE 3). -/
def State.noteFrame (s : State) (x c k : Nat) : State :=
  (s.frameHits c k).foldl (fun s u => s.errorRecord s.cur.core x 3 ((2 * coreOnDie c + k) * 0x140000 + 64 * u) 0 0) s

/-- Whether an error strikes a CONTROL byte of an image: its first 160 units (R385). -/
def controlHit (us : List Nat) : Bool := us.any (fun u => decide (u < 160))

/-- Whether an error strikes a unit of the listed pages. -/
def State.pagesHit (s : State) (ls : List Loc) : Bool :=
  ls.any (fun l => s.ue.any (fun k => match k with
    | .mem _ t u => t == l.tgt && u / 64 == l.pa / 4096
    | _ => false))

/-- A write to a park page that does not answer, or that an uncorrectable error strikes, is lost: a record, and the image will not verify (R386). -/
def State.parkLost (s : State) (c x va : Nat) (ls : List Loc) : Bool × State :=
  match ls.find? (fun l => !s.reachable (dieOf c) l || s.pagesHit [l]) with
  | some l => (true, s.errorRecord c x 11 (l.pa / 64 * 64) va 0)
  | none => (false, s)

/-- The member and accumulator of an image as they stand in the bytes of its park place (R385). -/
def Image.fromBytes (m : Image) (bs : List Byte) : Image :=
  let at_ := fun (o n : Nat) => (bs.drop o).take n
  let y : Member :=
    if m.seat.present then
      { m.seat.mem with
        masks := tabOf 1024 128 1 15 (at_ 0x4800 1920)
        partialP := tabOf 32 4 0 20480 (at_ 0x5000 81920)
        taps := tabOf 1024 128 32 224 (at_ 0x19000 28672)
        tiles := tabOf 1024 128 0 1024 (at_ 0x20000 131072) }
    else m.seat.mem
  { m with seat := { m.seat with
      mem := y
      acc := m.seat.live.foldl (fun z b => mwrite z (65536 * b) (at_ (0x40000 + 65536 * b) 65536)) m.seat.acc } }

/-- The messages of an inbox that stand in the listed units of an image read as zeros: message `j` of channel `ch` is unit 160 + 16 · ch + j. -/
def State.blankInbox (s : State) (x i : Nat) (us : List Nat) : State :=
  us.foldl (fun s u =>
    if u < 160 ∨ 288 ≤ u then s
    else s.modInbox x (8 * i + (u - 160) / 16) (fun b => { b with msgs := b.msgs.modify ((u - 160) % 16) (fun _ => List.replicate 64 0) })) s

/-- An image as it is read from frame `k` of core `c`: what errors strike reads as zeros, with a record (25 R497). -/
def State.frameRead (s : State) (x k c : Nat) (m : Image) : Image × State :=
  let us := s.frameHits c k
  if us = [] then (m, s)
  else
    let bs := s.imageBytes x (s.seatNo x c) m ++ mread m.seat.acc 0 0x100000
    (m.fromBytes (blankUnits bs 0 us), (s.blankInbox x (s.seatNo x c) us).noteFrame x c k)

/-- One core's image goes from frame `k` to its park place. -/
def State.parkCore (s : State) (x k c : Nat) (ls : List Loc) : State :=
  match s.frame c k with
  | none => s
  | some m0 =>
    let i := s.seatNo x c
    let (m, s) := s.frameRead x k c m0
    let (lost, s1) := (s.parkImage x i m ls).parkLost c x (s.parkAddr x i) ls
    let kept : Image := { m with counts := (List.range 8).map (fun ch => (s.inbox x (8 * i + ch)).msgs.length), pages := ls, lost := lost }
    (s1.setFrame c k none).modCtx x (fun y => { y with parked := tset y.parked i kept })

/-- CTXSAVE.park (R395, R386). -/
def execCtxsavePark (d a k : Nat) (s : State) : Out :=
  s.withCtx a (fun x =>
    let here := s.coresHere x (dieOf s.cur.core)
    let cs := here.filter (fun c => match s.frame c (k % 2) with
      | some m => m.ctx == x
      | none => false)
    if cs = [] then s.status d 1
    else
      match s.parkPages x cs .write with
      | (none, s1) => s1.status d 3
      | (some ps, s1) =>
        if ps.any (fun p => controlHit (s1.frameHits p.1 (k % 2))) then
          ((ps.foldl (fun s p => s.noteFrame x p.1 (k % 2)) s1).faultCtx x 0xB3).status d 3
        else
        let s2 := here.foldl (fun s c => s.flushDeparted c x) s1
        let s3 := ps.foldl (fun s p => s.parkCore x (k % 2) p.1 p.2) s2
        (s3.modCtx x (fun c => { c with state := if c.state = .saved then .parked else c.state })).status d 0)

/-- The inbox of a core from its park place. -/
def State.inboxFrom (s : State) (x i : Nat) (m : Image) (bs : List Byte) : State :=
  (List.range 8).foldl (fun s ch =>
    s.modInbox x (8 * i + ch) (fun b =>
      let n := m.counts.getD ch 0
      { b with msgs := (List.range n).map (fun j => (bs.drop (0x2800 + 1024 * ch + 64 * j)).take 64) ++ b.msgs.drop n })) s

/-- Whether an image verifies: its CONTROL bytes and its extension, as read, give its seal (R385); an uncorrectable error in one does not. -/
def State.verifies (s : State) (x i mac : Nat) (control ext : List Byte) : Bool := leNat (s.seal_ x i control ext) == mac

/-- The parked images of a list of cores as read from memory, each with whether it verifies: no write of it was lost, no error strikes a CONTROL byte or a byte of
its extension, and its seal stands. What else errors strike reads as zeros, with a record (R386). -/
def State.readParked (s : State) (x : Nat) (ps es : List (Nat × List Loc)) : List (Nat × List Byte × Bool) × State :=
  (ps.zip es).foldl (fun r p =>
    let c := p.1.1
    let i := s.seatNo x c
    let at_ := fun (va : Nat) (ls : List Loc) => ((List.range ls.length).zip ls).map (fun q => (va + 4096 * q.1, q.2, 4096))
    let b := r.2.memRead s.cur.core x 0 0 (fun s l n => s.partyRead s.cur.core l n) (at_ (s.parkAddr x i) p.1.2)
    let e := b.2.memRead s.cur.core x 0 0 (fun s l n => s.partyRead s.cur.core l n) (at_ (s.extAddr x i) p.2.2)
    let ok := !((tget (s.ctx x).parked i).map (fun m => m.lost)).getD false
      && !(s.ue.any (fun k => match k with
        | .mem _ t u => (List.range 160).any (fun j => (p.1.2[j / 64]?).any (fun l => l.tgt == t && u == l.pa / 64 + j % 64))
        | _ => false))
      && !s.pagesHit p.2.2 && s.verifies x i (leNat (b.1.take 32)) ((b.1.drop 32).take 10208) e.1
    (r.1 ++ [(c, b.1, ok)], e.2)) ([], s)

/-- One core's parked image goes into frame `k`. -/
def State.unparkCore (s : State) (x k : Nat) (p : Nat × List Byte × Bool) : State :=
  let i := s.seatNo x p.1
  match tget (s.ctx x).parked i with
  | none => s
  | some m => ((s.inboxFrom x i m p.2.1).setFrame p.1 k (some { m.fromBytes p.2.1 with pages := [] })).modCtx x (fun y => { y with parked := tdel y.parked i })

/-- CTXLOAD.unpark (R395, R386). -/
def execCtxloadUnpark (d a k : Nat) (s : State) : Out :=
  s.withCtx a (fun x =>
    let cs := (s.coresHere x (dieOf s.cur.core)).filter (fun c => (tget (s.ctx x).parked (s.seatNo x c)).isSome)
    if cs = [] then s.status d 1
    else if cs.any (fun c => (s.frame c (k % 2)).isSome) then s.status d 2
    else
      match s.parkPages x cs .read with
      | (none, s1) => s1.status d 3
      | (some ps, s1) =>
        match s1.extPages x cs .read true with
        | (none, s2) => (s2.faultCtx x 0xB3).status d 3
        | (some es, s2) =>
          let (imgs, s2) := s2.readParked x ps es
          if imgs.all (fun p => p.2.2) = false then (s2.faultCtx x 0xB3).status d 3
          else
            let s3 := imgs.foldl (fun s p => s.unparkCore x (k % 2) p) s2
            (s3.modCtx x (fun c => { c with state := if c.state = .parked ∧ c.parked = [] then .saved else c.state })).status d 0)

-- CTXLOAD and RESUME (R383, R395).

/-- Inserts the bytes of a memory that satisfy `p` into another, from which those are removed. -/
def mmerge (old new : Mem) (p : Nat → Bool) : Mem := (new.filter (fun b => p b.1)).foldl (fun m b => mset m b.1 b.2) (old.filter (fun b => !p b.1))

/-- The seat that a core has once it has loaded an image: LIVE blocks and the slots that the image records stand again; a member's racking
instructions are the new core's (R395, 10 R244, 11 R302). -/
def Seat.load (old m : Seat) (c : Nat) : Seat :=
  { m with
    acc := mmerge old.acc m.acc (fun o => m.live.contains (o / 65536))
    cask := mmerge old.cask m.cask (slotsCover m.slots)
    slots := m.slots.foldl (fun t p => tset t p.1 (if isSeq p.2.by_ then p.2 else { p.2 with by_ := c })) old.slots }

/-- Core `c` loads the image of frame `k`, or, with none, a state with every block ZERO and no member; the context's DEPARTED pages are PINNED. -/
def State.loadCore (s : State) (x k c : Nat) : State :=
  let (m, s) := match s.frame c k with
    | some m => s.frameRead x k c m
    | none => ({}, s)
  (s.setFrame c k none).modCore c (fun y => { y with
    status := .loaded, ctx := x, cfg := (s.ctx x).cfg, seat := y.seat.load m.seat c
    pages := tmap (fun _ (p : SPage) => if p.ctx = x ∧ p.state = .departed then { p with state := .pinned } else p) y.pages })

/-- CTXLOAD (R395): the cores' images from frame `k`. -/
def execCtxload (d a k : Nat) (s : State) : Out :=
  s.withCtx a (fun x =>
    let cs := s.coresHere x (dieOf s.cur.core)
    let ours := cs.filter (fun c => (s.frame c (k % 2)).isSome)
    if cs.any (fun c => (s.core c).status != .free) then s.status d 2
    else if (s.ctx x).state = .faulted ∨ (s.ctx x).state = .destroying ∨ cs.any (fun c => (tget (s.ctx x).parked (s.seatNo x c)).isSome
        || (match s.frame c (k % 2) with
          | some m => m.ctx != x
          | none => false)) = true then s.status d 3
    else
      match s.extPages x ours .read true with
      | (none, s1) => (s1.faultCtx x 0xB3).status d 3
      | (some es, s1) =>
        let ok := es.all (fun e => match s1.frame e.1 (k % 2) with
          | some m => s1.verifies x (s1.seatNo x e.1) m.mac (controlBytes m.num) (s1.readPages e.2)
          | none => true)
        let bad := es.any (fun e => controlHit (s1.frameHits e.1 (k % 2)) || s1.pagesHit e.2)
        if ok = false ∨ bad = true then ((ours.foldl (fun s c => s.noteFrame x c (k % 2)) s1).faultCtx x 0xB3).status d 3
        else (cs.foldl (fun s c => s.loadCore x (k % 2) c) s1).status d 0)

/-- What was in flight at the stop goes on: the time that passed while the context was stopped does not count against it. -/
def Entry.later (dt : Nat) (e : Entry) : Entry := { e with t0 := e.t0 + dt, pad := if e.pad = 0 then 0 else e.pad + dt }
def Seat.later (x : Seat) (dt : Nat) : Seat :=
  { x with
    mem := { x.mem with flight := tmap (fun _ (l : List Entry) => l.map (Entry.later dt)) x.mem.flight }
    slots := tmap (fun _ (y : Slot) => { y with ent := y.ent.later dt }) x.slots
    copies := tmap (fun _ (y : Copy) => { y with ent := y.ent.later dt }) x.copies }

/-- Every die of the arc is ready: the context runs (R383). ZERO blocks are written with +0, its groups load their text again (06 R158), and the resume is
an acquire (13 R339). -/
def State.runCtx (s : State) (x : Nat) : State :=
  let s1 := (s.arcCores x).foldl (fun s c => (s.modCore c (fun y => { y with
    status := .running
    seat := { y.seat with acc := y.seat.acc.filter (fun b => y.seat.live.contains (b.1 / 65536)) }.later (s.ptc - (s.ctx x).stopped) })).acquire c) s
  let s2 := (s1.groupsOf x).foldl (fun s g => match g.2.state with
    | .suspended => s.modGroup g.1 (fun G => { G with state := .loading, loaded := [], hold := s.holdOf G })
    | .forming => s.modGroup g.1 (fun G => { G with state := .loading, loaded := [], hold := s.holdOf G })
    | _ => s) (s1.usedKernels x .active)
  s2.modCtx x (fun c => { c with state := .running, rdy := 0 })

/-- RESUME (R397, fn 0): the die becomes ready; with the last one the context runs. -/
def execResume (d a : Nat) (s : State) : Out :=
  s.withCtx a (fun x =>
    let die := dieOf s.cur.core
    let cs := s.coresHere x die
    if cs.all (fun c => s.stands c x .loaded) = false then s.status d 3
    else
      let s1 := cs.foldl (fun s c => s.modCore c (fun y => { y with cfg := (s.ctx x).cfg })) s
      let s2 := s1.modCtx x (fun c => { c with rdy := orBit c.rdy ((die + 8 - c.ad) % 8) })
      let all := (s2.arcCores x).all (fun c => bit (s2.ctx x).rdy ((dieOf c + 8 - (s2.ctx x).ad) % 8))
      let go := all && ((s2.ctx x).state == .bound || (s2.ctx x).state == .saved)
      ((if go then s2.runCtx x else s2).status d 0))

-- Halted members (R397).

/-- The core of a member form, when the context runs, is held or is loaded there and its member is halted; `none` is STATE. -/
def State.haltedAt (s : State) (x b : Nat) : Option Nat :=
  let c := dieOf s.cur.core * 64 + s.rn b
  if s.hasCtx c x = true ∧ (s.seat c).present ∧ (s.mem c).isHalted = true then some c else none

/-- A member form: `f` acts on the halted member's core. -/
def State.memberForm (s : State) (d a b : Nat) (f : State → Nat → State) : Out :=
  s.withCtx a (fun x =>
    if 64 ≤ s.rn b then s.trap 0xA5
    else
      match s.haltedAt x b with
      | none => s.status d 3
      | some c => (f s c).status d 0)

/-- The member on core `c` goes on (R390, R397). A copy whose page failed is tried again, or, with `skip`, ends with its post. -/
def State.goOn (s : State) (c : Nat) (skip : Bool) : State :=
  let m := s.mem c
  let copy := match m.fetchTrap, m.stuck with
    | none, (_, t) :: _ => t.copy
    | _, _ => 0
  let s1 :=
    if copy = 0 then s.modMem c (fun m => m.resumeFrom (bits m.traplane 6 4) skip)
    else
      let e := (tgetD (s.seat c).copies (copy - 1) {}).ent
      let s2 := s.modMem c (fun m => { m with stuck := m.unheard 0, fetchTrap := none, status := .running })
      if skip then (s2.modSeat c (fun y => { y with copies := tdel y.copies (copy - 1) })).modMem c (fun m => m.postPrefix 5 e.pfx) else s2
  s1.checkGroup m.group

/-- RESUME.m (R397, fn 1). -/
def execResumeM (d a b : Nat) (s : State) : Out := s.memberForm d a b (fun s c => s.goOn c false)

/-- RESUME.skip (R397, fn 2). -/
def execResumeSkip (d a b : Nat) (s : State) : Out := s.memberForm d a b (fun s c => s.goOn c true)

/-- RESUME.end (R397, fn 3): the halted member retires; barriers that came to count it after it halted break (14 R353), and its writes are performed before its
LAUNCH's entry becomes FAULTED (15 R365). -/
def execResumeEnd (d a b : Nat) (s : State) : Out :=
  s.memberForm d a b (fun s c => ((s.breakBarriers c 0x92).release c true).retire c true)

-- CTXMAP (R396).

/-- A barrier-map entry that follows 14 R341. -/
def mapEntryOk (v : Nat) : Bool := decide (v < 2 ^ 33) && (!bit v 32 || (!bit v 31 && bits v 21 20 == 0 && v % 16 == 0))

/-- CTXMAP (R396). -/
def execCtxmap (d a b : Nat) (s : State) : Out :=
  if s.cur.ent.issued then s.waitInval d (fun _ => 0)
  else
    match s.ctxArg a 65536 with
    | none => s.trap 0xA5
    | some x =>
      let n := s.rn a / 256
      if mapEntryOk (s.rn b) = false then s.trap 0x82
      else
        let l : Loc := { tgt := 0, pa := (s.ctx x).cdesc + 0x100 + 8 * n, key := s.key0, scope := 3 }
        ((s.systemWrite s.cur.core l (leBytes 8 (s.rn b))).invalidate { core := s.cur.core, kind := 4, ctx := x, arg := n, after := 1 }).lingers

end Sys2Proof.Machine
end

