-- ==== Sys2Proof/Machine/Cctl.lean ====
section
/-! DEFINITION. The driver's control of contexts (16 R374 to R380). -/

namespace Sys2Proof.Machine

/-- Ends a CCTL operation with a RESULT (R374): 0 OK, 1 BUSY, 2 STATE, 3 INVALID. -/
def State.result (s : State) (x v : Nat) : Out := .next (s.modCtx x (fun c => { c with result := v }))

/-- The host reaches context `x`: one of the 256 (00 R2, R374). -/
def State.hostCtx (s : State) (x : Nat) : Bool := s.hostKeyed && decide (x < 256)

/-- CDESC write (R374): discarded unless the context is FREE. -/
def execCdescWrite (x v : Nat) (s : State) : Out :=
  if s.hostCtx x = false then .next s else
  if (s.ctx x).state = .free then .next (s.modCtx x (fun c => { c with cdesc := v })) else .next s

/-- The 4 KiB descriptor of a context (R375). -/
def State.descriptor (s : State) (x : Nat) : List Byte := s.homeRead 0 { tgt := 0, pa := (s.ctx x).cdesc, key := s.key0, scope := 3 } 4096

/-- A field of `n` bytes. -/
def fieldOf (bs : List Byte) (o n : Nat) : Nat := leNat ((bs.drop o).take n)

/-- A descriptor that CREATE accepts (R380). -/
def descriptorOk (bs : List Byte) (sup : Bool) : Bool :=
  fieldOf bs 0 8 % 4096 == 0 && fieldOf bs 8 8 % 65536 == 0 && fieldOf bs 0x10 8 % 65536 == 0 && fieldOf bs 0x18 8 % 65536 == 0
    && decide (fieldOf bs 0x28 2 ≤ 4096) && fieldOf bs 0x2A 1 != 0 && decide (fieldOf bs 0x2B 1 ≤ 1) && !(fieldOf bs 0x2B 1 == 1 && sup)
    && ((bs.drop 0x34).take 204).all (fun b => b == 0) && (bs.drop 0x900).all (fun b => b == 0)

/-- CREATE (R378, R380). The supervisor runs from CREATE on (R377). -/
def execCreate (x : Nat) (s : State) : Out :=
  if s.hostCtx x = false then .next s else
  let bs := s.descriptor x
  let pa := (s.ctx x).cdesc
  if (s.ctx x).state ≠ .free then s.result x 2
  else if pa % 4096 ≠ 0 ∨ hbmAssigned pa = false ∨ descriptorOk bs s.supervisor.isSome = false then s.result x 3
  else
    let part := fieldOf bs 0x30 4
    .next (s.modCtx x (fun c => { c with
      state := if fieldOf bs 0x2B 1 = 1 then .running else .created
      cause := 0, result := 0
      root := fieldOf bs 0 8, sbase := fieldOf bs 8 8, xbase := fieldOf bs 0x10 8, pbase := fieldOf bs 0x18 8
      slabt := fieldOf bs 0x20 8, slabn := fieldOf bs 0x28 2, quota := fieldOf bs 0x2A 1, kind := fieldOf bs 0x2B 1
      cfg0 := fieldOf bs 0x2C 4, cfg := fieldOf bs 0x2C 4 % 8
      ad := if fieldOf bs 0x2B 1 = 1 then 0 else part % 8
      sq := if fieldOf bs 0x2B 1 = 1 then 0 else bits part 9 8
      nq := if fieldOf bs 0x2B 1 = 1 then 0 else bits part 21 16 }))

/-- The quarters of an arc, numbered in the package (R376). -/
def arcQuarters (ad sq nq : Nat) : List Nat := (List.range nq).map (fun i => (ad * 4 + sq + i) % 32)

/-- Whether a context is bound to its arc; one that is being destroyed, if it ever was. -/
def Ctx.isBound (c : Ctx) : Bool :=
  c.kind == 0 && (match c.state with
    | .free => false | .created => false | .destroying => c.bound | _ => true)

/-- PART names a partition that follows R376 and overlaps no other bound arc without equalling it (R380). -/
def State.partOk (s : State) (x part : Nat) : Bool :=
  let ad := part % 8
  let sq := bits part 9 8
  let nq := bits part 21 16
  bits part 7 3 == 0 && bits part 15 10 == 0 && bits part 31 22 == 0 && decide (1 ≤ nq ∧ nq ≤ 32 ∧ sq + nq ≤ 32)
    && s.ctxs.all (fun p => p.1 == x || !p.2.isBound || (p.2.ad == ad && p.2.sq == sq && p.2.nq == nq)
      || (arcQuarters ad sq nq).all (fun q => !(arcQuarters p.2.ad p.2.sq p.2.nq).contains q))

/-- Copies PART, with a new state. -/
def State.setPart (s : State) (x part : Nat) (st : CtxState) : State :=
  s.modCtx x (fun c => { c with state := st, result := 0, ad := part % 8, sq := bits part 9 8, nq := bits part 21 16, bound := true })

/-- BIND (R378, R380). -/
def execBind (x : Nat) (s : State) : Out :=
  if s.hostCtx x = false then .next s else
  let part := fieldOf (s.descriptor x) 0x30 4
  if (s.ctx x).state ≠ .created then s.result x 2
  else if s.partOk x part = false then s.result x 3
  else .next (s.setPart x part .bound)

/-- Cores loaded with a context that will not run there are free again. -/
def State.unload (s : State) (x : Nat) : State :=
  (s.arcCores x).foldl (fun s c => if s.stands c x .loaded then s.modCore c Core.free else s) s

/-- UNBIND (R378). -/
def execUnbind (x : Nat) (s : State) : Out :=
  if s.hostCtx x = false then .next s else
  if (s.ctx x).state ≠ .bound then s.result x 2
  else .next ((s.unload x).modCtx x (fun c => { c with state := .created, result := 0, rdy := 0, bound := false }))

/-- Whether a cellar frame holds an image of a context. -/
def State.hasFrame (s : State) (x : Nat) : Bool := s.dies.any (fun d => d.2.frames.any (fun f => f.2.ctx == x))

/-- Whether a core holds or is loaded with a context, or is about to hold it. -/
def State.coresBusy (s : State) (x : Nat) : Bool :=
  (s.ctx x).stop.isSome || s.cores.any (fun p => p.2.ctx == x && (p.2.status == .holding || p.2.status == .loaded || p.2.status == .running))

/-- REBIND (R378, R380): another arc of the same shape. -/
def execRebind (x : Nat) (s : State) : Out :=
  if s.hostCtx x = false then .next s else
  let part := fieldOf (s.descriptor x) 0x30 4
  if (s.ctx x).state ≠ .parked then s.result x 2
  else if s.partOk x part = false ∨ bits part 9 8 ≠ (s.ctx x).sq ∨ bits part 21 16 ≠ (s.ctx x).nq then s.result x 3
  else if s.hasFrame x ∨ s.coresBusy x = true then s.result x 1
  else .next (s.setPart x part .parked)

/-- The state a context leaves FAULTED for: by where its images stand (R378). -/
def State.unfault (s : State) (x : Nat) : State :=
  s.modCtx x (fun c => { c with state := if c.parked = [] then .saved else .parked, cause := 0, result := 0, rdy := 0 })

/-- CLEAR (R378, R399). -/
def execClear (x : Nat) (s : State) : Out :=
  if s.hostCtx x = false then .next s else
  if (s.ctx x).state ≠ .faulted then s.result x 2
  else if s.coresBusy x then s.result x 1
  else if (s.ctx x).cause = 0xB3 then s.result x 2
  else .next (s.unfault x)

/-- What DISCARD leaves of an image: its accumulator blocks, with the barrier pairs in them. -/
def Image.discard (m : Image) : Image := { m with seat := { acc := m.seat.acc, live := m.seat.live, armed := m.seat.armed }, counts := [] }

/-- DISCARD (R378, R380). -/
def execDiscard (x : Nat) (s : State) : Out :=
  if s.hostCtx x = false then .next s else
  if (s.ctx x).state ≠ .faulted then s.result x 2
  else if s.coresBusy x then s.result x 1
  else
    let s1 := (s.endGroups x (s.ctx x).cause).dropTraces x
    let s2 : State := { s1 with dies := tmap (fun _ (d : Die) => { d with frames := tmap (fun _ (m : Image) => if m.ctx = x then m.discard else m) d.frames }) s1.dies }
    .next ((s2.modCtx x (fun c => { c with parked := tmap (fun _ (m : Image) => m.discard) c.parked, inbox := [] })).unfault x)

/-- DESTROY (R378, R380): a RUNNING context is stopped first, without a save. -/
def execDestroy (x : Nat) (s : State) : Out :=
  if s.hostCtx x = false then .next s else
  let c := s.ctx x
  match c.state with
  | .free => s.result x 2
  | .destroying => s.result x 2
  | _ =>
    let s1 := s.modCtx x (fun c => { c with state := .destroying, result := 0 })
    if c.kind = 0 ∧ (c.state = .running ∨ c.stop.isSome = true) then .next (s1.beginStop x { destroy := true })
    else .next (s1.teardown x)

end Sys2Proof.Machine
end

