-- ==== Sys2Proof/Machine/Image.lean ====
section
/-! DEFINITION. Kernel images (04 R106 to R113): reading one, its verification (05 R115, 16 R390), and the text that a core loads (05 R117). -/

namespace Sys2Proof.Machine

/-- Reads `n` bytes at `va` for party `c` in context `x`, as they stand at home; a page that does not answer reads zeros, with a record, and so does a
64-byte unit that an uncorrectable error strikes (17 R409, 25 R497). -/
def State.readArea (s : State) (c x va n : Nat) (k : Access) : Except Trap (List Byte) × State :=
  let ps := pageStarts va n
  match s.translateAll c x k false ps with
  | (.error t, s1) => (.error t, s1)
  | (.ok ls, s1) =>
    let r := s1.memRead c x 0 0 (fun s l n => s.homeRead (dieOf c) l n) ((ps.zip ls).map (fun p => (p.1, p.2, min (4096 - p.1 % 4096) (va + n - p.1))))
    (.ok r.1, r.2)

/-- A part of an image (R106): the header offset of its OFF field, bytes of an entry, bytes before the entries, alignment, largest count (0 for none). -/
structure ImagePart where
  hoff : Nat
  esz : Nat
  extra : Nat
  align : Nat
  most : Nat
  deriving DecidableEq, Repr

/-- The parts: text, loop table, format table, sync table, ring table, cask layout, relocations, symbols, data. The symbols and the data segment may stand
anywhere (DEDUCED, log entry 27). -/
def imageParts : List ImagePart :=
  [⟨0x08, 32, 0, 32, 8192⟩, ⟨0x10, 8, 0, 8, 8⟩, ⟨0x18, 8, 0, 8, 256⟩, ⟨0x20, 8, 64, 8, 0⟩, ⟨0x28, 8, 0, 8, 16⟩, ⟨0x30, 8, 0, 8, 1⟩,
    ⟨0x38, 16, 0, 8, 0⟩, ⟨0x40, 1, 0, 1, 0⟩, ⟨0x48, 1, 0, 1, 0⟩]

/-- Where a part starts, how many entries it has, and how many bytes, in an image with header `h`. -/
def ImagePart.off (p : ImagePart) (h : List Byte) : Nat := fieldOf h p.hoff 4
def ImagePart.num (p : ImagePart) (h : List Byte) : Nat := fieldOf h (p.hoff + 4) 4
def ImagePart.len (p : ImagePart) (h : List Byte) : Nat := p.extra + p.esz * p.num h

/-- The end of an image: that of its last part. -/
def imageEnd (h : List Byte) : Nat := imageParts.foldl (fun m p => if p.len h = 0 then m else max m (p.off h + p.len h)) 0x80

/-- A check: whether it fails, and the header offset that is then reported. -/
abbrev Check := Bool × Nat

/-- The first check that fails. -/
def firstFail (l : List Check) : Option Nat := (l.find? (fun c => c.1)).map (fun c => c.2)

/-- The rules of R106 on the header: numbers, counts, places, no overlap, reserved bytes. -/
def headerChecks (h : List Byte) : List Check :=
  [(fieldOf h 0 4 != 0x4B514445, 0), (fieldOf h 4 2 != 1, 4), (fieldOf h 6 2 != 0, 6)]
    ++ imageParts.flatMap (fun p =>
      [(decide (p.most ≠ 0 ∧ p.most < p.num h) || (p.hoff == 8 && p.num h == 0), p.hoff + 4),
        (p.off h % p.align != 0 || decide (p.len h ≠ 0 ∧ p.off h < 0x80), p.hoff)])
    ++ imageParts.map (fun p => (imageParts.any (fun q =>
      decide (p.hoff ≠ q.hoff ∧ p.len h ≠ 0 ∧ q.len h ≠ 0 ∧ (q.off h < p.off h ∨ (q.off h = p.off h ∧ q.hoff < p.hoff)) ∧ p.off h < q.off h + q.len h)), p.hoff))
    ++ [(fieldOf h 0x56 10 != 0, 0x56)]

/-- The 8-byte entries of a table. -/
def entries8 (bs : List Byte) (off n : Nat) : List Nat := (List.range n).map (fun i => fieldOf bs (off + 8 * i) 8)

/-- A loop-table entry (R108). -/
def loopOf (e : Nat) : LoopEnt := { reg := bits e 43 38, stages := bits e 37 35, pipe := bit e 34, kind := bits e 33 32, count := e % 2 ^ 32 }

/-- A loop-table entry that follows R108; `inner` says that no later level is TEMPORAL. -/
def loopOk (e : Nat) (inner : Bool) : Bool :=
  let l := loopOf e
  decide (e < 2 ^ 44) && l.kind != 3 && decide (1 ≤ l.count) && !(l.kind == 1 && decide (64 < l.count)) && !(l.kind == 2 && decide (8 < l.count))
    && !(l.stages != 0 && !l.pipe) && !(l.pipe && (l.kind != 0 || !inner)) && !(l.kind == 0 && l.reg != 0)

/-- The loop table follows R108. -/
def loopsOk (es : List Nat) : Bool :=
  match es with
  | [] => true
  | e :: r => loopOk e (r.all (fun x => (loopOf x).kind != 0)) && loopsOk r

/-- A format-table entry (R109). -/
def fmtOf (e : Nat) : FmtEnt :=
  { ta := e % 32, tb := bits e 9 5, td := bits e 14 10, sa := bits e 23 16, sb := bits e 31 24, sd := bits e 39 32 }

/-- A ring-table entry (R110): its number and ring. -/
def ringOf (e : Nat) : Nat × Ring := (bits e 53 50, { base := e % 2 ^ 24, slotb := (bits e 39 32 + 1) * 64, n := bits e 49 40 + 1 })

/-- The ring table follows R110. -/
def ringsOk (es : List Nat) : Bool :=
  match es with
  | [] => true
  | e :: r =>
    let (q, x) := ringOf e
    decide (e < 2 ^ 54) && bits e 31 24 == 0 && x.base % 64 == 0 && decide (x.base + x.slotb * x.n ≤ 0x1000000)
      && r.all (fun f => (ringOf f).1 != q && decide ((ringOf f).2.base + (ringOf f).2.slotb * (ringOf f).2.n ≤ x.base ∨ x.base + x.slotb * x.n ≤ (ringOf f).2.base))
      && ringsOk r

/-- The lanes of `n` lines. -/
def linesOf (bs : List Byte) (n : Nat) : List (List Lane) :=
  match n with
  | 0 => []
  | k + 1 => ((List.range 8).map (fun i => BitVec.ofNat 32 (fieldOf bs (4 * i) 4))) :: linesOf (bs.drop 32) k

/-- The instructions of the text, with their lines: also of lines that fail R68, which is a check of its own (05 R115). -/
def headsOf (ls : List (List Lane)) : List (Nat × Dealt) :=
  ((List.range ls.length).zip ls).flatMap (fun p => (parseLanes (numbered p.2) none).map (fun d => (p.1, d)))

/-- Whether an instruction waits on a token: by its prefix, or as a TKWAIT of it (R107; DEDUCED, log entry 27). -/
def Dealt.awaits (d : Dealt) (t : Nat) : Bool :=
  (prefixWaits d.pfx).contains t || (d.eng == 1 && (match decode? .ce d.lanes with
    | some (.tkwait k) => k == t
    | _ => false))

/-- Whether an instruction posts a token: by its prefix, or as a TKPOST of it. -/
def Dealt.gives (d : Dealt) (t : Nat) : Bool :=
  prefixPost d.pfx == some t || (d.eng == 1 && (match decode? .ce d.lanes with
    | some (.tkpost k) => k == t
    | _ => false))

/-- The instructions that an edge entry names, by line and lane: the one that waits and the one that posts. -/
def waitEnd (e : Nat) : Nat × Nat := (bits e 28 16, bits e 31 29)
def postEnd (e : Nat) : Nat × Nat := (bits e 12 0, bits e 15 13)

/-- Whether the text holds a prefix that waits on a token, and one that posts it. -/
def waitedOn (hs : List (Nat × Dealt)) (t : Nat) : Bool := hs.any (fun h => (prefixWaits h.2.pfx).contains t)
def postedTo (hs : List (Nat × Dealt)) (t : Nat) : Bool := hs.any (fun h => prefixPost h.2.pfx == some t)

/-- Whether an instruction's prefix waits on a token or posts it. -/
def Dealt.tagged (d : Dealt) (t : Nat) : Bool := (prefixWaits d.pfx).contains t || prefixPost d.pfx == some t

/-- Both ends of an edge entry name instructions of the text (R107): W one that waits on its token and P one that posts it, one of them at least by its prefix. Of a
token that no prefix waits on, or none posts, the end that has none names one of the other kind (DEDUCED, log entry 27). -/
def edgeEnds (hs : List (Nat × Dealt)) (e : Nat) : Bool :=
  let t := bits e 37 32
  hs.any (fun h => ((h.1, h.2.lane) == waitEnd e || (h.1, h.2.lane) == postEnd e) && h.2.tagged t) && hs.any (fun h => (h.1, h.2.lane) == waitEnd e && (h.2.awaits t || (!waitedOn hs t && h.2.gives t)))
    && hs.any (fun h => (h.1, h.2.lane) == postEnd e && (h.2.gives t || (!postedTo hs t && h.2.awaits t)))

/-- The sync table follows the rules of R107 that verification checks. -/
def syncOk (bs : List Byte) (off n : Nat) (hs : List (Nat × Dealt)) : Bool :=
  let es := entries8 bs (off + 64) n
  (List.range 64).all (fun i => decide (fieldOf bs (off + i) 1 ≤ 63))
    && es.all (fun e => decide (e < 2 ^ 38) && edgeEnds hs e)
    && hs.all (fun h => (prefixWaits h.2.pfx).all (fun t => es.any (fun e => bits e 37 32 == t && waitEnd e == (h.1, h.2.lane)))
      && (prefixPost h.2.pfx).all (fun t => es.any (fun e => bits e 37 32 == t && postEnd e == (h.1, h.2.lane))))

/-- A relocation entry (R112): segment, kind, offset and addend. -/
structure Reloc where
  raw : Nat
  addend : Nat
  deriving DecidableEq, Repr
def Reloc.data (r : Reloc) : Bool := bit r.raw 36
def Reloc.kind (r : Reloc) : Nat := bits r.raw 35 32
def Reloc.off (r : Reloc) : Nat := r.raw % 2 ^ 32
def Reloc.size (r : Reloc) : Nat := if r.kind = 2 then 8 else 4

/-- The relocations of an image. -/
def relocsOf (bs : List Byte) (off n : Nat) : List Reloc := (List.range n).map (fun i => { raw := fieldOf bs (off + 16 * i) 8, addend := fieldOf bs (off + 16 * i + 8) 8 })

/-- A relocation entry follows R112. -/
def Reloc.ok (r : Reloc) (textn datab : Nat) (handler : Bool) (hs : List (Nat × Dealt)) : Bool :=
  decide (r.raw < 2 ^ 37) && decide (r.kind ≤ 2) && decide (r.off + r.size ≤ (if r.data then datab else 32 * textn))
    && !(r.data && handler && decide (r.off < 16))
    && (r.data || (r.kind != 2 && r.off % 4 == 0
      && hs.any (fun h => h.1 == r.off / 32 && h.2.lane + 1 == r.off % 32 / 4 && h.2.eng == 1 && (h.2.op == 0x29 || h.2.op == 0x2A) && h.2.lanes.length == 2)))

/-- No two relocation fields overlap (R112). -/
def relocsApart (rs : List Reloc) : Bool :=
  match rs with
  | [] => true
  | r :: t => t.all (fun q => r.data != q.data || decide (r.off + r.size ≤ q.off ∨ q.off + q.size ≤ r.off)) && relocsApart t

/-- The bytes that DIGEST covers (R106): relocation fields read as zero. -/
def digestBytes (bs : List Byte) (textoff dataoff : Nat) (rs : List Reloc) : List Byte :=
  let z := rs.foldl (fun b r =>
    let o := (if r.data then dataoff else textoff) + r.off
    b.take o ++ List.replicate r.size 0 ++ b.drop (o + r.size)) bs
  z.take 0x60 ++ z.drop 0x80

/-- The handler word's HL and HMASK, when the data segment begins with one (16 R390). -/
def handlerOf (bs : List Byte) (dataoff datab : Nat) : Option (Nat × Nat) :=
  if 16 ≤ datab ∧ fieldOf bs dataoff 4 = 0x4C444E48 then some (fieldOf bs (dataoff + 4) 2, fieldOf bs (dataoff + 6) 2) else none

/-- HMASK has a bit set other than bits 1, 3, 4 and 9. -/
def hmaskBad (m : Nat) : Bool := (List.range 16).any (fun i => bit m i && !(i == 1 || i == 3 || i == 4 || i == 9))

/-- The byte offset in the text of a relocated continuation lane, and the value that it takes (R112). -/
def Reloc.apply (r : Reloc) (db : Nat) : Nat × Nat :=
  let v := (db + r.addend) % 2 ^ 64
  (r.off, if r.kind = 0 then v % 2 ^ 32 else v / 2 ^ 32)

/-- Everything that verification checks, in its order (05 R115), with the header offset that each failure reports. -/
def imageChecks (bs : List Byte) (seq : Bool) : List Check :=
  let textoff := fieldOf bs 0x08 4
  let textn := fieldOf bs 0x0C 4
  let ls := linesOf (bs.drop textoff) textn
  let hs := headsOf ls
  let loopn := fieldOf bs 0x14 4
  let loops := entries8 bs (fieldOf bs 0x10 4) loopn
  let fmtn := fieldOf bs 0x1C 4
  let fmtsel := fieldOf bs 0x50 1
  let nargs := fieldOf bs 0x51 1
  let argreg := (List.range 4).map (fun i => fieldOf bs (0x52 + i) 1)
  let caskn := fieldOf bs 0x34 4
  let cask := fieldOf bs (fieldOf bs 0x30 4) 8
  let dataoff := fieldOf bs 0x48 4
  let datab := fieldOf bs 0x4C 4
  let handler := handlerOf bs dataoff datab
  let rs := relocsOf bs (fieldOf bs 0x38 4) (fieldOf bs 0x3C 4)
  [(!loopsOk loops, 0x10),
    (decide (7 < fmtsel) || (fmtn == 0 && fmtsel != 0), 0x50),
    (decide (4 < nargs), 0x51),
    ((argreg.take nargs).any (fun r => r == 0 || decide (63 < r)) || (argreg.drop nargs).any (fun r => r != 0), 0x52),
    ((entries8 bs (fieldOf bs 0x18 4) fmtn).any (fun e => decide (2 ^ 40 ≤ e) || bit e 15), 0x18),
    (!syncOk bs (fieldOf bs 0x20 4) (fieldOf bs 0x24 4) hs, 0x20),
    (!ringsOk (entries8 bs (fieldOf bs 0x28 4) (fieldOf bs 0x2C 4)), 0x28),
    (caskn != 0 && (decide (2 ^ 48 ≤ cask) || decide (cask % 65536 < 1 ∨ 4096 < cask % 65536) || bits cask 47 16 == 0 || bits cask 47 16 % 64 != 0), 0x30),
    ((match handler with
      | some (hl, hm) => decide (textn ≤ hl) || lineClass (ls.getD hl []) == 0 || fieldOf bs (dataoff + 8) 8 != 0 || hmaskBad hm
      | none => false), 0x48),
    (rs.any (fun r => !r.ok textn datab handler.isSome hs) || !relocsApart rs, 0x38),
    (sha256 (digestBytes bs textoff dataoff rs) != (bs.drop 0x60).take 32, 0x60)]
    ++ (((List.range textn).zip ls).map (fun p => (checkLine false p.2 != none, 32 * p.1)))
    ++ (if seq then ((List.range textn).zip ls).map (fun p => (checkLine true p.2 != none, 32 * p.1)) else [])
    ++ [((argreg.take nargs).any (fun r => loops.any (fun e => (loopOf e).kind != 0 && (loopOf e).reg == r)), 0x52),
      (fmtn != 0 && decide (loopn ≤ fmtsel), 0x50)]

/-- The verified image at `addr`: what members use of it. -/
def kernelOf (bs : List Byte) (addr : Nat) : Kernel :=
  let dataoff := fieldOf bs 0x48 4
  let caskn := fieldOf bs 0x34 4
  let cask := fieldOf bs (fieldOf bs 0x30 4) 8
  let handler := handlerOf bs dataoff (fieldOf bs 0x4C 4)
  { image := addr, digest := fieldOf bs 0x60 32, textoff := fieldOf bs 0x08 4, textn := fieldOf bs 0x0C 4
    loops := (entries8 bs (fieldOf bs 0x10 4) (fieldOf bs 0x14 4)).map loopOf
    fmts := (entries8 bs (fieldOf bs 0x18 4) (fieldOf bs 0x1C 4)).map fmtOf, fmtsel := fieldOf bs 0x50 1
    rings := (entries8 bs (fieldOf bs 0x28 4) (fieldOf bs 0x2C 4)).foldl (fun t e => tset t (ringOf e).1 (ringOf e).2) []
    caskn := caskn, nlayers := if caskn = 0 then 0 else cask % 65536, bankb := if caskn = 0 then 0 else bits cask 47 16
    args := (List.range (fieldOf bs 0x51 1)).map (fun i => fieldOf bs (0x52 + i) 1)
    init := (List.range 64).map (fun i => fieldOf bs (fieldOf bs 0x20 4 + i) 1)
    hl := handler.map (fun h => h.1), hmask := (handler.map (fun h => h.2)).getD 0
    relocs := ((relocsOf bs (fieldOf bs 0x38 4) (fieldOf bs 0x3C 4)).filter (fun r => !r.data)).map (fun r => r.apply (addr + dataoff)) }

/-- The lines of a core's copy of the text: the text in memory, with the SEG 0 relocations applied (04 R112, 05 R117). -/
def textLines (k : Kernel) (bs : List Byte) : Tab (List Lane) :=
  let ls := (List.range k.textn).zip (linesOf bs k.textn)
  k.relocs.foldl (fun t r =>
    match tget t (r.1 / 32) with
    | some l => tset t (r.1 / 32) (l.set (r.1 % 32 / 4) (BitVec.ofNat 32 r.2))
    | none => t) ls

end Sys2Proof.Machine
end

