-- ==== Sys2Proof/Machine/Queue.lean ====
section
/-! DEFINITION. Queues (15): their registers and states (R356 to R359), acceptance (R360, R361, R363), REWIND (R370), the dispatcher's choice (R366) and
the watchdog (R371). -/

namespace Sys2Proof.Machine

/-- The host reaches the control block of queue `q`: one of the 1,024 (00 R2, R356). -/
def State.hostQueue (s : State) (q : Nat) : Bool := s.hostKeyed && decide (q < 1024)

/-- COMMIT write (R359), to the queue's page in BAR2. -/
def execCommitWrite (q v : Nat) (s : State) : Out :=
  if s.hostUp = false ∨ 1024 ≤ q then .next s else
  let Q := s.queue q
  let w := v % 2 ^ 32
  if Q.state = .disabled then .next s
  else if 2 ^ 31 ≤ countSub w Q.commit ∨ Q.size < countSub w Q.released then .next (s.queueFault q 0xA3)
  else .next (s.modQueue q (fun x => { x with commit := w, state := if x.state = .idle ∧ w ≠ x.accept then .active else x.state }))

/-- QCFG write (R358): taken only while the queue is DISABLED. -/
def execQcfgWrite (q v : Nat) (s : State) : Out :=
  if s.hostQueue q = false then .next s else
  if (s.queue q).state ≠ .disabled then .next s
  else .next (s.modQueue q (fun x => { x with
    wdog := max 1 (bits v 55 32), jsz := min 10 (bits v 31 28), sz := min 10 (bits v 27 24), prio := bits v 18 16, ctx := bits v 15 8 }))

/-- QCTL ENABLE (R359): ignored while no supervisor context exists. -/
def execQctlEnable (q : Nat) (s : State) : Out :=
  if s.hostQueue q = false then .next s else
  if (s.queue q).state ≠ .disabled ∨ s.supervisor.isNone then .next s
  else .next (s.modQueue q (fun x => { x with
    state := .idle, rep := 0, commit := 0, jread := 0, accept := 0, released := 0, jwr := 0, cmds := [], replaying := 0, halted := false, dog := 0 }))

/-- QCTL PAUSE (R359). -/
def execQctlPause (q : Nat) (s : State) : Out :=
  if s.hostQueue q = false then .next s else
  match (s.queue q).state with
  | .idle => .next (s.modQueue q (fun x => { x with state := .paused })).noteCandidates
  | .active => .next (s.modQueue q (fun x => { x with state := .paused })).noteCandidates
  | _ => .next s

/-- Releases the FAULTED commands of a queue that leaves FAULTED (R364). -/
def Queue.releaseFaulted (q : Queue) : Queue :=
  { q with cmds := tmap (fun _ (e : Cmd) => if e.state = .faulted then { e with rel := true } else e) q.cmds }

/-- QCTL RESUME (R359): starts go on. -/
def execQctlResume (q : Nat) (s : State) : Out :=
  if s.hostQueue q = false then .next s else
  match (s.queue q).state with
  | .paused => .next ((s.modQueue q (fun x => { x.releaseFaulted with state := .active })).settleQueue q).noteCandidates
  | .faulted => .next ((s.modQueue q (fun x => { x.releaseFaulted with state := .active })).settleQueue q).noteCandidates
  | _ => .next s

/-- The groups of a queue's LAUNCHes that have not started end with nothing done. -/
def State.abandon (s : State) (q : Nat) : State :=
  s.groups.foldl (fun s g =>
    let e := tgetD (s.queue q).cmds g.2.jidx {}
    if g.2.queue = q ∧ g.2.started = false ∧ e.state = .chosen then ({ s with groups := tdel s.groups g.1 }).kernelIdle g.2.ctx g.2.kern else s) s

/-- The accepted commands that have not started are discarded (R359, R369). -/
def State.discardCmds (s : State) (q : Nat) : State := (s.abandon q).modQueue q Queue.discard

/-- QCTL RESET (R359): ignored while RUN = 1. -/
def execQctlReset (q : Nat) (s : State) : Out :=
  if s.hostQueue q = false then .next s else
  if (s.queue q).state = .disabled ∨ (s.queue q).run = true then .next s
  else .next ((s.discardCmds q).modQueue q (fun x => { x with state := .disabled, halted := false }))

/-- The command whose journal entry has number `seq` and stands in the journal. -/
def Queue.named (q : Queue) (seq : Nat) : Option (Nat × Cmd) :=
  q.cmds.find? (fun p => p.1 % 2 ^ 32 == seq % 2 ^ 32 && decide (q.jwr < p.1 + q.jsize + 1))

/-- QCTL REWIND (R359, R370): ignored for an entry whose slot lies below RELEASED. -/
def execQctlRewind (q seq : Nat) (s : State) : Out :=
  if s.hostQueue q = false then .next s else
  let Q := s.queue q
  if (Q.state ≠ .paused ∧ Q.state ≠ .faulted) ∨ Q.run = true then .next s
  else
    match Q.named seq with
    | none => .next s
    | some (_, e) =>
      if 2 ^ 31 ≤ countSub e.slot Q.released then .next s
      else
        .next ((s.discardCmds q).modQueue q (fun x => { x with
          accept := e.slot, replayAt := e.slot
          replaying := if e.slot = x.accept ∧ x.replaying = 0 then 0
            else if x.replaying = 0 ∨ countSub x.accept (x.replaying - 1) < 2 ^ 31 then x.accept + 1 else x.replaying })).noteCandidates

-- Acceptance (R360, R361, R363).

/-- The fields of a command by KIND: first byte, number of bytes, and one past the largest value. -/
def cmdFields (k : Nat) : List (Nat × Nat × Nat) :=
  let w := 2 ^ 64
  match k with
  | 0 => []
  | 1 => [(8, 8, w), (16, 8, w), (24, 8, w), (32, 8, w), (40, 8, w), (48, 1, 8), (49, 1, 256), (50, 1, 2), (56, 8, 1)]
  | 2 => [(8, 8, w), (16, 8, w), (24, 8, w), (32, 8, w), (40, 8, w), (48, 1, 8), (49, 1, 256), (50, 1, 2), (56, 8, w)]
  | 3 => [(8, 8, w), (16, 8, w), (24, 8, 2 ^ 36 + 1)]
  | 4 => [(8, 8, w), (16, 8, 2 ^ 36 + 1), (24, 8, w)]
  | 5 => [(8, 1, 256)]
  | 6 => [(8, 1, 256), (9, 1, 2)]
  | 7 => [(8, 4, 2 ^ 31), (12, 4, 2 ^ 32), (16, 1, 4), (18, 2, 65536), (20, 2, 65536)]
  | 8 => [(8, 8, w)]
  | 9 => [(8, 1, 65), (9, 1, 17), (10, 1, 256), (12, 2, 65536), (14, 2, 2048), (16, 8, w), (24, 8, w)]
  | _ => [(8, 1, 9), (9, 1, 3), (16, 8, w), (24, 8, w), (32, 8, w)]

/-- The further limits of R361 on a command of a queue with `size` slots. -/
def cmdLimits (bs : List Byte) (size : Nat) : Bool :=
  let f := fieldOf bs
  let ovl := bit (f 1 1) 0
  match f 0 1 with
  | 3 => f 8 8 % 64 == 0 && f 16 8 % 64 == 0 && f 24 8 % 64 == 0
  | 4 => f 8 8 % 8 == 0 && f 16 8 % 8 == 0
  | 7 => bits (f 8 4) 21 20 == 0 && f 8 4 % 4 == 0 && decide (1 ≤ f 20 2 ∧ f 20 2 ≤ size - 1) && !ovl
  | 8 => f 8 8 % 8 == 0
  | 9 => decide (4 ≤ f 9 1) && f 16 8 % 64 == 0 && f 24 8 % 8 == 0 && !ovl
  | 10 => [(2, 0), (3, 0), (4, 1), (4, 2), (5, 0), (6, 0), (7, 0), (8, 1)].contains (f 8 1, f 9 1) && f 32 8 % 8 == 0
  | _ => true

/-- A command that is not CMD_INVALID (R360, R361, R363). -/
def cmdOk (bs : List Byte) (size : Nat) : Bool :=
  let k := fieldOf bs 0 1
  let fs := cmdFields k
  decide (k ≤ 10) && decide (fieldOf bs 1 1 < 4) && fieldOf bs 2 2 == 0
    && fs.all (fun p => decide (fieldOf bs p.1 p.2.1 < p.2.2))
    && ((List.range 64).all (fun i => decide (i < 8) || fs.any (fun p => decide (p.1 ≤ i ∧ i < p.1 + p.2.1)) || fieldOf bs i 1 == 0))
    && cmdLimits bs size

/-- Whether the journal has a free entry (R369): the entry that the next one replaces is final. -/
def Queue.journalFree (q : Queue) : Bool :=
  decide (countSub q.jwr q.jread < q.jsize)
    && (match if q.jsize ≤ q.jwr then tget q.cmds (q.jwr - q.jsize) else none with
      | some e => e.isOver
      | none => true)

/-- Whether the dispatcher accepts the queue's next command (R363): no COND before it is undecided. -/
def Queue.accepts (q : Queue) : Bool :=
  (q.state == .idle || q.state == .active || q.state == .paused) && !q.halted && q.accept != q.commit && decide (countSub q.commit q.accept < 2 ^ 31)
    && q.journalFree && q.cmds.all (fun p => p.2.kind != 7 || p.2.isOver)

/-- The commands that the device still needs: those whose entries stand in the journal, and those that are not released. -/
def Queue.prune (q : Queue) : Queue :=
  { q with cmds := q.cmds.filter (fun p => decide (q.jwr < p.1 + q.jsize) || decide (countSub p.2.slot q.released < 2 ^ 31)) }

/-- The replay after a REWIND has accepted its next command, and ends with the one before the old ACCEPT; a pass that a COND's re-arm has accepted again is none of
it (R370). -/
def Queue.replayed (q : Queue) : Queue :=
  let n := (q.replayAt + 1) % 2 ^ 32
  { q with replayAt := n, replaying := if n = q.replaying - 1 then 0 else q.replaying }

/-- ACCEPT_COMMAND (R363): reads, checks and journals the command at ACCEPT. -/
def execAcceptCommand (q : Nat) (s : State) : Out :=
  let Q := s.queue q
  if Q.accepts = false ∨ s.queuesWait = true ∨ 1024 ≤ q then .next s
  else
    let (r, s1) := s.readArea partyDispatcher Q.ctx (Q.qbase + 64 * (Q.accept % Q.size)) 64 .read
    let bs := match r with
      | .ok b => b
      | .error _ => List.replicate 64 0
    let n := Q.jwr
    let replay := Q.replaying ≠ 0 ∧ Q.accept = Q.replayAt
    let e : Cmd := { slot := Q.accept, bytes := bs, replay := decide replay, tacc := s.ptc, tstart := s.ptc }
    let s2 := s1.modQueue q (fun x =>
      let y := (if replay then x.replayed else x)
      let y := { y with jwr := x.jwr + 1, accept := (x.accept + 1) % 2 ^ 32 }.prune
      { y with cmds := tset y.cmds n e })
    match r with
    | .error t => .next (s2.finalize q n true t.cause 0)
    | .ok _ => if cmdOk bs Q.size then .next (s2.journal q n).noteCandidates else .next (s2.finalize q n true 0xA2 0)

-- The dispatcher's choice (R366).

/-- Candidates: queue, entry number and command. -/
def State.candidates (s : State) : List (Nat × Nat × Cmd) :=
  s.queues.filterMap (fun p => (s.candidate p.1).map (fun c => (p.1, c.1, c.2)))

/-- The largest element of a list of numbers. -/
def maxOf (l : List Nat) : Nat := l.foldl max 0

/-- The next context of the round robin: the one last served while its QUOTA lasts, else the next in ascending order. -/
def nextContext (cs : List Nat) (last used quota : Nat) : Nat :=
  if cs.contains last ∧ used < quota then last
  else
    match cs.filter (fun c => decide (last < c)) with
    | c :: _ => c
    | [] => cs.headD 0

/-- The contexts of candidates, ascending. -/
def contextsOf (s : State) (l : List (Nat × Nat × Cmd)) : List Nat := (List.range 256).filter (fun x => l.any (fun c => (s.queue c.1).ctx == x))

/-- The candidate that became one earliest; ties go to the lower queue. -/
def earliest (l : List (Nat × Nat × Cmd)) : Option (Nat × Nat × Cmd) :=
  l.foldl (fun b c => match b with
    | none => some c
    | some d => if c.2.2.age < d.2.2.age then some c else some d) none

/-- What the dispatcher chooses (R366). -/
def State.choice (s : State) : Option (Nat × Nat × Cmd × Nat × Nat) :=
  let l := s.candidates
  let p := maxOf (l.map (fun c => (s.queue c.1).prio))
  let l1 := l.filter (fun c => (s.queue c.1).prio == p)
  let last := tgetD s.disp.lastCtx p 256
  let used := tgetD s.disp.used p 0
  let x := nextContext (contextsOf s l1) last used (s.ctx last).quota
  (earliest (l1.filter (fun c => (s.queue c.1).ctx == x))).map (fun c => (c.1, c.2.1, c.2.2, x, if x = last ∧ used < (s.ctx last).quota then used + 1 else 1))

/-- DISPATCHER_CHOICE (R366): one candidate is chosen; its own row starts it. -/
def execDispatcherChoice (s : State) : Out :=
  let s1 := s.noteCandidates
  match s1.choice with
  | none => .next s1
  | some (q, n, _, x, used) =>
    let p := (s1.queue q).prio
    let s2 := s1.modCmd q n (fun e => { e with state := .chosen })
    .next ({ s2 with disp := { s2.disp with lastCtx := tset s2.disp.lastCtx p x, used := tset s2.disp.used p used } } : State).noteCandidates

-- The watchdog (R371).

/-- Whether a queue's watchdog runs: a command is STARTED and not final, or one that could start otherwise cannot: a LAUNCH that lacks quarters or a kernel-table
entry, but no LAUNCH.AT before its AT. -/
def State.dogRuns (s : State) (q : Nat) : Bool :=
  let Q := s.queue q
  Q.state != .disabled && (Q.cmds.any (fun p => p.2.runs)
    || (s.mayStart q && Q.cmds.any (fun p => p.2.stuck && p.2.state == .chosen && !(p.2.kind == 2 && decide (s.ptc < p.2.f 56 8)))))

/-- What a queue's watchdog counts of the `n` nanoseconds that have just passed: those in which it ran, so of a LAUNCH.AT that lacks room only the time since its
AT. -/
def State.dogNs (s : State) (q n : Nat) : Nat :=
  let Q := s.queue q
  let since := fun (e : Cmd) => if e.kind = 2 then min n (s.ptc - e.f 56 8) else n
  if s.dogRuns q = false then 0
  else if Q.cmds.any (fun p => p.2.runs) then n
  else (Q.cmds.filter (fun p => p.2.stuck && p.2.state == .chosen)).foldl (fun k p => max k (since p.2)) 0

/-- The watchdogs that run count the nanoseconds that pass. -/
def State.dogsRun (s : State) (n : Nat) : State :=
  { s with queues := tmap (fun q (x : Queue) => { x with dog := x.dog + s.dogNs q n }) s.queues }

/-- WATCHDOG (R371): a running context is pre-empted, and once it has stopped every STARTED command becomes FAULTED with the queue, and the context is marked
faulted; of a context that does not run, or the supervisor, the commands become FAULTED at once. -/
def execWatchdog (q : Nat) (s : State) : Out :=
  let Q := s.queue q
  let x := Q.ctx
  if s.dogRuns q = false ∨ Q.dog < 1000 * Q.wdog then .next s
  else if (s.ctx x).kind = 0 ∧ ((s.ctx x).state = .running ∨ (s.ctx x).stop.isSome = true) then .next (s.beginStop x { dogs := [q] })
  else
    let s1 := s.dogBites q
    .next (if (s.ctx x).kind = 0 then s1.faultCtx x 0xB0 else s1)

end Sys2Proof.Machine
end

