-- ==== Sys2Proof/Machine/Launch.lean ====
section
/-! DEFINITION. Launching a kernel (05 R114 to R119, 06 R153 to R158, 15 R362, 16 R377): the kernel table, placement, loading the text, and the start of
the members. -/

namespace Sys2Proof.Machine

/-- The kernel-table entry of a context with an image address and DIGEST (05 R114). -/
def State.kernelAt (s : State) (x image digest : Nat) : Option (Nat × KernEnt) :=
  (s.ctx x).kerns.find? (fun p => p.2.kern.image == image && p.2.kern.digest == digest)

/-- What the lookup of a LAUNCH's image gives: an entry, a verified kernel that has none yet, or the cause and INFO detail of a fault. -/
inductive Found where
  | entry (k : Nat) (kern : Kernel)
  | fresh (kern : Kernel)
  | fail (cause info : Nat)
  deriving DecidableEq, Repr

/-- Looks up the image of a LAUNCH, or verifies it (05 R114, R115). -/
def State.findKernel (s : State) (x image : Nat) : Found × State :=
  match s.readArea partyDispatcher x image 0x80 .read with
  | (.error t, s1) => (.fail t.cause 0, s1)
  | (.ok h, s1) =>
    match s1.kernelAt x image (fieldOf h 0x60 32) with
    | some (k, e) => (.entry k e.kern, s1)
    | none =>
      -- lines stand at multiples of 32 bytes (03 R63, 04 R500; DEDUCED, log entry 27)
      match firstFail (headerChecks h ++ [((image + fieldOf h 0x08 4) % 32 != 0, 0x08)]) with
      | some o => (.fail 0xA0 o, s1)
      | none =>
        match s1.readArea partyDispatcher x image (imageEnd h) .read with
        | (.error t, s2) => (.fail t.cause 0, s2)
        | (.ok bs, s2) =>
          match firstFail (imageChecks bs ((s.ctx x).kind == 1)) with
          | some o => (.fail 0xA0 o, s2)
          | none => (.fresh (kernelOf bs image), s2)

/-- The product of the COUNTs of the levels of a kind: 1 CORES, 2 DIES (06 R153). -/
def Kernel.extent (k : Kernel) (kind : Nat) : Nat := k.loops.foldl (fun n l => if l.kind = kind then n * l.count else n) 1

/-- The coordinates of a rank's member by level, 0 for TEMPORAL ones (06 R154): the levels of each kind are the digits of its index. -/
def coordsOf (ls : List LoopEnt) (d c : Nat) : List Nat :=
  match ls with
  | [] => []
  | l :: r =>
    let rest := fun (kind : Nat) => r.foldl (fun n x => if x.kind = kind then n * x.count else n) 1
    (if l.kind = 2 then d / rest 2 % l.count else if l.kind = 1 then c / rest 1 % l.count else 0) :: coordsOf r d c

/-- Quarter `q` of the die at offset `o` lies in the partition of context `x` (16 R376). -/
def State.inPart (s : State) (x o q : Nat) : Bool := let c := s.ctx x; decide (q < 4 ∧ c.sq ≤ 4 * o + q ∧ 4 * o + q < c.sq + c.nq)

/-- A quarter is held by a group while a member of it there has not retired (06 R155, R158). -/
def Group.holdsQuarter (G : Group) (o q : Nat) : Bool :=
  decide (G.anchor ≤ o ∧ o < G.anchor + G.d)
    && G.alive.any (fun r => decide (r / G.c = o - G.anchor) && G.quarters.getD (o - G.anchor) 0 + r % G.c / 16 == q)

/-- The starting quarters at which `n` consecutive quarters of the die at offset `o` satisfy `p`. -/
def runsOf (n : Nat) (p : Nat → Bool) : List Nat := (List.range 4).filter (fun q => (List.range n).all (fun i => p (q + i)))

/-- The reservation that a chosen LAUNCH of a queue has on its partition until it forms, 0 for none (15 R366). -/
def Queue.reservation (q : Queue) : Nat := q.cmds.foldl (fun n e => if e.2.state = .chosen then max n e.2.reserved else n) 0

/-- Whether a LAUNCH of another queue reserves the partition against a LAUNCH of queue `q`: one of higher PRIO, or one of the same PRIO that reserved it
earlier (15 R366). -/
def State.reservedBy (s : State) (x q : Nat) : Bool :=
  let Q := s.queue q
  s.queues.any (fun p => p.1 != q && p.2.ctx == x && p.2.reservation != 0
    && (decide (Q.prio < p.2.prio) || (Q.prio == p.2.prio && (Q.reservation == 0 || decide (p.2.reservation < Q.reservation)))))

/-- Where a LAUNCH's group goes: starting quarters by die, or a fault, or nowhere yet. -/
inductive Spot where
  | at_ (quarters : List Nat)
  | bad
  | none
  deriving DecidableEq, Repr

/-- Placement (06 R155, R156). -/
def State.placeTenant (s : State) (x q a d c : Nat) : Spot :=
  let n := cdiv c 16
  let os := (List.range d).map (fun i => a + i)
  if 8 < d ∨ 64 < c then .bad
  else if os.any (fun o => decide (8 ≤ o) || (List.range 4).all (fun k => !s.inPart x o k) || (runsOf n (s.inPart x o)).isEmpty) then .bad
  else
    let free := fun (o k : Nat) => s.inPart x o k && (s.groupsOf x).all (fun g => !g.2.holdsQuarter o k)
    let at_ := os.map (fun o => (runsOf n (free o)).head?)
    if s.reservedBy x q ∨ at_.any (fun v => v.isNone) = true then .none else .at_ (at_.map (fun v => v.getD 0))

/-- Placement on sequencers (16 R377). -/
def State.placeSup (s : State) (x a d : Nat) (k : Kernel) : Spot :=
  if 8 < d ∨ k.loops.any (fun l => l.kind == 1) = true then .bad
  else if (List.range d).all (fun i => (s.groupsOf x).all (fun g => g.2.alive.all (fun r => s.memberCore g.2 r != 512 + (a + i) % 8))) then .at_ []
  else .none

/-- The kernel-table entry to use for a new kernel (05 R114, R116): an unused number, or that of the least recently used entry in VERIFIED or
RESIDENT; `none` when all 64 are in use. -/
def State.freeKernel (s : State) (x : Nat) : Option Nat :=
  let t := (s.ctx x).kerns
  match (List.range 64).find? (fun k => (tget t k).isNone) with
  | some k => some k
  | none =>
    ((t.filter (fun p => p.2.state == .verified || p.2.state == .resident)).foldl (fun (b : Option (Nat × KernEnt)) p => match b with
      | some q => if p.2.last < q.2.last then some p else some q
      | none => some p) none).map (fun p => p.1)

/-- The entries of a table once the image at the address of `kern` has another DIGEST (05 R118): those in use retire when their groups end, the others at once. -/
def supersede (t : Tab KernEnt) (kern : Kernel) : Tab KernEnt :=
  let same := fun (e : KernEnt) => e.kern.image == kern.image && e.kern.digest != kern.digest
  (t.filter (fun p => !(same p.2 && (p.2.state == .verified || p.2.state == .resident)))).map (fun p => (p.1, if same p.2 then { p.2 with old := true } else p.2))

/-- An entry takes a kernel; no core holds text under that number any longer. -/
def State.enterKernel (s : State) (x k : Nat) (kern : Kernel) : State :=
  let s1 : State := { s with cores := tmap (fun _ (y : Core) => if y.text = (x + 1, k) then { y with text := (0, 0) } else y) s.cores }
  s1.modCtx x (fun c => { c with kerns := tset (supersede c.kerns kern) k { kern := kern, last := s.ptc } })

/-- The LAUNCH stays ready (06 R156); its queue's watchdog runs meanwhile (15 R371). -/
def State.launchWaits (s : State) (q n : Nat) (reserve : Bool) : State :=
  let k := s.nextId + 1
  ({ s with nextId := k } : State).modCmd q n (fun e => { e with stuck := true, reserved := if reserve ∧ e.reserved = 0 then k else e.reserved })

/-- The group forms and loads (06 R158). -/
def State.formGroup (s : State) (q n k d c : Nat) (quarters : List Nat) (e : Cmd) : State :=
  let x := (s.queue q).ctx
  let g := s.nextId
  let G : Group := {
    ctx := x, queue := q, jidx := n, kern := k, d := d, c := c, anchor := e.f 48 1 % 8, quarters := quarters, alive := List.range (d * c)
    state := .loading, at? := if e.kind = 2 then some (e.f 56 8) else none, args := (List.range 4).map (fun i => e.f (16 + 8 * i) 8) }
  let s1 := ({ s with nextId := g + 1, groups := tset s.groups g G } : State).modCmd q n (fun e => { e with stuck := false, reserved := 0, group := g + 1 })
  s1.modCtx x (fun c => { c with kerns := match tget c.kerns k with
    | some y => tset c.kerns k { y with state := .active, last := s.ptc }
    | none => c.kerns })

/-- Places a LAUNCH whose kernel is `kern`, with its entry if it has one. While all 64 entries of the kernel table are in use, one that fits stays ready (05 R114): it
forms no group and holds no quarters meanwhile (DESIGN CHOICE, log entry 56; R158 would let it form). -/
def State.place (s : State) (q n : Nat) (e : Cmd) (x : Nat) (kern : Kernel) (k : Option Nat) : State :=
  let d := kern.extent 2
  let c := kern.extent 1
  match (if (s.ctx x).kind = 1 then s.placeSup x (e.f 48 1 % 8) d kern else s.placeTenant x q (e.f 48 1 % 8) d c) with
  | .bad => s.finalize q n true 0xA1 0
  | .none => s.launchWaits q n ((s.ctx x).kind == 0)
  | .at_ qs =>
    match k with
    | some k => s.formGroup q n k d c qs e
    | none =>
      match s.freeKernel x with
      | none => s.launchWaits q n false
      | some k => (s.enterKernel x k kern).formGroup q n k d c qs e

/-- The dispatcher considers the LAUNCH `e`, entry `n` of queue `q` (06 R156): the image is looked up or verified first, then the shape is decided, then the quarters
(DESIGN CHOICE, log entry 27). -/
def State.tryLaunch (s : State) (q n : Nat) (e : Cmd) : State :=
  let x := (s.queue q).ctx
  let (r, s1) := s.findKernel x (e.f 8 8)
  match r with
  | .fail cause info => s1.finalize q n true cause info
  | .entry k kern => s1.place q n e x kern (some k)
  | .fresh kern => s1.place q n e x kern none

/-- The chosen LAUNCH of queue `q` that has formed no group and satisfies `p`, while the queue is ACTIVE and its context runs (15 R359, R364). -/
def State.launchOf (s : State) (q : Nat) (p : Cmd → Bool) : Option (Nat × Cmd) :=
  if s.mayStart q then (s.queue q).cmds.find? (fun c => c.2.state == .chosen && c.2.group == 0 && p c.2) else none

/-- LAUNCH (15 R362). -/
def execLaunch (q : Nat) (s : State) : Out :=
  match s.launchOf q (fun e => e.kind == 1 && !e.stuck) with
  | some (n, e) => .next (s.tryLaunch q n e)
  | none => .next s

/-- LAUNCH.AT (15 R362). -/
def execLaunchAt (q : Nat) (s : State) : Out :=
  match s.launchOf q (fun e => e.kind == 2 && !e.stuck) with
  | some (n, e) => .next (s.tryLaunch q n e)
  | none => .next s

/-- LAUNCH_RETRY (06 R156): a LAUNCH that lacked quarters or a kernel-table entry is tried again. -/
def execLaunchRetry (q : Nat) (s : State) : Out :=
  match s.launchOf q (fun e => e.stuck) with
  | some (n, e) => .next (s.tryLaunch q n e)
  | none => .next s

-- Loading and starting (05 R117, R119; 06 R158).

/-- A member as it starts (05 R119). -/
def startMember (g r : Nat) (G : Group) (k : Kernel) : Member :=
  let cs := coordsOf k.loops (r / G.c) (r % G.c)
  let byLevel := (List.range k.loops.length).zip (k.loops.zip cs)
  let s0 := (k.args.zip G.args).foldl (fun t p => tset t p.1 (BitVec.ofNat 64 p.2)) ([] : Tab Word)
  { group := g, rank := r, kern := k
    s := byLevel.foldl (fun t p => if p.2.1.kind = 0 ∨ p.2.1.reg = 0 then t else tset t p.2.1.reg (BitVec.ofNat 64 p.2.2)) s0
    lc := byLevel.foldl (fun t p => if p.2.1.kind = 0 then t else tset t p.1 (BitVec.ofNat 64 p.2.2)) []
    k := ((List.range 64).zip k.init).foldl (fun t p => if p.2 = 0 then t else tset t p.1 p.2) []
    rings := k.rings }

/-- The members of a group start (06 R158): the journal entry becomes STARTED first (15 R364), with LATE when the AT has passed (R362); when it cannot be written
they do not start. -/
def State.startGroup (s : State) (g : Nat) (late : Bool) : State :=
  let G := s.group g
  let k := (tgetD (s.ctx G.ctx).kerns G.kern {}).kern
  match (s.modCmd G.queue G.jidx (fun e => { e with late := late })).start G.queue G.jidx with
  | (false, s1) => s1
  | (true, s1) =>
    G.alive.foldl (fun s r =>
      let c := s.memberCore G r
      s.modCore c (fun y => { y with
        seat := { y.seat with present := true, mem := startMember g r G k, copies := [] }
        status := if isSeq c then .running else y.status, ctx := if isSeq c then G.ctx else y.ctx
        cfg := if isSeq c then (s.ctx G.ctx).cfg else y.cfg, port := none, bwait := none }))
      (s1.modGroup g (fun x => { x with state := .running, prev := .running, started := true, late := late
                                        hold := if (s.ctx G.ctx).kind = 1 then bit (s.ctx G.ctx).cfg 2 else s.holdOf G }))

/-- Every member's core has loaded: a group that ran before goes on as it stood, or ends when none of its members runs (16 R388); another starts while its queue is
ACTIVE (15 R359, R364), a LAUNCH.AT not before its AT. -/
def State.groupReady (s : State) (g : Nat) : State :=
  let G := s.group g
  if G.started then (s.modGroup g (fun x => { x with state := x.prev })).checkGroup g
  else if s.mayStart G.queue = false then s
  else
    match G.at? with
    | none => s.startGroup g false
    | some t => if s.ptc < t then s else s.startGroup g (decide (t < s.ptc))

/-- The group's LAUNCH faults before, or while, its text loads: no member of it starts (12 R306). -/
def State.loadFails (s : State) (g cause : Nat) : State :=
  let G := s.group g
  (if G.started then G.alive.foldl (fun s r => s.retireRank g r) s else s).endGroup g true cause

/-- Whether every core of a group that has not started has loaded its text. -/
def Group.waits (G : Group) : Bool := G.state == .loading && !G.started && G.alive.all (fun i => G.loaded.contains i)

/-- TEXT_LOAD_COMPLETE (06 R158): the core of rank `r` of group `g` has loaded the kernel's text; one that still holds it does not load again
(05 R116). After the last the members start; those of a LAUNCH whose queue was not ACTIVE then start in a later turn of this row. -/
def execTextLoadComplete (g r : Nat) (s : State) : Out :=
  match tget s.groups g with
  | none => .next s
  | some G =>
    if (s.ctx G.ctx).state ≠ .running then .next s
    else if G.waits ∧ G.at?.isNone then .next (s.groupReady g)
    else if G.state ≠ .loading ∨ G.alive.contains r = false ∨ G.loaded.contains r = true then .next s
    else
      let c := s.memberCore G r
      let k := (tgetD (s.ctx G.ctx).kerns G.kern {}).kern
      let fin := fun (s : State) =>
        let s1 := s.modGroup g (fun x => { x with loaded := addOnce x.loaded r })
        if (s1.group g).alive.all (fun i => (s1.group g).loaded.contains i) then s1.groupReady g else s1
      if (s.core c).text = (G.ctx + 1, G.kern) then .next (fin s)
      else
        match s.readArea c G.ctx (k.image + k.textoff) (32 * k.textn) .text with
        | (.error t, s1) => .next (s1.loadFails g t.cause)
        | (.ok bs, s1) =>
          .next (fin ((s1.modCore c (fun y => { y with lines := textLines k bs, text := (G.ctx + 1, G.kern) })).refreshKernels))

/-- LAUNCH_AT_START (15 R362): the members of a LAUNCH.AT start together at its AT, or, when its queue was not ACTIVE then, later, with LATE. -/
def execLaunchAtStart (g : Nat) (s : State) : Out :=
  match tget s.groups g with
  | none => .next s
  | some G =>
    match G.at? with
    | some t =>
      if G.waits ∧ t ≤ s.ptc ∧ s.mayStart G.queue = true then .next (s.startGroup g (decide (t + 100 < s.ptc)))
      else .next s
    | none => .next s

end Sys2Proof.Machine
end

