-- ==== Sys2Proof/Machine/Command.lean ====
section
/-! DEFINITION. The effects of queue commands other than LAUNCH (15 R362, R368). -/

namespace Sys2Proof.Machine

/-- The command of kind `k` that the row acts on: the chosen one, while it may start, else the oldest STARTED one that `p` names, which runs on whatever the queue's
state (15 R359). -/
def State.cmdNext (s : State) (q k : Nat) (p : Cmd → Bool) : Option (Nat × Cmd) :=
  let cs := (s.queue q).cmds.filter (fun c => c.2.kind == k)
  match (if s.mayStart q then cs.find? (fun c => c.2.state == .chosen) else none) with
  | some c => some c
  | none => cs.find? (fun c => c.2.runs && p c.2)

/-- The command that the row acts on, STARTED (15 R364): a chosen one starts while its queue is ACTIVE and its context runs; one that has started
goes on. -/
def State.began (s : State) (q k : Nat) (p : Cmd → Bool) : Option (Nat × Cmd × State) :=
  match s.cmdNext q k p with
  | none => none
  | some (n, e) =>
    if e.runs then some (n, e, s)
    else
      match s.start q n with
      | (true, s1) => some (n, tgetD (s1.queue q).cmds n {}, s1)
      | (false, _) => none

/-- The state when no command goes on: as it is, or after a STARTED entry that could not be written (R357). -/
def State.unbegun (s : State) (q k : Nat) (p : Cmd → Bool) : State :=
  match s.cmdNext q k p with
  | some (n, e) => if e.runs then s else (s.start q n).2
  | none => s

/-- The context of a queue. -/
def State.qctx (s : State) (q : Nat) : Nat := (s.queue q).ctx

/-- CMD_NOP (15 R361). -/
def execCmdNop (q : Nat) (s : State) : Out :=
  match s.began q 0 (fun _ => true) with
  | none => .next (s.unbegun q 0 (fun _ => true))
  | some (n, _, s1) => .next (s1.finalize q n false 0 0)

/-- A range of a command that passes 2^56 or meets a slab address (12 R319). -/
def rangeBad (a n : Nat) : Bool := decide (0 < n ∧ 255 * 2 ^ 48 < a + n)

/-- One sector of a COPY (09 R232). -/
def State.copySector (s : State) (x dst src : Nat) : Except Trap Unit × State :=
  match s.translate partyDispatcher x src .read false with
  | (.error t, s1) => (.error t, s1)
  | (.ok l, s1) =>
    match s1.translate partyDispatcher x dst .write false with
    | (.error t, s2) => (.error t, s2)
    | (.ok m, s2) =>
      let r := s2.memRead partyDispatcher x 0 0 (fun s l n => s.homeRead 0 l n) [(src, l, 64)]
      (.ok (), (r.2.noteUnreachable partyDispatcher x dst m).systemWrite partyDispatcher m r.1)

/-- Up to `n` sectors of the COPY that is entry `i` of queue `q`; the bytes before a page that fails stay copied. -/
def State.copySteps (s : State) (q i n : Nat) : State :=
  match n with
  | 0 => s
  | k + 1 =>
    let e := tgetD (s.queue q).cmds i {}
    if e.f 24 8 ≤ e.done then s.finalize q i false 0 0
    else
      match s.copySector (s.qctx q) (e.f 8 8 + e.done) (e.f 16 8 + e.done) with
      | (.error t, s1) => s1.finalize q i true t.cause 0
      | (.ok _, s1) =>
        let s2 := s1.modCmd q i (fun e => { e with done := e.done + 64 })
        if e.f 24 8 ≤ e.done + 64 then s2.finalize q i false 0 0 else s2.copySteps q i k

/-- COPY (15 R362): up to `m` + 1 sectors move in this turn. -/
def execCopy (q m : Nat) (s : State) : Out :=
  match s.began q 3 (fun _ => true) with
  | none => .next (s.unbegun q 3 (fun _ => true))
  | some (n, e, s1) =>
    if rangeBad (e.f 8 8) (e.f 24 8) ∨ rangeBad (e.f 16 8) (e.f 24 8) = true then .next (s1.finalize q n true 0x10 0)
    else .next (s1.copySteps q n (m + 1))

/-- Up to `n` words of the FILL that is entry `i` of queue `q`. -/
def State.fillSteps (s : State) (q i n : Nat) : State :=
  match n with
  | 0 => s
  | k + 1 =>
    let e := tgetD (s.queue q).cmds i {}
    if e.f 16 8 ≤ e.done then s.finalize q i false 0 0
    else
      let va := e.f 8 8 + e.done
      match s.translate partyDispatcher (s.qctx q) va .write false with
      | (.error t, s1) => s1.finalize q i true t.cause 0
      | (.ok l, s1) =>
        let s2 := ((s1.noteUnreachable partyDispatcher (s.qctx q) va l).systemWrite partyDispatcher l (leBytes 8 (e.f 24 8))).modCmd q i (fun e => { e with done := e.done + 8 })
        if e.f 16 8 ≤ e.done + 8 then s2.finalize q i false 0 0 else s2.fillSteps q i k

/-- FILL (15 R362): up to `m` + 1 words are written in this turn. -/
def execFill (q m : Nat) (s : State) : Out :=
  match s.began q 4 (fun _ => true) with
  | none => .next (s.unbegun q 4 (fun _ => true))
  | some (n, e, s1) =>
    if rangeBad (e.f 8 8) (e.f 16 8) then .next (s1.finalize q n true 0x10 0) else .next (s1.fillSteps q n (m + 1))

/-- SIGNAL (15 R362). -/
def execSignal (q : Nat) (s : State) : Out :=
  match s.began q 5 (fun _ => true) with
  | none => .next (s.unbegun q 5 (fun _ => true))
  | some (n, e, s1) =>
    match s1.anonArrive (s1.qctx q) (e.f 8 1) with
    | (some cause, s2) => .next (s2.finalize q n true cause 0)
    | (none, s2) => .next (s2.finalize q n false 0 0)

/-- A WAIT ends with the word it returns (15 R362): with STRICT = 1 a status other than OK is WAIT_FAILED. -/
def State.waitEnds (s : State) (q n : Nat) (e : Cmd) (w : Nat) : State :=
  if bit (e.f 9 1) 0 ∧ w % 256 ≠ 0 then s.finalize q n true 0xA4 w else s.finalize q n false 0 (w % 2 ^ 32)

/-- A WAIT presents its request at the pair (14 R350, R355). -/
def State.waitPresents (s : State) (q n : Nat) (e : Cmd) : State :=
  let x := s.qctx q
  let (b, s1) := s.mapEntry 0 x (e.f 8 1)
  match s1.barrierPlace partyDispatcher x b with
  | .error cause => s1.finalize q n true cause 0
  | .ok (w, off) =>
    let (v, _, s2) := s1.pairRead partyDispatcher x w off
    if bState v = 0 ∨ 4 < bState v then s2.finalize q n true 0x83 0
    else
      match bwaitOutcome v (bGen v) false with
      | some (some (st, cause)) => s2.waitEnds q n e (bwaitWord (bGen v) st cause)
      | _ => s2.modCmd q n (fun e => { e with reg := some (w, off, bGen v), got := none })

/-- WAIT (15 R362): presents its request, or returns the outcome of which the port notified it; one that waits at a port stays STARTED. -/
def execWait (q : Nat) (s : State) : Out :=
  match s.began q 6 (fun e => e.reg.isNone || e.got.isSome) with
  | none => .next (s.unbegun q 6 (fun e => e.reg.isNone || e.got.isSome))
  | some (n, e, s1) =>
    match e.got with
    | some w => .next (s1.waitEnds q n e w)
    | none => if (s1.ctx (s1.qctx q)).state = .running then .next (s1.waitPresents q n e) else .next s1

/-- The comparison of a COND (15 R361, R368): EQ, NE, LTN, GEN. -/
def wordHolds (op w v : Nat) : Bool :=
  match op with
  | 0 => w == v
  | 1 => w != v
  | 2 => decide (w < v)
  | _ => decide (v ≤ w)

/-- COND (15 R368). -/
def execCond (q : Nat) (s : State) : Out :=
  match s.began q 7 (fun _ => true) with
  | none => .next (s.unbegun q 7 (fun _ => true))
  | some (n, e, s1) =>
    match s1.accPlace 0 (s1.qctx q) (e.f 8 4) with
    | .error cause => .next (s1.finalize q n true cause 0)
    | .ok (c, off) =>
      let (w, s2) := s1.portReadAt partyDispatcher (s1.qctx q) (e.f 8 4) c off 4
      let Q := s2.queue q
      if wordHolds (bits (e.f 16 1) 1 0) w (e.f 12 4) ∧ (e.f 18 2 = 0 ∨ Q.rep < e.f 18 2) then
        let s3 := (s2.modCmd q n (fun e => { e with rearm := true })).modQueue q (fun x => { x with
          rep := if x.rep < 65535 then x.rep + 1 else Config.counterPast x.rep % 65536, accept := countSub e.slot (e.f 20 2) })
        .next (s3.finalize q n false 0 w)
      else .next ((s2.modQueue q (fun x => { x with rep := 0 })).finalize q n false 0 w)

/-- TIMESTAMP (15 R362). -/
def execTimestamp (q : Nat) (s : State) : Out :=
  match s.began q 8 (fun _ => true) with
  | none => .next (s.unbegun q 8 (fun _ => true))
  | some (n, e, s1) =>
    match s1.translate partyDispatcher (s1.qctx q) (e.f 8 8) .write false with
    | (.error t, s2) => .next (s2.finalize q n true t.cause 0)
    | (.ok l, s2) =>
      .next (((s2.noteUnreachable partyDispatcher (s1.qctx q) (e.f 8 8) l).systemWrite partyDispatcher l (leBytes 8 e.tstart)).finalize q n false 0 0)

/-- HOSTRING (15 R362, R372); a slab address faults it ADDR_RANGE (12 R319). -/
def execHostring (q : Nat) (s : State) : Out :=
  match s.began q 9 (fun _ => true) with
  | none => .next (s.unbegun q 9 (fun _ => true))
  | some (n, e, s1) =>
    let x := s1.qctx q
    let r := e.f 8 1
    if rangeBad (e.f 16 8) (64 * 2 ^ e.f 9 1) ∨ rangeBad (e.f 24 8) 8 = true then .next (s1.finalize q n true 0x10 0)
    else if r < 64 ∧ s1.hringsTo x r ≠ [] then .next (s1.finalize q n true 0x17 0)
    else
      let h := tgetD (s1.ctx x).hrread r 0
      let ring : HRing := { on := true, base := e.f 16 8, log2n := e.f 9 1, cnt := e.f 10 1, time := e.f 12 2, vec := e.f 14 2, waddr := e.f 24 8, widx := h }
      let s2 := s1.modCtx x (fun c => { c with rings := tset c.rings r ring })
      .next ((s2.ringWrite x (e.f 24 8) (leBytes 8 h)).finalize q n false 0 0)

/-- The KE operation that a CASKOP names (15 R361, 11 R278). -/
def State.caskOf (s : State) (k : KeBy) (op fn a b : Nat) : KeOut :=
  match op, fn with
  | 2, _ => s.keCask k .ksnap a 0
  | 3, _ => s.keFork k .kfork a b
  | 4, 1 => s.keCask k .krollP a 0
  | 4, _ => s.keFork k .krollS a b
  | 5, _ => s.keCask k .kcommit a b
  | 6, _ => s.keCask k .kattach a 0
  | 7, _ => s.keCask k .kdetach a 0
  | _, _ => s.keCask k .kstat a 0

/-- CASKOP (15 R362): a RADDR that fails translation faults it with no effect. -/
def execCaskop (q : Nat) (s : State) : Out :=
  match s.began q 10 (fun _ => true) with
  | none => .next (s.unbegun q 10 (fun _ => true))
  | some (n, e, s1) =>
    let p := s1.translate partyDispatcher (s1.qctx q) (e.f 32 8) .write false
    match p.2.caskOf { party := partyDispatcher, ctx := s1.qctx q } (e.f 8 1) (e.f 9 1) (e.f 16 8) (e.f 24 8) with
    | .trap t s2 => .next (s2.finalize q n true t.cause 0)
    | .wait s2 => .next s2
    | .fin r refused s3 _ =>
      match p.1 with
      | .error t => .next (p.2.finalize q n true t.cause 0)
      | .ok l =>
        let s4 := (s3.noteUnreachable partyDispatcher (s1.qctx q) (e.f 32 8) l).systemWrite partyDispatcher l (leBytes 8 r)
        .next (if refused then s4.finalize q n true 0x80 0 else s4.finalize q n false 0 0)

end Sys2Proof.Machine
end

