-- ==== Sys2Proof/Machine/Flags.lean ====
section
/-! DEFINITION. Numeric exceptions (02 R40, R41): the flags of FPMODE and the precise trap. -/

namespace Sys2Proof.Machine

/-- The exceptions that trap: those raised and enabled in FPMODE.EN, while CTXCFG.PRECISE = 1 (R41). -/
def enabledExc (precise : Bool) (fpmode e : Nat) : Nat := if precise then e &&& bits fpmode 21 16 else 0

/-- The cause of the first exception of a set in the order invalid, divzero, overflow, underflow, saturate, inexact (R41, 16 R398). -/
def excCause (x : Nat) : Nat :=
  if bit x 0 then 0x30 else if bit x 1 then 0x31 else if bit x 2 then 0x32 else if bit x 3 then 0x33 else if bit x 5 then 0x35 else 0x34

/-- Ends an instruction that raised the exceptions `e` (R41): it traps with nothing written, or `f` writes and FLAGS takes `e`. -/
def State.numeric (s : State) (e : Nat) (f : State → State) : Out :=
  let x := enabledExc (s.precise s.cur.core) s.cm.fpmode e
  if x ≠ 0 then .next (s.finish (.trapIssued { cause := excCause x, exc := e }))
  else ((f s).modCm (fun m => m.setFlags e)).done

end Sys2Proof.Machine
end

