-- ==== Sys2Proof/Machine/Operands.lean ====
section
/-! DEFINITION. The operand forms of the vector engine (07 R165 to R172, R191): element types and their units, tiles, taps and masks,
the shape, writing results, and tile images. -/

namespace Sys2Proof.Machine

/-- Classes of the types of 03 R81: floating, integer (signed or not, width), complex (format of a part), block (element width). -/
inductive Ty where
  | flt (f : Fmt)
  | int (sgn : Bool) (w : Nat)
  | cpx (f : Fmt)
  | blk (w : Nat)
  deriving DecidableEq, Repr

/-- The type of a code (R81). -/
def tyOf (n : Nat) : Ty :=
  match n with
  | 0 => .flt fmtF32 | 1 => .flt fmtBf16 | 2 => .flt fmtF16 | 3 => .flt fmtE4m3 | 4 => .flt fmtE5m2
  | 5 => .int true 32 | 6 => .int true 16 | 7 => .int true 8 | 8 => .int true 4
  | 9 => .int false 32 | 10 => .int false 16 | 11 => .int false 8 | 12 => .int false 4
  | 13 => .cpx fmtF32 | 14 => .cpx fmtBf16
  | 15 => .blk 3 | 16 => .blk 5 | _ => .blk 8

/-- Bits of a unit: an element, a complex value, or a block (R165). -/
def Ty.uw (t : Ty) : Nat :=
  match t with
  | .flt f => f.w | .int _ w => w | .cpx f => 2 * f.w | .blk w => 16 + 16 * w

/-- Columns of a unit. -/
def Ty.step (t : Ty) : Nat :=
  match t with
  | .flt _ => 1 | .int _ _ => 1 | .cpx _ => 2 | .blk _ => 16

def Ty.isF (t : Ty) : Bool := match t with
  | .flt _ => true | _ => false
def Ty.isI (t : Ty) : Bool := match t with
  | .int _ _ => true | _ => false
def Ty.isC (t : Ty) : Bool := match t with
  | .cpx _ => true | _ => false
def Ty.isB (t : Ty) : Bool := match t with
  | .blk _ => true | _ => false

/-- Bits of one element or part: units of a complex type hold two. -/
def Ty.ew (t : Ty) : Nat :=
  match t with
  | .cpx f => f.w | t => t.uw

/-- The part's type of a complex type, else the type itself. -/
def Ty.part (t : Ty) : Ty := match t with
  | .cpx f => .flt f | t => t

/-- Rows, columns and type of VSHAPE (R166). -/
def Member.rows (m : Member) : Nat := bits m.vshape 24 20 + 1
def Member.cols (m : Member) : Nat := bits m.vshape 19 15 + 1
def Member.ty (m : Member) : Ty := tyOf (bits m.vshape 14 10)

/-- The physical tile of a tile name under the rotation base stamped on the instruction (05 R139, R170). -/
def physTile (rrb n : Nat) : Nat := if n < 16 then n else 16 + (n + rrb) % 16

/-- The physical tile that the executing instruction's field names. -/
def State.tileNo (s : State) (n : Nat) : Nat := physTile s.stamp.rrb n

/-- Storage row `i` of physical tile `t`, and of tap `n`. -/
def Member.tileRow (m : Member) (t i : Nat) : Nat := (tgetD m.tiles (32 * t + i) 0).toNat
def Member.tapRow (m : Member) (n i : Nat) : Nat := (tgetD m.taps (32 * n + i) 0).toNat

/-- The bits of mask `n`; m0 reads as all ones (R168). -/
def Member.mask (m : Member) (n : Nat) : Nat := if n = 0 then 2 ^ 1024 - 1 else (tgetD m.masks n 0).toNat

/-- The storage row `i` of a source operand, a tile or, with `tap` non-zero, a tap, as what an error may strike. -/
def State.rowOf (s : State) (tile tap i : Nat) : Strike := if tap = 0 then .row 0 (s.tileNo tile) i else .row 1 tap i

/-- Row `i` of a source operand of an instruction (R169); a row struck by an error reads as zero (R196). -/
def State.src (s : State) (tile tap i : Nat) : Nat :=
  if s.hit (s.rowOf tile tap i) then 0 else if tap = 0 then s.cm.tileRow (s.tileNo tile) i else s.cm.tapRow tap i

/-- Mask `n` as the instruction reads it (R196); m0 stands in no storage and reads as all ones. -/
def State.maskIn (s : State) (n : Nat) : Nat := if n ≠ 0 ∧ s.hit (.row 2 n 0) = true then 0 else s.cm.mask n

/-- The error records of the storage rows among `f` that errors strike (R196, 25 R497 CODE 7): PAYLOAD is the row's offset in the tile file, taps or
masks, WHICH the number of the physical tile, the tap or the mask (DESIGN CHOICE, log entry 23). -/
def State.noteRows (s : State) (f : List Strike) : State :=
  s.ue.foldl (fun s k => match k with
    | .row kind n i => if f.contains k then s.errorRecord s.cur.core (s.ctxOn s.cur.core) 7 (if kind = 2 then 128 * n else 4096 * n + 128 * i) 0 n else s
    | _ => s) s

/-- The error records of an instruction that reads rows 0 to `r − 1` of its sources `ops` and the masks `mks`. -/
def State.noteRead (s : State) (r : Nat) (ops : List (Nat × Nat)) (mks : List Nat) : State :=
  s.noteRows (ops.flatMap (fun p => (List.range r).map (s.rowOf p.1 p.2)) ++ (mks.filter (· != 0)).map (fun n => .row 2 n 0))

/-- The error records of an instruction that reads the rows of the shape. -/
def State.noteRow (s : State) (ops : List (Nat × Nat)) (mks : List Nat) : State := s.noteRead s.cm.rows ops mks

/-- Unit `u` of width `w` of a storage row. -/
def unitAt (row w u : Nat) : Nat := row / 2 ^ (u * w) % 2 ^ w

/-- A storage row with unit `u` of width `w` replaced. -/
def putUnit (row w u v : Nat) : Nat := setBits row ((u + 1) * w - 1) (u * w) v

/-- A written unit: row, number of the unit in it, value. -/
structure Cell where
  i : Nat
  u : Nat
  v : Nat
  deriving DecidableEq, Repr

/-- Writes units of width `w` into physical tile `t`. -/
def Member.putCells (m : Member) (t w : Nat) (cs : List Cell) : Member :=
  { m with tiles := cs.foldl (fun ts c => tset ts (32 * t + c.i) (BitVec.ofNat 1024 (putUnit (tgetD ts (32 * t + c.i) 0).toNat w c.u c.v))) m.tiles }

/-- Writes mask `n`; m0 is never written. -/
def Member.putMask (m : Member) (n v : Nat) : Member := { m with masks := tset m.masks n (BitVec.ofNat 1024 v) }

/-- The units in the shape for a type: row and unit number, row by row. -/
def Member.units (m : Member) (t : Ty) : List (Nat × Nat) :=
  (List.range m.rows).flatMap (fun i => (List.range (m.cols / t.step)).map (fun u => (i, u)))

/-- The mask bit that governs unit `u` of row `i` (R168). -/
def maskBit (mask : Nat) (t : Ty) (i u : Nat) : Bool := bit mask (32 * i + u * t.step)

/-- Results of a list of units: the cells and the exceptions together. -/
def evalUnits (us : List (Nat × Nat)) (f : Nat → Nat → Nat × Nat) : List Cell × Nat :=
  us.foldr (fun p r => let x := f p.1 p.2; ({ i := p.1, u := p.2, v := x.1 } :: r.1, x.2 ||| r.2)) ([], 0)

/-- Ends an instruction that writes cells of width `w` to tile field `d`, having raised the exceptions `e`. -/
def State.writeTile (s : State) (d w : Nat) (r : List Cell × Nat) (ops : List (Nat × Nat)) (mk : Nat) : Out :=
  (s.noteRow ops [mk]).numeric r.2 (fun s => s.modCm (fun m => m.putCells (s.tileNo d) w r.1))

/-- ElementWise (R172) over the units of type `t` that the write mask admits: `f i u` gives a unit's result and exceptions. -/
def State.elementWise (s : State) (t : Ty) (d mk : Nat) (ops : List (Nat × Nat)) (f : Nat → Nat → Nat × Nat) : Out :=
  let mask := s.maskIn mk
  s.writeTile d t.uw (evalUnits ((s.cm.units t).filter (fun p => maskBit mask t p.1 p.2)) f) ops mk

/-- A unary element-wise instruction on raw units of the shape's type. -/
def State.ew1 (s : State) (ok : Ty → Bool) (d a p mk : Nat) (f : Ty → Nat → Nat × Nat) : Out :=
  let t := s.cm.ty
  if ok t = false then s.trap 0x40
  else s.elementWise t d mk [(a, p)] (fun i u => f t (unitAt (s.src a p i) t.uw u))

/-- A binary one. -/
def State.ew2 (s : State) (ok : Ty → Bool) (d a b p q mk : Nat) (f : Ty → Nat → Nat → Nat × Nat) : Out :=
  let t := s.cm.ty
  if ok t = false then s.trap 0x40
  else s.elementWise t d mk [(a, p), (b, q)] (fun i u => f t (unitAt (s.src a p i) t.uw u) (unitAt (s.src b q i) t.uw u))

/-- A ternary one. -/
def State.ew3 (s : State) (ok : Ty → Bool) (d a b c p q r mk : Nat) (f : Ty → Nat → Nat → Nat → Nat × Nat) : Out :=
  let t := s.cm.ty
  if ok t = false then s.trap 0x40
  else s.elementWise t d mk [(a, p), (b, q), (c, r)]
    (fun i u => f t (unitAt (s.src a p i) t.uw u) (unitAt (s.src b q i) t.uw u) (unitAt (s.src c r i) t.uw u))

/-- The value of a floating element after the input flush (R173 step 1). -/
def Fmt.val (f : Fmt) (fz : Bool) (x : Nat) : FV := (f.decode x).flush fz

/-- The bits of a floating element after the input flush. -/
def Fmt.flushBits (f : Fmt) (fz : Bool) (x : Nat) : Nat :=
  match f.decode x with
  | .fin y => if fz ∧ y.m ≠ 0 ∧ y.lead < -126 then f.zeroBits y.neg else x
  | _ => x

/-- The two parts of a complex unit (02 R36), and a unit from its parts. -/
def cRe (f : Fmt) (x : Nat) : Nat := x % 2 ^ f.w
def cIm (f : Fmt) (x : Nat) : Nat := x / 2 ^ f.w % 2 ^ f.w
def cPair (f : Fmt) (r i : Nat × Nat) : Nat × Nat := (r.1 + i.1 * 2 ^ f.w, r.2 ||| i.2)

/-- Applies a function of elements to each part of a complex unit, or to the unit itself. -/
def parts1 (t : Ty) (f : Nat → Nat × Nat) (a : Nat) : Nat × Nat :=
  match t with
  | .cpx g => cPair g (f (cRe g a)) (f (cIm g a))
  | _ => f a
def parts2 (t : Ty) (f : Nat → Nat → Nat × Nat) (a b : Nat) : Nat × Nat :=
  match t with
  | .cpx g => cPair g (f (cRe g a) (cRe g b)) (f (cIm g a) (cIm g b))
  | _ => f a b

-- Tile images (R191).

/-- Bits of an image row and its bytes P. -/
def rowBits (t : Ty) (cols : Nat) : Nat := cols / t.step * t.uw
def imageP (t : Ty) (cols : Nat) : Nat := 64 * cdiv (rowBits t cols) 512

/-- Bytes of the image of the member's shape. -/
def Member.imageBytes (m : Member) : Nat := m.rows * imageP m.ty m.cols

/-- The units of an image held as bytes that a mask admits. -/
def Member.imageCells (m : Member) (mask : Nat) (bs : List Byte) : List Cell :=
  let P := imageP m.ty m.cols
  (List.range m.rows).flatMap (fun i =>
    let row := leNat ((bs.drop (i * P)).take P)
    ((List.range (m.cols / m.ty.step)).filter (fun u => maskBit mask m.ty i u)).map (fun u => { i := i, u := u, v := unitAt row m.ty.uw u }))

/-- An image row: the admitted units of a storage row over a row of other contents. -/
def Member.imageRow (m : Member) (mask i row old : Nat) : Nat :=
  (List.range (m.cols / m.ty.step)).foldl (fun r u =>
    if maskBit mask m.ty i u then putUnit r m.ty.uw u (unitAt row m.ty.uw u) else r) old

end Sys2Proof.Machine
end

