-- ==== Sys2Proof/Machine/VecArith.lean ====
section
/-! DEFINITION. Element-wise arithmetic, comparison, selection and complex arithmetic of the vector engine (07 R173 to R183). -/

namespace Sys2Proof.Machine

/-- The rounding of the executing member's FPMODE (02 R40). -/
def State.md (s : State) : RMode := modeOf s.cm.fpmode

/-- The exact sum of terms under the exceptions already raised, rounded to a format (R173). -/
def sumTo (f : Fmt) (md : RMode) (l : List (FV × Nat)) : Nat × Nat :=
  let e := l.foldl (fun e p => e ||| p.2) 0
  let x := sumFV (md.rm == 2) (l.map (·.1))
  let y := f.roundV x.1 md
  (y.1, e ||| x.2 ||| y.2)

/-- A value term and a product term. -/
def term (v : FV) : FV × Nat := (v, 0)
def negTerm (p : FV × Nat) : FV × Nat := (p.1.negate, p.2)

def okF (t : Ty) : Bool := t.isF
def okI (t : Ty) : Bool := t.isI
def okC (t : Ty) : Bool := t.isC
def okFI (t : Ty) : Bool := t.isF || t.isI
def okFIC (t : Ty) : Bool := t.isF || t.isI || t.isC
def okAny (_ : Ty) : Bool := true

/-- The value of an integer element (R174). -/
def intVal (sgn : Bool) (w x : Nat) : Int := if sgn then toSigned w x else (x : Int)

/-- a + b, or a − b when `sub` (R176). -/
def addElem (md : RMode) (sub : Bool) (t : Ty) (a b : Nat) : Nat × Nat :=
  match t with
  | .int _ w => (ofSigned w (if sub then (a : Int) - b else (a : Int) + b), 0)
  | .flt f => sumTo f md [term (f.val md.fz a), term (if sub then (f.val md.fz b).negate else f.val md.fz b)]
  | .cpx f =>
    let g := fun x y => sumTo f md [term (f.val md.fz x), term (if sub then (f.val md.fz y).negate else f.val md.fz y)]
    cPair f (g (cRe f a) (cRe f b)) (g (cIm f a) (cIm f b))
  | .blk _ => (0, 0)

/-- a × b (R176). -/
def mulElem (md : RMode) (t : Ty) (a b : Nat) : Nat × Nat :=
  match t with
  | .int sgn w => (ofSigned w (intVal sgn w a * intVal sgn w b), 0)
  | .flt f =>
    let p := FV.mul (f.val md.fz a) (f.val md.fz b)
    let r := f.roundV p.1 md
    (r.1, p.2 ||| r.2)
  | _ => (0, 0)

/-- ±(a × b) ± c with one rounding (R180). -/
def fmaElem (md : RMode) (negP negC : Bool) (t : Ty) (a b c : Nat) : Nat × Nat :=
  match t with
  | .int sgn w =>
    let p := intVal sgn w a * intVal sgn w b
    (ofSigned w ((if negP then -p else p) + (if negC then -(intVal sgn w c) else intVal sgn w c)), 0)
  | .flt f =>
    let p := FV.mul (f.val md.fz a) (f.val md.fz b)
    let v := f.val md.fz c
    sumTo f md [if negP then negTerm p else p, term (if negC then v.negate else v)]
  | _ => (0, 0)

/-- VMIN or, with `gt`, VMAX of two elements (R177). -/
def pickElem (fz gt : Bool) (t : Ty) (a b : Nat) : Nat × Nat :=
  match t with
  | .int sgn w =>
    (if decide (intVal sgn w a < intVal sgn w b) = gt then b else a, 0)
  | .flt f =>
    let x := f.val fz a
    let y := f.val fz b
    if x.isNan ∧ y.isNan then (f.cnan, 0)
    else if x.isNan then (f.flushBits fz b, 0)
    else if y.isNan then (f.flushBits fz a, 0)
    else if FV.lt true x y = gt then (f.flushBits fz b, 0)
    else (f.flushBits fz a, 0)
  | _ => (0, 0)

/-- VABS (R176, R178). -/
def absElem (fz : Bool) (t : Ty) (a : Nat) : Nat × Nat :=
  match t with
  | .int sgn w => (ofSigned w (if sgn then ((toSigned w a).natAbs : Int) else (a : Int)), 0)
  | .flt f => (if (f.decode a).isNan then f.cnan else f.flushBits fz a % 2 ^ (f.w - 1), 0)
  | _ => (0, 0)

/-- A floating part negated (R178). -/
def negBits (f : Fmt) (fz : Bool) (a : Nat) : Nat :=
  if (f.decode a).isNan then f.cnan
  else
    let x := f.flushBits fz a
    if bit x (f.w - 1) then x - 2 ^ (f.w - 1) else x + 2 ^ (f.w - 1)

/-- VNEG (R176, R178). -/
def negElem (fz : Bool) (t : Ty) (a : Nat) : Nat × Nat :=
  match t with
  | .int _ w => (ofSigned w (-(a : Int)), 0)
  | .flt f => (negBits f fz a, 0)
  | .cpx f => (negBits f fz (cRe f a) + negBits f fz (cIm f a) * 2 ^ f.w, 0)
  | .blk _ => (0, 0)

/-- The shift count of an integer element (R179). -/
def shCount (w b : Nat) : Nat := b % w

/-- Saturating sum or difference (R176). -/
def satElem (sub : Bool) (t : Ty) (a b : Nat) : Nat × Nat :=
  match t with
  | .int sgn w => saturate sgn w (if sub then intVal sgn w a - intVal sgn w b else intVal sgn w a + intVal sgn w b)
  | _ => (0, 0)

/-- High half of the exact product. -/
def mulhElem (t : Ty) (a b : Nat) : Nat × Nat :=
  match t with
  | .int sgn w => (ofSigned w (intVal sgn w a * intVal sgn w b / (2 ^ w : Nat)), 0)
  | _ => (0, 0)

/-- VADD (R176). -/
def execVadd (d a b p q m : Nat) (s : State) : Out := s.ew2 okFIC d a b p q m (addElem s.md false)

/-- VSUB (R176). -/
def execVsub (d a b p q m : Nat) (s : State) : Out := s.ew2 okFIC d a b p q m (addElem s.md true)

/-- VMUL (R176). -/
def execVmul (d a b p q m : Nat) (s : State) : Out := s.ew2 okFI d a b p q m (mulElem s.md)

/-- VFMA (R180). -/
def execVfma (d a b p q m c u : Nat) (s : State) : Out := s.ew3 okFI d a b c p q u m (fmaElem s.md false false)

/-- VFMS (R180). -/
def execVfms (d a b p q m c u : Nat) (s : State) : Out := s.ew3 okFI d a b c p q u m (fmaElem s.md false true)

/-- VFNMA (R180). -/
def execVfnma (d a b p q m c u : Nat) (s : State) : Out := s.ew3 okFI d a b c p q u m (fmaElem s.md true false)

/-- VMIN (R177). -/
def execVmin (d a b p q m : Nat) (s : State) : Out := s.ew2 okFI d a b p q m (pickElem s.md.fz false)

/-- VMAX (R177). -/
def execVmax (d a b p q m : Nat) (s : State) : Out := s.ew2 okFI d a b p q m (pickElem s.md.fz true)

/-- VCLAMP (R177): VMIN(VMAX(a, b), c). -/
def execVclamp (d a b p q m c u : Nat) (s : State) : Out :=
  s.ew3 okFI d a b c p q u m (fun t a b c => pickElem s.md.fz false t (pickElem s.md.fz true t a b).1 c)

/-- VABS (R178). -/
def execVabs (d a p m : Nat) (s : State) : Out := s.ew1 okFI d a p m (absElem s.md.fz)

/-- VNEG (R178). -/
def execVneg (d a p m : Nat) (s : State) : Out := s.ew1 okFIC d a p m (negElem s.md.fz)

/-- VAND (R176): raw bits. -/
def execVand (d a b p q m : Nat) (s : State) : Out := s.ew2 okFIC d a b p q m (fun _ a b => (a &&& b, 0))

/-- VOR (R176). -/
def execVor (d a b p q m : Nat) (s : State) : Out := s.ew2 okFIC d a b p q m (fun _ a b => (a ||| b, 0))

/-- VXOR (R176). -/
def execVxor (d a b p q m : Nat) (s : State) : Out := s.ew2 okFIC d a b p q m (fun _ a b => (a ^^^ b, 0))

/-- VNOT (R176). -/
def execVnot (d a p m : Nat) (s : State) : Out := s.ew1 okFIC d a p m (fun t a => (2 ^ t.uw - 1 - a, 0))

/-- VSHL (R179). -/
def execVshl (d a b p q m : Nat) (s : State) : Out :=
  s.ew2 okI d a b p q m (fun t a b => (a * 2 ^ shCount t.uw b % 2 ^ t.uw, 0))

/-- VSHR (R179). -/
def execVshr (d a b p q m : Nat) (s : State) : Out :=
  s.ew2 okI d a b p q m (fun t a b => (a / 2 ^ shCount t.uw b, 0))

/-- VSAR (R179): bit w − 1 is the sign for .n types as well. -/
def execVsar (d a b p q m : Nat) (s : State) : Out :=
  s.ew2 okI d a b p q m (fun t a b => (ofSigned t.uw (toSigned t.uw a / (2 ^ shCount t.uw b : Nat)), 0))

/-- VADDS (R176). -/
def execVadds (d a b p q m : Nat) (s : State) : Out := s.ew2 okI d a b p q m (satElem false)

/-- VSUBS (R176). -/
def execVsubs (d a b p q m : Nat) (s : State) : Out := s.ew2 okI d a b p q m (satElem true)

/-- VMULH (R176). -/
def execVmulh (d a b p q m : Nat) (s : State) : Out := s.ew2 okI d a b p q m mulhElem

/-- The condition of VCMP on one element (R181): 0 EQ, 1 NE, 2 LT, 3 LE, 4 GT, 5 GE, 6 UN, 7 OR. -/
def cmpElem (fz : Bool) (cc : Nat) (t : Ty) (a b : Nat) : Bool :=
  let judge := fun (lt gt : Bool) => match cc with
    | 0 => !lt && !gt | 1 => lt || gt | 2 => lt | 3 => !gt | 4 => gt | 5 => !lt | 6 => false | _ => true
  match t with
  | .int sgn w => judge (decide (intVal sgn w a < intVal sgn w b)) (decide (intVal sgn w b < intVal sgn w a))
  | .flt f =>
    let x := f.val fz a
    let y := f.val fz b
    if x.isNan ∨ y.isNan then cc == 1 || cc == 6 else judge (FV.lt false x y) (FV.lt false y x)
  | _ => false

/-- The 1,024 bits of a mask whose bit (i, j) is `f i j` in the shape and 0 elsewhere. -/
def Member.maskOf (m : Member) (f : Nat → Nat → Bool) : Nat :=
  (List.range m.rows).foldl (fun v i => (List.range m.cols).foldl (fun v j => v + b2n (f i j) * 2 ^ (32 * i + j)) v) 0

/-- VCMP (R181). -/
def execVcmp (d a b p q m cc : Nat) (s : State) : Out :=
  let t := s.cm.ty
  if okFI t = false then s.trap 0x40
  else
    let mk := s.maskIn m
    let v := s.cm.maskOf (fun i j => bit mk (32 * i + j) &&
      cmpElem s.md.fz cc t (unitAt (s.src a p i) t.uw j) (unitAt (s.src b q i) t.uw j))
    ((s.noteRow [(a, p), (b, q)] [m]).modCm (fun x => x.putMask d v)).done

/-- VSEL (R182): the mask is a selector, every position in the shape is written. -/
def execVsel (d a b p q m : Nat) (s : State) : Out :=
  let t := s.cm.ty
  if okFIC t = false then s.trap 0x40
  else
    let mk := s.maskIn m
    s.writeTile d t.uw (evalUnits (s.cm.units t) (fun i u =>
      (if maskBit mk t i u then unitAt (s.src a p i) t.uw u else unitAt (s.src b q i) t.uw u, 0))) [(a, p), (b, q)] m

/-- A complex product plus an addend (R183): `conj` conjugates b. -/
def cmulElem (md : RMode) (conj : Bool) (t : Ty) (a b : Nat) (c : Option Nat) : Nat × Nat :=
  match t with
  | .cpx f =>
    let v := fun x => f.val md.fz x
    let ar := v (cRe f a)
    let ai := v (cIm f a)
    let br := v (cRe f b)
    let bi := v (cIm f b)
    let add := fun (x : Nat → Nat) => match c with
      | some z => [term (v (x z))]
      | none => []
    let re := if conj then [FV.mul ar br, FV.mul ai bi] else [FV.mul ar br, negTerm (FV.mul ai bi)]
    let im := if conj then [FV.mul ai br, negTerm (FV.mul ar bi)] else [FV.mul ar bi, FV.mul ai br]
    cPair f (sumTo f md (re ++ add (cRe f))) (sumTo f md (im ++ add (cIm f)))
  | _ => (0, 0)

/-- VCMUL (R183). -/
def execVcmul (d a b p q m : Nat) (s : State) : Out := s.ew2 okC d a b p q m (fun t a b => cmulElem s.md false t a b none)

/-- VCMAC (R183). -/
def execVcmac (d a b p q m c u : Nat) (s : State) : Out :=
  s.ew3 okC d a b c p q u m (fun t a b c => cmulElem s.md false t a b (some c))

/-- VCMULJ (R183). -/
def execVcmulj (d a b p q m : Nat) (s : State) : Out := s.ew2 okC d a b p q m (fun t a b => cmulElem s.md true t a b none)

/-- VCMACJ (R183). -/
def execVcmacj (d a b p q m c u : Nat) (s : State) : Out :=
  s.ew3 okC d a b c p q u m (fun t a b c => cmulElem s.md true t a b (some c))

/-- VCONJ (R183). -/
def conjElem (fz : Bool) (t : Ty) (a : Nat) : Nat × Nat :=
  match t with
  | .cpx f => ((if (f.decode (cRe f a)).isNan then f.cnan else f.flushBits fz (cRe f a)) + negBits f fz (cIm f a) * 2 ^ f.w, 0)
  | _ => (0, 0)
def execVconj (d a p m : Nat) (s : State) : Out := s.ew1 okC d a p m (conjElem s.md.fz)

/-- VCABS2 (R183). -/
def cabs2Elem (md : RMode) (t : Ty) (a : Nat) : Nat × Nat :=
  match t with
  | .cpx f =>
    let r := f.val md.fz (cRe f a)
    let i := f.val md.fz (cIm f a)
    sumTo f md [FV.mul r r, FV.mul i i]
  | _ => (0, 0)
def execVcabs2 (d a p m : Nat) (s : State) : Out := s.ew1 okC d a p m (cabs2Elem s.md)

end Sys2Proof.Machine
end

