-- ==== Sys2Proof/Machine/VecConv.lean ====
section
/-! DEFINITION. Conversions of the vector engine (08 R210 to R215): VCVT, VPACK, VUNPK, VSRND and VQNT, with scales and deterministic
stochastic rounding. -/

namespace Sys2Proof.Machine

/-- The operands that a conversion reads once: rounding without DSR, DSR's rank and step when it is selected, and the scale σ (R210). -/
structure Conv where
  md : RMode
  dsr : Option (Nat × Nat) := none
  sig : Int := 0
  deriving DecidableEq, Repr

/-- Those operands of the executing instruction. -/
def State.conv (s : State) (rnd sx imm : Nat) : Conv :=
  { md := s.md, sig := toSigned 8 imm
    dsr := if rnd = 1 then some (s.cm.rank, (tgetD s.cm.x sx 0).toNat % 2 ^ 32) else none }

/-- The rounding of the element at index `i × 32 + j` of the source (02 R50, R51). -/
def Conv.at (c : Conv) (i j : Nat) : RMode :=
  match c.dsr with
  | some (rank, step) => { c.md with dsr := some (dsrHash rank step (32 * i + j)) }
  | none => c.md

/-- An element's exact value: floating or integer (R211). -/
def decodeElem (t : Ty) (x : Nat) : FV :=
  match t with
  | .flt f => f.decode x
  | .int sgn w => fvInt (intVal sgn w x)
  | _ => .fin {}

/-- A value converted to a floating or integer type (02 R47 to R49). -/
def encodeElem (t : Ty) (v : FV) (md : RMode) : Nat × Nat :=
  match t with
  | .flt f => f.roundV v md
  | .int sgn w => toIntType sgn w v md
  | _ => (0, 0)

/-- A value put into FP32 under the rounding of FPMODE, as an input scale does (R45): the value and its flags. -/
def toF32 (md : RMode) (v : FV) : FV × Nat :=
  let r := rnd32 v { md with fz := false, dsr := none }
  (f32 r.1, r.2)

/-- The conversion of one element by VCVT (R211): `out` selects an output scale, `me` is the element's rounding. -/
def cvtElem (md me : RMode) (out : Bool) (sig : Int) (st dt : Ty) (x : Nat) : Nat × Nat :=
  let v0 := decodeElem st x
  let (v1, e1) := if out then (v0, 0) else if st.isF then toF32 md (v0.scale sig) else (v0.scale sig, 0)
  let v2 := if st.isF then v1.flush md.fz else v1
  let v3 := if out then v2.scale (-sig) else v2
  let r := encodeElem dt v3 me
  (r.1, e1 ||| r.2)

/-- The checks of R210 after the pair of types: complex columns even, block columns 16 or 32. -/
def Member.convShape (m : Member) (st dt : Ty) : Bool :=
  !((st.isC || dt.isC) && m.cols % 2 == 1) && !((st.isB || dt.isB) && m.cols != 16 && m.cols != 32)

/-- The frame of a conversion's checks: TILE_TYPE, then TILE_SHAPE. -/
def State.convert (s : State) (ok : Bool) (st dt : Ty) (f : State → Out) : Out :=
  if ok = false then s.trap 0x40
  else if s.cm.convShape st dt = false then s.trap 0x41
  else f s

/-- VCVT (R211); `o` is fn[0]. -/
def execVcvt (d a o p m st dt rnd sx imm : Nat) (s : State) : Out :=
  let S := tyOf st
  let D := tyOf dt
  let k := s.conv rnd sx imm
  s.convert ((okFI S && okFI D) || (S.isC && D.isC)) S D (fun s =>
    s.elementWise D d m [(a, p)] (fun i u =>
      let one := fun (j : Nat) => cvtElem k.md (k.at i j) (o == 1) k.sig S.part D.part (unitAt (s.src a p i) S.ew j)
      match D with
      | .cpx f => cPair f (one (2 * u)) (one (2 * u + 1))
      | _ => one u))

/-- The FP32 values of block `k` of row `i` before packing, with the flags of each (R212). -/
def State.packValues (s : State) (a p i k : Nat) (S : Ty) (c : Conv) : List (FV × Nat) :=
  (List.range 16).map (fun e =>
    let r := toF32 c.md ((decodeElem S (unitAt (s.src a p i) S.ew (16 * k + e))).scale (-c.sig))
    (r.1.flush c.md.fz, r.2))

/-- Element width of a block type. -/
def Ty.bw (t : Ty) : Nat := match t with
  | .blk w => w | _ => 8

/-- A block packed from a row's elements: the block and the flags of each element. -/
def State.packBlock (s : State) (a p i k : Nat) (S D : Ty) (c : Conv) : Nat × List Nat :=
  let vs := s.packValues a p i k S c
  let r := packVBs D.bw (vs.map (·.1)) (fun e => c.at i (16 * k + e))
  (r.1, (vs.zip r.2).map (fun x => x.1.2 ||| x.2))

/-- VPACK (R212). -/
def execVpack (d a p m st dt rnd sx imm : Nat) (s : State) : Out :=
  let S := tyOf st
  let D := tyOf dt
  let c := s.conv rnd sx imm
  s.convert (S.isF && D.isB) S D (fun s =>
    s.elementWise D d m [(a, p)] (fun i k =>
      let r := s.packBlock a p i k S D c
      (r.1, r.2.foldl (fun e x => e ||| x) 0)))

/-- VUNPK (R213): a block whose mask bit at its first column is 0 writes none of its elements; where that bit is 1, the mask bits of the other positions count for
nothing (R168; DESIGN CHOICE, log entry 56, beside R210). -/
def execVunpk (d a p m st dt rnd sx imm : Nat) (s : State) : Out :=
  let S := tyOf st
  let D := tyOf dt
  let c := s.conv rnd sx imm
  s.convert (S.isB && okFI D) S D (fun s =>
    let mask := s.maskIn m
    let us := (s.cm.units D).filter (fun x => bit mask (32 * x.1 + x.2 / 16 * 16))
    s.writeTile d D.uw (evalUnits us (fun i j =>
      let v := blockElem S.bw (unitAt (s.src a p i) S.uw (j / 16)) (j % 16)
      let x := toF32 c.md (v.scale c.sig)
      let r := encodeElem D (x.1.flush c.md.fz) (c.at i j)
      (r.1, x.2 ||| r.2))) [(a, p)] m)

/-- Destination grids of VSRND (R214). -/
def okSrnd (dt : Nat) : Bool := decide (1 ≤ dt ∧ dt ≤ 4) || decide (6 ≤ dt ∧ dt ≤ 8) || decide (10 ≤ dt ∧ dt ≤ 12) || decide (15 ≤ dt)

/-- VSRND (R214): rounds to the grid of a narrower format and keeps FP32. -/
def execVsrnd (d a p m st dt rnd sx imm : Nat) (s : State) : Out :=
  let S := tyOf st
  let D := tyOf dt
  let c := s.conv rnd sx imm
  s.convert (st == 0 && okSrnd dt) S D (fun s =>
    s.elementWise (.flt fmtF32) d m [(a, p)] (fun i j =>
      let z : FV × Nat :=
        if D.isB then
          let b := s.packBlock a p i (j / 16) S D c
          (blockElem D.bw b.1 (j % 16), b.2.getD (j % 16) 0)
        else
          let r := cvtElem c.md (c.at i j) true c.sig S D (unitAt (s.src a p i) S.ew j)
          (decodeElem D r.1, r.2)
      let r := rnd32 (z.1.scale c.sig) c.md
      (r.1, z.2 ||| r.2)))

/-- VQNT (R215): the product of an element and its multiplier, converted once. -/
def execVqnt (d a b p q m st dt rnd sx imm : Nat) (s : State) : Out :=
  let S := tyOf st
  let D := tyOf dt
  let c := s.conv rnd sx imm
  s.convert (S.isF && okFI D) S D (fun s =>
    s.elementWise D d m [(a, p), (b, q)] (fun i j =>
      let x := (decodeElem S (unitAt (s.src a p i) S.ew j)).flush c.md.fz
      let y := (decodeElem S (unitAt (s.src b q i) S.ew j)).flush c.md.fz
      let z := FV.mul x y
      let r := encodeElem D (z.1.scale (-c.sig)) (c.at i j)
      (r.1, z.2 ||| r.2)))

end Sys2Proof.Machine
end

