-- ==== Sys2Proof/Machine/Matrix.lean ====
section
/-! DEFINITION. Matrix products of the matrix engine (10 R247 to R256): issue, the K-slice, co-operative blocks, retirement. -/

namespace Sys2Proof.Machine

/-- An MM, MMC or MMT with its counts (R247). -/
structure MmOp where
  trans : Bool := false
  coop : Bool := false
  qa : Nat
  qb : Nat
  md : Nat
  fi : Nat
  ta : Nat
  tb : Nat
  m : Nat
  n : Nat
  k : Nat
  acc : Nat
  r : Nat := 1
  c : Nat := 1
  deriving DecidableEq, Repr

/-- The matrix product that an instruction is. -/
def mmOp (i : Instr) : Option MmOp :=
  match i with
  | .mm qa qb md fi ta tb m n k acc => some { qa := qa, qb := qb, md := md, fi := fi, ta := ta, tb := tb, m := m + 1, n := n + 1, k := k + 1, acc := acc }
  | .mmt qa qb md fi ta tb m n k acc =>
    some { trans := true, qa := qa, qb := qb, md := md, fi := fi, ta := ta, tb := tb, m := m + 1, n := n + 1, k := k + 1, acc := acc }
  | .mmc qa qb md fi ta tb m n k acc cr cc =>
    some { coop := true, qa := qa, qb := qb, md := md, fi := fi, ta := ta, tb := tb, m := m + 1, n := n + 1, k := k + 1, acc := acc, r := cr + 1, c := cc + 1 }
  | _ => none

/-- Rows and columns of a core's share (R250). -/
def MmOp.mc (o : MmOp) : Nat := if o.coop then cdiv o.m o.r else o.m
def MmOp.nc (o : MmOp) : Nat := if o.coop then 16 * cdiv o.n (16 * o.c) else o.n

/-- The block position of a core (R254): its mesh row modulo r and column modulo c. -/
def MmOp.rho (o : MmOp) (core : Nat) : Nat := coreOnDie core / 8 % o.r
def MmOp.kap (o : MmOp) (core : Nat) : Nat := coreOnDie core % 8 % o.c

/-- The rows and the columns that a core computes. -/
def MmOp.rowsOf (o : MmOp) (core : Nat) : Nat := min o.mc (o.m - o.rho core * o.mc)
def MmOp.colsOf (o : MmOp) (core : Nat) : Nat := min o.nc (o.n - o.kap core * o.nc)

/-- The number of K-slices. -/
def MmOp.slices (o : MmOp) : Nat := cdiv o.k 16

/-- The cores of the block of a core, row by row; `none` past mesh row 7 or column 7 (R254). -/
def MmOp.block (o : MmOp) (core : Nat) : Option (List Nat) :=
  let y := coreOnDie core / 8 - o.rho core
  let x := coreOnDie core % 8 - o.kap core
  if 8 < y + o.r ∨ 8 < x + o.c then none
  else some ((List.range o.r).flatMap (fun i => (List.range o.c).map (fun j => core / 64 * 64 + 8 * (y + i) + x + j)))

/-- The core that supplies A panels to a core's row of the block, and the one that supplies B panels to its column. -/
def MmOp.supA (o : MmOp) (core : Nat) : Nat := core - o.kap core
def MmOp.supB (o : MmOp) (core : Nat) : Nat := core - 8 * o.rho core

/-- Whether a core pops qa, and whether it pops qb. -/
def MmOp.usesA (o : MmOp) (core : Nat) : Bool := o.kap core == 0
def MmOp.usesB (o : MmOp) (core : Nat) : Bool := o.rho core == 0

/-- The ME types (R248). -/
def meType (n : Nat) : Bool := decide (1 ≤ n ∧ n ≤ 4) || n == 7 || n == 8 || n == 11 || n == 12 || decide (15 ≤ n ∧ n ≤ 17)

/-- Types and input scales: the format-table entry's, or the instruction's own with scales 0 (R248). -/
def MmOp.formats (o : MmOp) (fm : Option FmtEnt) : Nat × Nat × Nat × Nat :=
  match fm with
  | some f => (f.ta, f.tb, f.sa, f.sb)
  | none => (o.ta, o.tb, 0, 0)

/-- Bytes of a row of a B panel of MMT (R249). -/
def MmOp.bRow (o : MmOp) (tb : Nat) : Nat := imageP (tyOf tb) o.n

/-- The row pitch of the result, in words (R251), of a co-operative share that of its nc (R254). -/
def MmOp.np (o : MmOp) : Nat := 16 * cdiv o.nc 16

/-- The last byte of a core's share of the result, plus one (R251). -/
def MmOp.last (o : MmOp) (core : Nat) : Nat := o.acc * 64 + ((o.rowsOf core - 1) * o.np + o.colsOf core - 1) * 4 + 4

/-- The last byte of a rectangle of `r` rows and `c` columns with pitch a multiple of 16 at `base`, plus one (R257). -/
def rectEnd (base r c : Nat) : Nat := base + ((r - 1) * (16 * cdiv c 16) + c - 1) * 4 + 4

/-- A ring's check at issue: unbound, a panel above the slot, or more slots than it has (R253 rows 4 and 5). -/
def ringCheck (r : Option Ring) (bytes slots : Nat) : Option Nat :=
  match r with
  | none => some 0x50
  | some r => if r.slotb < bytes ∨ r.n < slots then some 0x51 else none

/-- Checks 2 to 6 and 8 of R253, after the format table's. -/
def State.mmCheck (s : State) (o : MmOp) (ta tb : Nat) : Option Nat :=
  let c := s.cur.core
  let bBytes := if o.trans then 16 * o.bRow tb else 64 * o.colsOf c
  let ra := if o.usesA c then ringCheck (s.ring o.qa) (64 * o.rowsOf c) o.slices else none
  let rb := if o.usesB c then ringCheck (s.ring o.qb) bBytes o.slices else none
  if meType ta = false ∨ meType tb = false then some 0x60
  else if 128 < o.mc ∨ 160 < o.nc ∨ 8192 < o.k ∨ (o.trans ∧ 15 ≤ tb ∧ o.n % 16 ≠ 0)
      ∨ (o.usesA c = true ∧ o.usesB c = true ∧ o.qa = o.qb) then some 0x61
  else if ra = some 0x50 ∨ rb = some 0x50 then some 0x50
  else if ra.isSome ∨ rb.isSome then some 0x51
  else if 0 < o.rowsOf c ∧ 0 < o.colsOf c ∧ 0x100000 < o.last c then some 0x12
  else if o.coop then
    match o.block c with
    | none => some 0x62
    | some l => if l.all (fun k => (s.seat k).present && (s.mem k).group == s.cm.group) then none else some 0x62
  else none

/-- MM, MMC and MMT issue (R252, R253): with the format table's entry at the stamped index when fi = 1, FPMODE sampled, KSTEP busy. -/
def State.mmIssue (s : State) (o : MmOp) : Out :=
  let fm := if o.fi = 1 then s.cm.kern.fmts[s.stamp.fidx]? else none
  let (ta, tb, sa, sb) := o.formats fm
  if o.fi = 1 ∧ fm.isNone then s.trapWith { cause := 0x14, taddr := s.stamp.fidx }
  else if 18 ≤ ta ∨ 18 ≤ tb ∨ fm.any (fun f => decide (18 ≤ f.td)) = true then s.trap 0x03
  else
    match s.mmCheck o ta tb with
    | some cause => s.trap cause
    | none =>
      if s.power.gate then s.waits
      else .next (((s.modEnt (fun e => { e with opv := [s.cm.fpmode, ta, tb, sa, sb] })).modCm (fun m => { m with kstep := 0x8000 })).finish .running)

/-- MM (R252). -/
def execMm (qa qb md fi ta tb m n k acc : Nat) (s : State) : Out :=
  s.mmIssue { qa := qa, qb := qb, md := md, fi := fi, ta := ta, tb := tb, m := m + 1, n := n + 1, k := k + 1, acc := acc }

/-- MMC (R254). -/
def execMmc (qa qb md fi ta tb m n k acc cr cc : Nat) (s : State) : Out :=
  s.mmIssue { coop := true, qa := qa, qb := qb, md := md, fi := fi, ta := ta, tb := tb, m := m + 1, n := n + 1, k := k + 1, acc := acc, r := cr + 1, c := cc + 1 }

/-- MMT (R252). -/
def execMmt (qa qb md fi ta tb m n k acc : Nat) (s : State) : Out :=
  s.mmIssue { trans := true, qa := qa, qb := qb, md := md, fi := fi, ta := ta, tb := tb, m := m + 1, n := n + 1, k := k + 1, acc := acc }

/-- The scaled and flushed operand values of elements `es` of a panel row, with the flags of the scaling (02 R45, R46, R56). -/
def panelVals (t : Ty) (md : RMode) (sig : Int) (row : Nat) (es : List Nat) : List FV × Nat :=
  let raw := fun (e : Nat) => match t with
    | .blk w => blockElem w (unitAt row t.uw (e / 16)) (e % 16)
    | _ => decodeElem t (unitAt row t.uw e)
  es.foldr (fun e r =>
    let x := toF32 md ((raw e).scale sig)
    (x.1.flush md.fz :: r.1, x.2 ||| r.2)) ([], 0)

/-- The exact slice sum of two lists of operands (R56). -/
def sliceSum (as bs : List FV) : FV × Nat :=
  let ps := (as.zip bs).map (fun p => FV.mul p.1 p.2)
  let x := sumFV false (ps.map (·.1))
  (x.1, ps.foldl (fun e p => e ||| p.2) x.2)

/-- The rows of a panel of `n` rows of `b` bytes. -/
def panelRows (bs : List Byte) (b n : Nat) : List Nat := (List.range n).map (fun i => leNat ((bs.drop (i * b)).take b))

/-- The operand values of slice `sl` for a core's share, from its suppliers' panels. -/
def MmOp.operands (o : MmOp) (md : RMode) (opv : List Nat) (sl : Nat) (a b : List Byte) (core : Nat) :
    (List (List FV) × Nat) × (List (List FV) × Nat) :=
  let ta := tyOf (opv.getD 1 0)
  let tb := tyOf (opv.getD 2 0)
  let sa := toSigned 8 (opv.getD 3 0)
  let sb := toSigned 8 (opv.getD 4 0)
  let es := List.range (min o.k (16 * sl + 16) - 16 * sl)
  let gather := fun (l : List (List FV × Nat)) => (l.map (·.1), l.foldl (fun e x => e ||| x.2) 0)
  let A := gather ((panelRows a 64 (o.rowsOf core)).map (fun r => panelVals ta md sa r es))
  if o.trans then
    let rows := (panelRows b (o.bRow (opv.getD 2 0)) 16).take es.length
    let vals := rows.map (fun r => panelVals tb md sb r (List.range o.n))
    let cols := (List.range o.n).map (fun j => vals.map (fun v => v.1.getD j (.fin {})))
    (A, (cols, vals.foldl (fun e x => e ||| x.2) 0))
  else (A, gather ((panelRows b 64 (o.colsOf core)).map (fun r => panelVals tb md sb r es)))

/-- A word that a slice makes: its place in the rectangle, its new value. -/
structure MmWord where
  i : Nat
  j : Nat
  v : Nat
  deriving DecidableEq, Repr

/-- A word of accumulator SRAM that the ME or the drain path reads: +0 when an uncorrectable error strikes it (10 R245). -/
def State.accWord (s : State) (core off : Nat) : Nat := if s.accHit core off 4 then 0 else s.accNat core off 4

/-- The error records of the words at `offs` of a core that errors strike; the ME names a word of its core's SRAM by OFFSET: its address has LOC = 1. -/
def State.noteWords (s : State) (core : Nat) (offs : List Nat) : State :=
  s.ue.foldl (fun s k => match k with
    | .acc w u => if w = core ∧ offs.contains (4 * u) = true then s.errorRecord core (s.ctxOn core) 4 (4 * u / 64 * 64) (2 ^ 31 + 4 * u) 0 else s
    | _ => s) s

/-- The offsets of a core's share of the result, and whether slice `sl` reads them (R252): an add step does, and the port maximum after the last slice. -/
def MmOp.words (o : MmOp) (core : Nat) : List Nat :=
  (List.range (o.rowsOf core)).flatMap (fun i => (List.range (o.colsOf core)).map (fun j => o.acc * 64 + (i * o.np + j) * 4))
def MmOp.readsAt (o : MmOp) (sl : Nat) : Bool := if o.md = 2 then o.slices ≤ sl + 1 else o.md == 1 || sl != 0

/-- What slice `sl` computes on a core: the words and the exceptions (R252). The prior value comes from the partial array for mode 2. -/
def State.mmWords (s : State) (o : MmOp) (core sl : Nat) (opv : List Nat) (a b : List Byte) : List MmWord × Nat :=
  let md := modeOf (opv.getD 0 0)
  let rne : RMode := { md with rm := 0 }
  let (A, B) := o.operands md opv sl a b core
  let np := o.np
  let ws := ((List.range (o.rowsOf core)).zip A.1).flatMap (fun x => ((List.range (o.colsOf core)).zip B.1).map (fun y =>
    let t := sliceSum x.2 y.2
    let old : Option Nat :=
      if o.md = 2 then (if sl = 0 then none else some (tgetD (s.mem core).partialP (x.1 * 160 + y.1) 0).toNat)
      else if o.md = 0 ∧ sl = 0 then none
      else some (s.accWord core (o.acc * 64 + (x.1 * np + y.1) * 4))
    let u : FV × Nat := match old with
      | none => (t.1, 0)
      | some w => sumFV false [f32 w, t.1]
    let r := rnd32 u.1 rne
    (({ i := x.1, j := y.1, v := r.1 } : MmWord), t.2 ||| u.2 ||| r.2)))
  (ws.map (·.1), ws.foldl (fun e x => e ||| x.2) (if ws = [] then 0 else A.2 ||| B.2))

/-- Writes words at the port; a word of an armed barrier pair is refused (R253 row 7): whether one was, and the state. -/
def State.portWords (s : State) (core : Nat) (ws : List (Nat × Nat)) : Bool × State :=
  ws.foldl (fun r w =>
    let x := r.2.portPut core w.1 4 w.2
    (r.1 || !x.1, x.2)) (false, s)

/-- Performs a slice on one core of the block: words or partial array, and after the last slice of mode 2 the port maximum (R252). -/
def State.mmWrite (s : State) (o : MmOp) (core sl : Nat) (ws : List MmWord) : Bool × State :=
  let at_ := fun (w : MmWord) => o.acc * 64 + (w.i * o.np + w.j) * 4
  if o.md = 2 then
    let s1 := s.modMem core (fun m => { m with partialP := ws.foldl (fun p w => tset p (w.i * 160 + w.j) (BitVec.ofNat 32 w.v)) m.partialP })
    if sl + 1 < o.slices then (false, s1)
    else s1.portWords core (ws.map (fun w => (at_ w, (portWord 2 (s1.accWord core (at_ w)) w.v modeRne).1)))
  else s.portWords core (ws.map (fun w => (at_ w, w.v)))

/-- Marks slots 0 to `sl` of a supplier's ring READING by the ME. -/
def State.mmRead (s : State) (core q sl : Nat) : State :=
  s.modMem core (fun m => m.modRing q (fun r => { r with popBy := 3, popN := sl + 1 }))

/-- Retirement on one core (R252): slots popped where it supplies, KSTEP 0, the instruction completes. -/
def State.mmRetire (s : State) (o : MmOp) (core : Nat) (e : Entry) : State :=
  s.modMem core (fun m =>
    let m1 := if o.usesA core then m.modRing o.qa (fun r => r.popped o.slices) else m
    let m2 := if o.usesB core then m1.modRing o.qb (fun r => r.popped o.slices) else m1
    (({ m2 with kstep := 0, partialP := [] } : Member).pop 3).postPrefix 3 e.pfx)

/-- The matrix product that core `c` has issued and not retired. -/
def State.mmBusy (s : State) (c : Nat) : Option (Entry × MmOp) :=
  match (s.mem c).headOf 3 with
  | some e =>
    if e.issued ∧ e.busy = true ∧ s.mayIssue c = true then
      match decode? .me e.lanes with
      | some i => (mmOp i).map (fun o => (e, o))
      | none => none
    else none
  | none => none

/-- Whether a supplier's slot `sl` is FILLED or READING by the ME (R218, R219). -/
def State.slotReady (s : State) (core q sl : Nat) : Bool :=
  match tget (s.mem core).rings q with
  | some r => decide (sl < r.count) && (r.popBy == 0 || r.popBy == 3)
  | none => false

/-- The bytes of slot `sl` of a supplier's ring that its panel takes. -/
def State.slotBytes (s : State) (core q sl n : Nat) : List Byte × State :=
  match tget (s.mem core).rings q with
  | some r => s.sreadUe core (r.headAddr sl) n
  | none => ([], s)

/-- What two MMCs of a block must share (R254). -/
def MmOp.sameAs (o p : MmOp) (x y : List Nat) : Bool :=
  o.m == p.m && o.n == p.n && o.k == p.k && o.md == p.md && o.fi == p.fi && o.r == p.r && o.c == p.c && x.getD 1 0 == y.getD 1 0 && x.getD 2 0 == y.getD 2 0

/-- Stops the ME of a core at a slice boundary. -/
def State.mmStop (s : State) (core : Nat) (t : Trap) : State := s.modMem core (fun m => m.stop 3 t)

/-- One slice of a block of cores whose products have all issued: `l` holds each core with its entry and product. -/
def State.mmSlice (s : State) (l : List (Nat × Entry × MmOp)) (sl : Nat) : State :=
  let off := l.filter (fun x => !(s.core x.1).arrayOn)
  let need := l.flatMap (fun x =>
    let o := x.2.2
    (if o.usesA x.1 then [(x.1, o.qa, 64 * o.rowsOf x.1)] else [])
      ++ (if o.usesB x.1 then [(x.1, o.qb, if o.trans then 16 * o.bRow (x.2.1.opv.getD 2 0) else 64 * o.colsOf x.1)] else []))
  if off ≠ [] then off.foldl (fun s x => if (s.core x.1).waking then s else s.wakeArray x.1) s
  else if need.all (fun n => s.slotReady n.1 n.2.1 sl) = false then s
  else
    let addr := fun (n : Nat × Nat × Nat) => ((tgetD (s.mem n.1).rings n.2.1 {}).headAddr sl, n.2.2)
    let miss := need.filter (fun n => s.unpinned n.1 [addr n] != [])
    if miss ≠ [] then miss.foldl (fun s n => (s.present? n.1 [addr n]).getD s) s
    else
      let s1 := need.foldl (fun s n => (s.mmRead n.1 n.2.1 sl).modCore n.1 (fun x => x.used (pagesOf (addr n).1 (addr n).2) s.ptc)) s
      let s2 := l.foldl (fun s x => (s.modCore x.1 (fun y => { y with idleNs := s.ptc })).noteWords x.1 (if x.2.2.readsAt sl then x.2.2.words x.1 else []))
        (need.foldl (fun s n => (s.slotBytes n.1 n.2.1 sl n.2.2).2) s1)
      let res := l.map (fun x =>
        let o := x.2.2
        let pa := o.supA x.1
        let pb := o.supB x.1
        let qa := (l.find? (fun y => y.1 == pa)).map (fun y => y.2.2.qa)
        let qb := (l.find? (fun y => y.1 == pb)).map (fun y => y.2.2.qb)
        let a := (s2.slotBytes pa (qa.getD 0) sl (64 * o.rowsOf x.1)).1
        let b := (s2.slotBytes pb (qb.getD 0) sl (if o.trans then 16 * o.bRow (x.2.1.opv.getD 2 0) else 64 * o.colsOf x.1)).1
        (x, s2.mmWords o x.1 sl x.2.1.opv a b))
      let exc := res.filter (fun r => enabledExc (s2.precise r.1.1) (r.1.2.1.opv.getD 0 0) r.2.2 != 0)
      match exc with
      | f :: _ =>
        res.foldl (fun s r =>
          let x := enabledExc (s2.precise r.1.1) (r.1.2.1.opv.getD 0 0) r.2.2
          s.mmStop r.1.1 (if x ≠ 0 then { cause := excCause x, exc := r.2.2, prog := sl } else { cause := 0x62, prog := sl, named := f.1.1 })) s2
      | [] =>
        let out := res.foldl (fun (a : State × List Nat) r =>
          let y := a.1.mmWrite r.1.2.2 r.1.1 sl r.2.1
          let s3 := y.2.modMem r.1.1 (fun m => ({ m with kstep := 0x8000 + sl + 1 } : Member).setFlags r.2.2)
          (s3, if y.1 then a.2 ++ [r.1.1] else a.2)) (s2, [])
        match out.2 with
        | f :: _ =>
          l.foldl (fun s x => s.mmStop x.1 (if out.2.contains x.1 then { cause := 0x80, prog := sl + 1 } else { cause := 0x62, prog := sl + 1, named := f })) out.1
        | [] => out.1

/-- MM_SLICE (R252, R254): the ME of core `c`, with the other cores of its block, performs its next K-slice once every panel it reads is
FILLED; after the last one the products retire together. -/
def execMmSlice (c : Nat) (s : State) : Out :=
  match s.mmBusy c with
  | none => .next s
  | some (_, o) =>
    match o.block c with
    | none => .next s
    | some cores =>
      let l := cores.filterMap (fun k => (s.mmBusy k).map (fun x => (k, x.1, x.2)))
      let sl := bits (s.mem c).kstep 9 0
      if l.length < cores.length ∨ l.any (fun x => x.2.2.coop != o.coop) = true then .next s
      else if sl = 0 ∧ l.any (fun x => l.any (fun y => !(x.2.2.sameAs y.2.2 x.2.1.opv y.2.1.opv))) = true then
        .next (l.foldl (fun s x => s.mmStop x.1 { cause := 0x62 }) s)
      else
        let s1 := if o.slices ≤ sl then s else s.mmSlice l sl
        if o.slices ≤ bits (s1.mem c).kstep 9 0 ∧ l.all (fun x => !((s1.mem x.1).stuck.any (fun p => p.1 == 3))) = true then
          .next (l.foldl (fun s x => s.mmRetire x.2.2 x.1 x.2.1) s1)
        else .next s1

end Sys2Proof.Machine
end

