-- ==== Sys2Proof/Machine/Drain.lean ====
section
/-! DEFINITION. Drains and accumulator functions of the matrix engine (10 R257 to R260). -/

namespace Sys2Proof.Machine

/-- Row pitch of a region of `cols` columns, in words, and the address of its word (i, j) (R257). -/
def pitch (cols : Nat) : Nat := 16 * cdiv cols 16
def wordAt (base cols i j : Nat) : Nat := base + (i * pitch cols + j) * 4

/-- The positions of a region of `r` rows and `c` columns. -/
def positions (r c : Nat) : List (Nat × Nat) := (List.range r).flatMap (fun i => (List.range c).map (fun j => (i, j)))

/-- What an ML2 instruction makes: words to write, exceptions, panels to push, slots to pop. -/
structure Ml2 where
  words : List (Nat × Nat) := []
  exc : Nat := 0
  panels : List (List Byte) := []
  pops : Nat := 0
  deriving DecidableEq, Repr

/-- The words of a region of `r` rows and `c` columns. -/
def regionWords (base r c : Nat) : List Nat := (positions r c).map (fun x => wordAt base c x.1 x.2)

/-- Ends an ML2 instruction (R257) that has read the words at `reads`: the precise trap writes, pushes and pops nothing; a refused word traps BARRIER_STORE after the others
are written and the slots pushed or popped (14 R343). -/
def State.ml2Done (s : State) (q : Nat) (reads : List Nat) (x : Ml2) : Out :=
  let c := s.cur.core
  let en := enabledExc (s.precise c) s.cm.fpmode x.exc
  let s0 := s.noteWords c reads
  if en ≠ 0 then .next (s0.finish (.trapIssued { cause := excCause en, exc := x.exc }))
  else
    let r := s0.portWords c x.words
    let s1 := match s.ring q with
      | some g => if x.panels ≠ [] then r.2.pushSlots q g x.panels else if x.pops ≠ 0 then r.2.modRing q (fun k => k.popped x.pops) else r.2
      | none => r.2
    let s2 := s1.modCm (fun m => m.setFlags x.exc)
    if r.1 then .next (s2.finish (.trapDone { cause := 0x80 })) else s2.done

/-- The checks of R253 rows 2 to 6 for an ML2 instruction: type, shape, ring of `p` panels of `rows` rows (when `ring`), last byte. -/
def State.ml2Check (s : State) (typeOk shapeOk ring : Bool) (q rows p last : Nat) : Option Nat :=
  let rc := if ring then ringCheck (s.ring q) (64 * rows) p else none
  if typeOk = false then some 0x60
  else if shapeOk = false then some 0x61
  else if rc.isSome then rc
  else if 0x100000 < last then some 0x12
  else none

/-- Runs an ML2 instruction: its checks, the gate of ME issue, its ring and pages, then `f`. -/
def State.ml2 (s : State) (chk : Option Nat) (push : Bool) (q p : Nat) (f : State → Out) : Out :=
  match chk with
  | some cause => s.trap cause
  | none =>
    if s.power.gate then s.waits
    else
      match s.ring q with
      | none => f s
      | some r =>
        if p = 0 then f s
        else if (if push then r.canPush p else r.canPop p) = false then s.waits
        else s.withScratch (if push then r.tailRanges p else r.headRanges p) f

/-- The FP32 value of a word of the region after the input flush (R46; DEDUCED, log entry 19). -/
def State.wordVal (s : State) (off : Nat) : FV := (f32 (s.accWord s.cur.core off)).flush s.md.fz

/-- ACZERO (R258). -/
def execAczero (fn acc rows cols : Nat) (s : State) : Out :=
  let base := acc * 64
  let v := match fn with
    | 0 => 0 | 1 => 0xFF800000 | _ => 0x7F800000
  s.ml2 (s.ml2Check true true false 0 0 0 (rectEnd base (rows + 1) (cols + 1))) false 16 0 (fun s =>
    s.ml2Done 16 [] { words := (positions (rows + 1) (cols + 1)).map (fun x => (wordAt base (cols + 1) x.1 x.2, v)) })

/-- ACSCALE (R258): each word of the region times the factor word before it. -/
def execAcscale (acc rows cols : Nat) (s : State) : Out :=
  let base := acc * 64
  s.ml2 (s.ml2Check true true false 0 0 0 (rectEnd (base + 64) (rows + 1) (cols + 1))) false 16 0 (fun s =>
    let f := s.wordVal base
    let rs := (positions (rows + 1) (cols + 1)).map (fun x =>
      let a := wordAt (base + 64) (cols + 1) x.1 x.2
      let p := FV.mul (s.wordVal a) f
      let r := rnd32 p.1 s.md
      (a, r.1, p.2 ||| r.2))
    s.ml2Done 16 (base :: regionWords (base + 64) (rows + 1) (cols + 1)) { words := rs.map (fun r => (r.1, r.2.1)), exc := rs.foldl (fun e r => e ||| r.2.2) 0 })

/-- One 64-byte row of a pushed panel: the values converted to a type, or put into FP32, flushed and packed as a block (R257; 02 R45, R46, R49). -/
def panelRow (t : Ty) (md : RMode) (xs : List FV) : List Byte × Nat :=
  match t with
  | .blk w =>
    let ys := xs.map (fun x => let y := toF32 md x; (y.1.flush md.fz, y.2))
    let r := packVB w (ys.map (·.1) ++ List.replicate (16 - xs.length) (.fin {})) (fun _ => md)
    (leBytes 64 r.1, ys.foldl (fun e y => e ||| y.2) r.2)
  | _ =>
    let rs := xs.map (fun x => encodeElem t x md)
    (leBytes 64 (((List.range rs.length).zip rs).foldl (fun a p => a + p.2.1 * 2 ^ (p.1 * t.uw)) 0), rs.foldl (fun e r => e ||| r.2) 0)

/-- The panels of a region's values: `f i j` is the value at (i, j). -/
def panelsOf (t : Ty) (md : RMode) (rows cols : Nat) (f : Nat → Nat → FV) : List (List Byte) × Nat :=
  let ps := (List.range (cdiv cols 16)).map (fun p =>
    let rs := (List.range rows).map (fun i => panelRow t md ((List.range (min 16 (cols - 16 * p))).map (fun e => f i (16 * p + e))))
    (rs.flatMap (·.1), rs.foldl (fun e r => e ||| r.2) 0))
  (ps.map (·.1), ps.foldl (fun e p => e ||| p.2) 0)

/-- Types that ACDRAIN and ACMOV accept: all but the complex ones (R258). -/
def drainType (dt : Nat) : Bool := !(tyOf dt).isC

/-- The value of a word that ACDRAIN converts: a block destination takes it as it stands, and applies FZ after the scale (02 R49, 08 R212). -/
def State.drainVal (s : State) (t : Ty) (off : Nat) : FV :=
  match t with
  | .blk _ => f32 (s.accWord s.cur.core off)
  | _ => s.wordVal off

/-- ACDRAIN (R258); `fn` is σ. -/
def execAcdrain (q dt fn acc rows cols : Nat) (s : State) : Out :=
  let base := acc * 64
  let p := cdiv (cols + 1) 16
  s.ml2 (s.ml2Check (drainType dt) true true q (rows + 1) p (rectEnd base (rows + 1) (cols + 1))) true q p (fun s =>
    let r := panelsOf (tyOf dt) s.md (rows + 1) (cols + 1)
      (fun i j => (s.drainVal (tyOf dt) (wordAt base (cols + 1) i j)).scale (-(toSigned 8 fn)))
    s.ml2Done q (regionWords base (rows + 1) (cols + 1)) { panels := r.1, exc := r.2 })

/-- The element of a popped panel row as FP32 bits and flags (R258): it decodes exactly, FZ or not, and an integer is rounded under RNE. -/
def movElem (t : Ty) (row e : Nat) : Nat × Nat :=
  match t with
  | .blk w => rnd32 (blockElem w (unitAt row t.uw 0) e) modeRne
  | _ => rnd32 (decodeElem t (unitAt row t.uw e)) modeRne

/-- ACMOV (R258); `fn` is the port mode. -/
def execAcmov (q dt fn acc rows cols : Nat) (s : State) : Out :=
  let base := acc * 64
  let p := cdiv (cols + 1) 16
  s.ml2 (s.ml2Check (drainType dt) true true q (rows + 1) p (rectEnd base (rows + 1) (cols + 1))) false q p (fun s =>
    match s.ring q with
    | none => s.done
    | some r =>
      let sl := (List.range p).map (fun k => s.sreadUe s.cur.core (r.headAddr k) (64 * (rows + 1)))
      let note := (List.range p).foldl (fun s k => (s.sreadUe s.cur.core (r.headAddr k) (64 * (rows + 1))).2) s
      let rows' := sl.map (fun x => panelRows x.1 64 (rows + 1))
      let rs := (positions (rows + 1) (cols + 1)).map (fun x =>
        let a := wordAt base (cols + 1) x.1 x.2
        let v := movElem (tyOf dt) ((rows'.getD (x.2 / 16) []).getD x.1 0) (x.2 % 16)
        let w := portWord fn (s.accWord s.cur.core a) v.1 { s.md with rm := 0 }
        (a, w.1, v.2 ||| w.2))
      note.ml2Done q (if fn = 0 then [] else regionWords base (rows + 1) (cols + 1)) { words := rs.map (fun r => (r.1, r.2.1)), exc := rs.foldl (fun e r => e ||| r.2.2) 0, pops := p })

/-- What ACSMX makes of one row (R259): p values by column, the new O values when f ≠ 1, l, m, and exceptions. -/
structure SmxRow where
  p : List (Nat × Nat)
  o : Option (List Nat)
  l : Nat
  m : Nat
  exc : Nat
  deriving DecidableEq, Repr

/-- One row of ACSMX (R259): `sc` are the scores, `o` the O words, `l` and `m` the running sum and maximum. -/
def smxRow (f : Fmt) (md : RMode) (sc o : List Nat) (lw mw : Nat) : SmxRow :=
  let v := fun (w : Nat) => (f32 w).flush md.fz
  let ss := sc.map (fun w => if (f32 w).isNan ∨ f32 w = .inf false then (FV.inf true, fInvalid) else (v w, 0))
  let e0 := ss.foldl (fun e x => e ||| x.2) 0
  let mo : FV := if (f32 mw).isNan then .inf true else v mw
  let mn := ss.foldl (fun a x => FV.max a x.1) mo
  if mn = .inf true then
    let x := sumFV (md.rm == 2) [v lw, .fin {}]
    let y := rnd32 x.1 md
    { p := sc.map (fun _ => (0, 0)), o := none, l := y.1, m := (rnd32 mn modeRne).1, exc := e0 ||| x.2 ||| y.2 }
  else
    let diff := fun (x : FV) => rn32 md (sumFV (md.rm == 2) [x, mn.negate])
    let ps := ss.map (fun x =>
      let d := diff x.1
      let y := d.1.exp2
      let r := f.roundV y.1 md
      (r.1, d.2 ||| y.2 ||| r.2))
    let up := FV.lt true mo mn
    let fd := diff mo
    let fr := rn32 md fd.1.exp2
    let fac : FV := if up then fr.1 else fvOne
    let ef := if up then fd.2 ||| fr.2 else 0
    let one := !(FV.lt true fac fvOne) && !(FV.lt true fvOne fac)
    let os := (if one then [] else o).map (fun w =>
      if fac.isZero then (0, 0)
      else
        let x := FV.mul (v w) fac
        let r := rnd32 x.1 md
        (r.1, x.2 ||| r.2))
    let t := pairSum md 8 (ps.map (fun x => f.decode x.1))
    let l1 : FV × Nat :=
      if fac.isZero then t
      else
        let x := FV.mul (v lw) fac
        let y := sumFV (md.rm == 2) [x.1, t.1]
        (y.1, x.2 ||| y.2 ||| t.2)
    let l2 := rnd32 l1.1 md
    { p := ps, o := if one then none else some (os.map (·.1)), l := l2.1, m := (rnd32 mn modeRne).1
      exc := e0 ||| ef ||| l1.2 ||| l2.2 ||| ps.foldl (fun e x => e ||| x.2) 0 ||| os.foldl (fun e x => e ||| x.2) 0 }

/-- ACSMX (R259); `dd` is do/16 − 1. -/
def execAcsmx (q dt dd acc rows cols : Nat) (s : State) : Out :=
  let base := acc * 64
  let d := (dd + 1) * 16
  let r := rows + 1
  let cn := cols + 1
  let sb := base + 1024 + r * d * 4
  let p := cdiv cn 16
  s.ml2 (s.ml2Check (decide (1 ≤ dt ∧ dt ≤ 4)) true true q r p (rectEnd sb r cn)) true q p (fun s =>
    let rd := fun (a : Nat) => s.accWord s.cur.core a
    let f := match tyOf dt with
      | .flt g => g
      | _ => fmtBf16
    let xs := (List.range r).map (fun i => smxRow f s.md ((List.range cn).map (fun j => rd (wordAt sb cn i j)))
      ((List.range d).map (fun k => rd (base + 1024 + (i * d + k) * 4))) (rd (base + 512 + 4 * i)) (rd (base + 4 * i)))
    let words := ((List.range r).zip xs).flatMap (fun x =>
      ((List.range d).zip (x.2.o.getD [])).map (fun y => (base + 1024 + (x.1 * d + y.1) * 4, y.2))
        ++ [(base + 512 + 4 * x.1, x.2.l), (base + 4 * x.1, x.2.m)])
    let panels := (List.range p).map (fun k => xs.flatMap (fun x =>
      leBytes 64 (((List.range 16).zip ((x.p.drop (16 * k)).take 16)).foldl (fun a y => a + y.2.1 * 2 ^ (y.1 * f.w)) 0)))
    let reads := regionWords sb r cn ++ (List.range r).flatMap (fun i =>
      [base + 4 * i, base + 512 + 4 * i] ++ (List.range d).map (fun k => base + 1024 + (i * d + k) * 4))
    s.ml2Done q reads { words := words, exc := xs.foldl (fun e x => e ||| x.exc) 0, panels := panels })

/-- ACNORM (R260); the cols field holds do − 1. -/
def execAcnorm (acc rows cols : Nat) (s : State) : Out :=
  let base := acc * 64
  let d := cols + 1
  let r := rows + 1
  s.ml2 (s.ml2Check true (d % 16 == 0) false 0 0 0 (base + 1024 + r * d * 4)) false 16 0 (fun s =>
    let rs := (positions r d).map (fun x =>
      let a := base + 1024 + (x.1 * d + x.2) * 4
      let l := s.wordVal (base + 512 + 4 * x.1)
      if l.isZero then (a, 0, 0)
      else
        let y := FV.div (s.wordVal a) l
        let z := rnd32 y.1 s.md
        (a, z.1, y.2 ||| z.2))
    let reads := (List.range r).map (fun i => base + 512 + 4 * i) ++ (positions r d).map (fun x => base + 1024 + (x.1 * d + x.2) * 4)
    s.ml2Done 16 reads { words := rs.map (fun r => (r.1, r.2.1)), exc := rs.foldl (fun e r => e ||| r.2.2) 0 })

end Sys2Proof.Machine
end

