-- ==== Sys2Proof/Machine/Trellis.lean ====
section
/-! DEFINITION. Links (17): their states (R410), flits with replay (R401, R402), flow control (R404), end-to-end delivery (R407), routes (R409),
rekeying (R411, R412) and the scale-out ports (R418, R419). -/

namespace Sys2Proof.Machine

def Link.dir (x : Link) (d : Nat) : LinkDir := if d = 0 then x.dir0 else x.dir1

/-- Changes direction `d` of link `l`. -/
def State.modDir (s : State) (l d : Nat) (f : LinkDir → LinkDir) : State :=
  s.modLink l (fun x => if d = 0 then { x with dir0 := f x.dir0 } else { x with dir1 := f x.dir1 })

def State.ldir (s : State) (l d : Nat) : LinkDir := (s.link l).dir d

/-- The dies that direction `d` of a trellis link runs from and to (17 R400). -/
def dirFrom (l d : Nat) : Nat := if d = 0 then (linkEnds l).1 else (linkEnds l).2
def dirTo (l d : Nat) : Nat := if d = 0 then (linkEnds l).2 else (linkEnds l).1

/-- A flit is discarded and counted in TAGFAIL (17 R413). -/
def State.tagFail (s : State) (l : Nat) : State := s.modLink l (fun x => { x with tagfail := min (x.tagfail + 1) 0xFFFF })

-- Routes (R406, R409).

/-- The routes between dies when every die and link is up (17 R406). -/
def bootRoute (d t : Nat) : List Nat :=
  match (t + 8 - d) % 8 with
  | 1 => [0] | 7 => [1] | 2 => [2] | 6 => [3] | 3 => [0, 2] | 5 => [1, 3] | 4 => [2, 2] | _ => []

/-- The route that die `d` uses to die `t`, as hop numbers. -/
def State.routeOf (s : State) (d t : Nat) : List Nat := (tget (s.die d).routes t).getD (bootRoute d t)

/-- The links that a route from die `d` crosses. -/
def routeLinks (d : Nat) (hs : List Nat) : List (Nat × Nat) :=
  match hs with
  | [] => []
  | h :: r => ((hop d h).1, (hop d h).2.1) :: routeLinks (hop d h).2.2 r

/-- The number by which a buffer of the receiver of a direction is known. -/
def bufOf (vc cls : Nat) : Nat := 4 * vc + cls

/-- The flits that a buffer holds (17 R404). -/
def bufCap (vc : Nat) : Nat := if vc = 3 then 128 else 256

/-- The occupancy of a buffer rises or falls by one. -/
def LinkDir.put (x : LinkDir) (vc cls : Nat) : LinkDir := { x with occ := tset x.occ (bufOf vc cls) (tgetD x.occ (bufOf vc cls) 0 + 1) }
def LinkDir.take (x : LinkDir) (vc cls : Nat) : LinkDir :=
  let n := tgetD x.occ (bufOf vc cls) 0
  { x with occ := if n ≤ 1 then tdel x.occ (bufOf vc cls) else tset x.occ (bufOf vc cls) (n - 1) }

/-- A flit of a VC and CLASS may be sent: the sender is not held there, and the buffer has room, as R404 makes sure. -/
def LinkDir.open (x : LinkDir) (vc cls : Nat) : Bool := !x.heldBy.contains (bufOf vc cls) && decide (tgetD x.occ (bufOf vc cls) 0 < bufCap vc)

/-- The buffer that a flit occupies is freed. -/
def State.freeBuffer (s : State) (f : Flit) : State :=
  if f.via = 0 then s else s.modDir ((f.via - 1) / 2) ((f.via - 1) % 2) (fun x => x.take f.vc f.cls)

/-- The flits in routers and ports that satisfy `p` are dropped, and their buffers freed. -/
def State.dropTransit (s : State) (p : Flit → Bool) : State :=
  let s1 := (s.dies.flatMap (fun q => q.2.transit.filter p)).foldl (fun s f => s.freeBuffer f) s
  { s1 with dies := tmap (fun _ (x : Die) => { x with transit := x.transit.filter (fun f => !p f) }) s1.dies }

/-- The source of a pair is to send every flit that it keeps again (17 R407): its count of flits sent goes back to the first that is not acknowledged, and what
is still in routers of the pair is dropped. -/
def State.resend (s : State) (d t : Nat) : State :=
  (s.modDie d (fun x => { x with eseqTx := x.eseqTx.map (fun p => if p.1 / 4 = t then (p.1, tgetD x.eseqAck p.1 0) else p) })).dropTransit
    (fun f => f.src == d && f.dst == t)

/-- Every pair of dies. -/
def diePairs : List (Nat × Nat) := (List.range 8).flatMap (fun d => (List.range 8).map (fun t => (d, t)))

/-- The source and destination that the model notes on a flit from a peer package, whose header names none. -/
def noDie : Nat := 8

/-- A link leaves UP or REKEYING, or never reached it: its keys, buffers and replay state go, and R407 resends on every pair whose route crosses it
(17 R410); a port sends the bytes of its descriptor again. -/
def State.linkTo (s : State) (l : Nat) (st : LinkState) : State :=
  let s1 := (s.dropTransit (fun f => f.src == noDie && f.via == 2 * l + 2)).modLink l (fun x => { x with
    state := st, dir0 := {}, dir1 := {}, exchange := false, peer := none, job := x.job.map (fun j => { j with off := 0 }) })
  (diePairs.filter (fun p => (routeLinks p.1 (s.routeOf p.1 p.2)).any (fun h => h.1 == l))).foldl (fun s p => s.resend p.1 p.2) s1

/-- ROUTE_TABLE (17 R409): die `d` receives the routes that R406 gives; each pair whose route changes stops, and switches at once when its old route
has failed. -/
def State.routeTable (s : State) (d : Nat) : State :=
  (List.range 8).foldl (fun s t =>
    let new := (s.route d t).getD []
    let old := s.routeOf d t
    if new = old then s.modDie d (fun x => { x with newRoutes := tdel x.newRoutes t, draining := x.draining.filter (fun k => k != t) })
    else if old = [] ∨ (routeLinks d old).any (fun h => !(s.link h.1).carries) = true then
      (s.resend d t).modDie d (fun x => { x with routes := tset x.routes t new, newRoutes := tdel x.newRoutes t, draining := x.draining.filter (fun k => k != t) })
    else s.modDie d (fun x => { x with newRoutes := tset x.newRoutes t new, draining := addOnce x.draining t })) s

/-- ROUTE_TABLE (17 R409), over the die's management port (19 R440). -/
def execRouteTable (d : Nat) (s : State) : Out := if 8 ≤ d ∨ (s.die d).mgmt = false then .next s else .next (s.routeTable d)

-- Dies and phases.

/-- A link that failed its first attestation of an epoch, which the Trifort die is to train again (19 R443). -/
def State.retrains (s : State) (l : Nat) : Bool :=
  isTrellis l && (s.link l).state == .quarantined && (s.link l).attFails == 1 && (s.die (linkEnds l).1).state != .quarantined
    && (s.die (linkEnds l).2).state != .quarantined

/-- Bring-up is over (25 R488 step 6): PHASE is RUNNING, the PTC epoch is set, every queue is DISABLED, every context FREE, PWRCAP holds its boot values, and
TRAINS counts from here (17 R413; DEDUCED, log entry 10). -/
def State.running (s : State) : State :=
  { s with
    tri := { s.tri with phase := 2 }, time := {}, power := { on := true }
    queues := tmap (fun _ (q : Queue) => { q with state := .disabled }) s.queues
    ctxs := tmap (fun _ (c : Ctx) => { c with state := .free }) s.ctxs
    links := tmap (fun _ (x : Link) => { x with trains := 0 }) s.links }

/-- A MEASURED die whose trellis links are each UP or QUARANTINED is JOINED (19 R442); once every die is JOINED or QUARANTINED, bring-up is over (25 R488). -/
def State.settleDies (s : State) : State :=
  let done := fun (l : Nat) => (s.link l).carries || ((s.link l).state == .quarantined && !s.retrains l)
  let s1 : State := (List.range 8).foldl (fun s d =>
    if (s.die d).state = .measured ∧ ((linksOf d).filter isTrellis).all done = true then s.modDie d (fun x => { x with state := .joined }) else s) s
  if s1.tri.phase = 1 ∧ (List.range 8).all (fun d => (s1.die d).state == .joined || (s1.die d).state == .quarantined) = true then s1.running else s1

-- Flits (R401, R402).

/-- The header H of a flit (17 R401): bits 127 to 112 and bit 4 are reserved, zero. -/
def Flit.header (f : Flit) : Nat :=
  f.aux % 2 ^ 16 * 2 ^ 96 + f.eseq % 2 ^ 32 * 2 ^ 64 + f.fcnt % 2 ^ 48 * 2 ^ 16 + f.dst % 8 * 2 ^ 13 + f.src % 8 * 2 ^ 10 + f.cls % 4 * 2 ^ 8
    + f.vc % 4 * 2 ^ 6 + b2n f.nak * 2 ^ 5 + f.type % 8 * 2 + f.gen % 2

/-- The 96-bit nonce of a flit of direction `d` of link `l` (17 R401). -/
def Flit.nonce (f : Flit) (l d : Nat) : Nat := l * 2 ^ 90 + d * 2 ^ 89 + f.fcnt % 2 ^ 48

/-- The 288 bytes of a flit on direction `d` of link `l` (17 R401): header, encrypted payload, tag. -/
def Flit.bytes (f : Flit) (l d : Nat) : List Byte :=
  leBytes 16 f.header ++ leBytes 256 (Config.flitCipher f.key (f.nonce l d) f.header f.val) ++ leBytes 16 (Config.flitTag f.key (f.nonce l d) f.header f.val)

/-- A direction can send a new flit: the link carries, the key is not spent and no rekey holds the direction (17 R411), and the replay buffer has room
(R402). -/
def State.canSend (s : State) (l d : Nat) : Bool :=
  (s.link l).carries && (s.ldir l d).keyed && !(s.ldir l d).stopped && decide ((s.ldir l d).fcnt < 2 ^ 44) && decide ((s.ldir l d).replay.length < 512)

/-- The receiver's judgment of a flit (17 R401, R412): the direction after it is accepted in order, if it is. A tag verifies under the key that sealed it; the
first flit of K′ is in order once every flit of K has been accepted. -/
def LinkDir.accept? (x : LinkDir) (f : Flit) : Option LinkDir :=
  if f.gen = x.rgen then (if f.key = x.rkey ∧ f.fcnt = x.exp then some { x with exp := x.exp + 1, gap := false } else none)
  else if x.both = true ∧ x.gap = false ∧ f.key = x.next ∧ f.fcnt = 0 then some { x with rgen := f.gen, rkey := x.next, both := false, exp := 1 }
  else none

/-- A write that arrives at a scale-out port (17 R419). -/
def State.peerWrite (s : State) (l : Nat) (f : Flit) : State :=
  let x := s.link l
  let party := partyPort (l - 16)
  if x.rlen < 64 * f.roff + 64 then s.tagFail l
  else
    let va := x.rwin + 64 * f.roff
    match s.translate party x.pctx va .write true with
    | (.ok p, s1) => (s1.noteUnreachable party x.pctx va p).systemWrite party p (leBytes 64 f.val)
    | (.error _, s1) => s1.errorRecord party x.pctx 11 0 va 0

/-- A DATA flit accepted over direction `d` of link `l` takes a buffer of the die there, or of the port (17 R404), from which it goes to its next hop or is
performed; what the peer's buffers hold is its own affair. -/
def State.deliverData (s : State) (l d : Nat) (f : Flit) : State :=
  if isTrellis l ∨ d = 1 then
    (s.modDie (dirTo l d) (fun x => { x with transit := x.transit ++ [{ f with via := 2 * l + d + 1 }] })).modDir l d (fun x => x.put f.vc f.cls)
  else s

/-- A rekey completes when no flit of the old key is left to replay (17 R412 step 5), and a direction that the limit of R411 held goes on; the link is UP when
every rekey has. -/
def State.rekeyEnds (s : State) (l d : Nat) : State :=
  let x := s.ldir l d
  let s1 := if x.rekey = 3 ∧ x.replay.all (fun f => f.gen == x.gen) = true then
    s.modDir l d (fun x => { x with rekey := if x.again then 1 else 0, again := false, stopped := false }) else s
  if (s1.link l).state = .rekeying ∧ (s1.ldir l 0).rekey = 0 ∧ (s1.ldir l 1).rekey = 0 then s1.modLink l (fun x => { x with state := .up }) else s1

/-- The flits of a replay buffer that AUX of a LACK leaves: those after the one it names, by the low 16 bits of its FCNT (17 R401, R402), which the receiver counted
under the key of generation `gen`. -/
def unacked (aux gen : Nat) (fs : List Flit) : List Flit :=
  match fs.findIdx? (fun f => f.fcnt % 65536 == aux && f.gen == gen) with
  | some i => fs.drop (i + 1)
  | none => fs

/-- The flits that a LACK acknowledges leave the replay buffer (17 R402); a NAK makes the sender go back. -/
def State.lacked (s : State) (l d : Nat) (f : Flit) : State :=
  (s.modDir l d (fun x => { x with replay := unacked f.aux f.agen x.replay, rewind := x.rewind || f.nak })).rekeyEnds l d

/-- On KEYACK the sender seals under K′ from the next flit on (17 R412 step 3); a direction whose key was spent stays held until the rekey completes (R411). -/
def LinkDir.switch (x : LinkDir) : LinkDir :=
  if x.rekey = 2 then { x with gen := 1 - x.gen, key := x.next, fcnt := 0, rekey := 3, stopped := decide (2 ^ 44 ≤ x.fcnt) } else x

/-- What an accepted flit of direction `d` does (17 R401). MGMT takes a buffer of VC3. -/
def State.applyFlit (s : State) (l d : Nat) (f : Flit) : State :=
  let e := 1 - d
  match f.type with
  | 1 => s.deliverData l d f
  | 2 => s.modDir l e (fun x => { x with heldBy := addOnce x.heldBy (bufOf f.vc f.cls) })
  | 3 => s.modDir l e (fun x => { x with heldBy := x.heldBy.filter (fun k => k != bufOf f.vc f.cls) })
  | 4 => s.modDir l d (fun x => x.put f.vc f.cls)
  | 5 => (s.modDir l e LinkDir.switch).rekeyEnds l e
  | 6 => s.lacked l e f
  | _ => s

/-- A flit of direction `d` reaches the receiver; `bad` says that its tag fails or that a reserved bit of it is not zero. -/
def State.receive (s : State) (l d : Nat) (f : Flit) (bad : Bool) : State :=
  match if bad then none else (s.ldir l d).accept? f with
  | some x => (s.modDir l d (fun _ => x)).applyFlit l d f
  | none => (s.tagFail l).modDir l d (fun x => { x with nak := true, gap := x.gap || (f.gen == x.rgen && decide (x.exp ≤ f.fcnt)) })

/-- The sender of direction `d` sends its unacknowledged flits again, byte for byte; the tag of the `k`-th fails (17 R402). -/
def State.replayAll (s : State) (l d : Nat) (k : Option Nat) : State :=
  let fs := (s.ldir l d).replay.map (fun f => { f with replays := f.replays + 1 })
  let s1 := (s.modDir l d (fun x => { x with replay := fs, rewind := false })).modLink l (fun x => { x with replays := min (x.replays + fs.length) 0xFFFF })
  if fs.any (fun f => decide (8 ≤ f.replays)) then s1.linkTo l .down
  else ((List.range fs.length).zip fs).foldl (fun s p => s.receive l d p.2 (k == some p.1)) s1

/-- What a NAK asked to be replayed goes before any new flit (17 R402). -/
def State.caughtUp (s : State) (l d : Nat) : State := if (s.ldir l d).rewind then s.replayAll l d none else s

/-- A new flit is sent in direction `d`: it takes the next FCNT, stands in the replay buffer, and reaches the receiver. -/
def State.sendFlit (s : State) (l d : Nat) (f : Flit) (bad : Bool) : State :=
  let s := s.caughtUp l d
  if s.canSend l d then
    let x := s.ldir l d
    let g := { f with fcnt := x.fcnt, gen := x.gen, key := x.key }
    (s.modDir l d (fun x => { x with fcnt := x.fcnt + 1, replay := x.replay ++ [g] })).receive l d g bad
  else s

/-- A sender is held on a VC and CLASS, or the buffer there is full (17 R404). -/
def State.isHeld (s : State) (l d vc cls : Nat) : Bool := !(s.ldir l d).open vc cls

/-- How many flits of each VC die `a` has performed of those from die `t`: what a flit of VC1 to `t` acknowledges (17 R403, R407; DESIGN CHOICE, log entry 35). -/
def State.ackCounts (s : State) (a t : Nat) : List Nat := (List.range 4).map (fun v => tgetD (s.die a).eseqRx (4 * t + v) 0)

/-- The flit with the next ESEQ of a pair and VC: the one kept from before, or a new one, which is kept until it is acknowledged (17 R407). -/
def State.nextEseq (s : State) (a dst vc : Nat) (r : List Nat) : Flit × State :=
  let n := tgetD (s.die a).eseqTx (4 * dst + vc) 0
  let s1 := s.modDie a (fun x => { x with eseqTx := tset x.eseqTx (4 * dst + vc) (n + 1) })
  match (s.die a).kept.find? (fun f => f.dst == dst && f.vc == vc && f.eseq == n) with
  | some f => ({ f with path := r }, s1)
  | none =>
    let f : Flit := { type := 1, vc := vc, src := a, dst := dst, eseq := n, path := r, acks := if vc = 1 then s.ackCounts a dst else [] }
    (f, s1.modDie a (fun x => { x with kept := x.kept ++ [f] }))

/-- The flit that DATA sends over direction `d` of trellis link `l`, and the state with it taken from where it waits: at its source for CLASS 0, in the
router of the die for a later hop. -/
def State.nextData (s : State) (l d vc cls dst : Nat) : Option (Flit × State) :=
  let a := dirFrom l d
  if cls = 0 then
    match s.routeOf a dst with
    | [] => none
    | h :: r =>
      if (hop a h).1 = l ∧ (hop a h).2.1 = d ∧ (s.die a).draining.contains dst = false then some (s.nextEseq a dst vc r) else none
  else
    let here := fun (f : Flit) => f.vc == vc && f.dst == dst && f.cls + 1 == cls && (match f.path with
      | h :: _ => (hop a h).1 == l && (hop a h).2.1 == d
      | [] => false)
    match (s.die a).transit.find? here with
    | none => none
    | some f =>
      let s1 := s.modDie a (fun x => { x with transit := x.transit.eraseIdx (x.transit.findIdx here) })
      some ({ f with cls := cls, path := f.path.drop 1, via := 0, replays := 0 }, s1.freeBuffer f)

/-- What die `t` learns from the counts that a flit of VC1 from die `a` carries: the flits that they acknowledge are kept no longer. -/
def State.acked (s : State) (t a : Nat) (ns : List Nat) : State :=
  s.modDie t (fun x => { x with
    eseqAck := ((List.range ns.length).zip ns).foldl (fun k p => tset k (4 * a + p.1) (max p.2 (tgetD k (4 * a + p.1) 0))) x.eseqAck
    kept := x.kept.filter (fun f => !(f.dst == a && decide (f.eseq < ns.getD f.vc 0))) })

/-- The die at the end of direction `d` performs the oldest DATA flit that stands in a buffer of it and is at its destination, in ESEQ order; one that it
performed before is acknowledged only (17 R407). -/
def State.performData (s : State) (l d vc cls : Nat) : State :=
  let t := dirTo l d
  let here := fun (f : Flit) => f.via == 2 * l + d + 1 && f.vc == vc && f.cls == cls && f.path.isEmpty && decide (f.eseq ≤ tgetD (s.die t).eseqRx (4 * f.src + vc) 0)
  match (s.die t).transit.find? here with
  | none => s
  | some f =>
    let s1 := (s.modDie t (fun x => { x with
      transit := x.transit.eraseIdx (x.transit.findIdx here)
      eseqRx := tset x.eseqRx (4 * f.src + vc) (max (f.eseq + 1) (tgetD x.eseqRx (4 * f.src + vc) 0)) })).freeBuffer f
    s1.acked t f.src f.acks

-- Scale-out ports (R418, R419).

/-- The descriptor in progress at a port completes: SHEAD advances. -/
def State.sendDone (s : State) (l : Nat) : State := s.modLink l (fun x => { x with shead := (x.shead + 1) % 2 ^ 32, job := none })

/-- A descriptor that breaks a limit or whose reads fail completes, and its TAG and cause are reported on CTX's event ring (17 R419). -/
def State.sendFails (s : State) (l tag cause : Nat) : State :=
  let x := (s.link l).pctx
  let s1 := s.sendDone l
  s1.postRecord x (eventBytes 2 cause partyDispatcher 0 s1.ptc tag)

/-- The next 64 bytes of the descriptor in progress leave as a flit (17 R403, R419). LOCAL may be a slab address (DESIGN CHOICE, log entry 56: no list of R319 names
it). -/
def State.sendPiece (s : State) (l : Nat) (bad : Bool) : State :=
  let x := s.link l
  let party := partyPort (l - 16)
  match x.job with
  | none => s
  | some j =>
    if j.len ≤ j.off then s
    else
      match s.translate party x.pctx (j.loc + j.off) .read true with
      | (.error t, s1) => s1.sendFails l j.tag t.cause
      | (.ok p, s1) =>
        let r := s1.memRead party x.pctx 0 0 (fun s k n => s.homeRead (dieOf party) k n) [(j.loc + j.off, p, 64)]
        (r.2.modLink l (fun y => { y with job := some { j with off := j.off + 64 } })).sendFlit l 0
          { type := 1, vc := 2, roff := (j.roff + j.off) / 64, val := leNat r.1 } bad

/-- The port of scale-out link `l` performs the oldest write that stands in its buffer (17 R419). -/
def State.performPeer (s : State) (l : Nat) : State :=
  let here := fun (f : Flit) => f.src == noDie && f.via == 2 * l + 2
  let t := dirTo l 1
  match (s.die t).transit.find? here with
  | none => s
  | some f => ((s.modDie t (fun x => { x with transit := x.transit.eraseIdx (x.transit.findIdx here) })).freeBuffer f).peerWrite l f

/-- DATA (17 R407): with `bad` 2, the die at the end of direction `dir` performs a DATA flit that stands in its buffer; otherwise a DATA flit crosses the
direction, and `bad` 1 says that it arrives damaged. On a scale-out port direction 0 sends the next bytes of the send descriptor, and direction 1 brings a write of
the value `v` at sector `roff` of the receive window, which takes a buffer until the port performs it (R404, R419). A QUARANTINED link discards it (R410). -/
def execData (link dir vc cls dst bad roff v : Nat) (s : State) : Out :=
  let x := s.link link
  let vc := if isTrellis link then vc else 2
  if 32 ≤ link ∨ 2 ≤ dir ∨ 3 ≤ vc ∨ 3 ≤ cls then .next s
  else if x.state = .quarantined then .next (s.tagFail link)
  else if bad = 2 then .next (if isTrellis link then s.performData link dir vc cls else if dir = 1 then s.performPeer link else s)
  else if s.canSend link dir = false ∨ s.isHeld link dir vc cls = true then .next s
  else if isTrellis link then
    match s.nextData link dir vc cls (dst % 8) with
    | some (f, s1) => .next (s1.sendFlit link dir f (bad == 1))
    | none => .next s
  else if dir = 0 then .next (s.sendPiece link (bad == 1))
  else .next (s.sendFlit link dir { type := 1, vc := vc, src := noDie, dst := noDie, roff := roff, val := v } (bad == 1))

/-- IDLE (17 R401). -/
def execIdle (link dir : Nat) (s : State) : Out := if 32 ≤ link ∨ 2 ≤ dir then .next s else .next (s.sendFlit link dir {} false)

/-- High-water and low-water marks of a buffer (17 R404). -/
def hwm (vc : Nat) : Nat := if vc = 3 then 32 else 160
def lwm (vc : Nat) : Nat := if vc = 3 then 8 else 64

/-- A flit of direction `dir` of a link comes from a peer package. -/
def peerSends (link dir : Nat) : Bool := !isTrellis link && dir == 1

/-- HOLD (17 R404): the receiver of the other direction, a buffer of which has reached its high-water mark, stops its sender. What a peer package's buffers hold
stands in no field: it may send HOLD and RELEASE at any time (DESIGN CHOICE, log entry 35). -/
def execHold (link dir vc cls : Nat) (s : State) : Out :=
  let k := bufOf vc cls
  if 32 ≤ link ∨ 2 ≤ dir ∨ 4 ≤ vc ∨ 3 ≤ cls ∨ s.canSend link dir = false then .next s
  else
    let x := s.ldir link (1 - dir)
    if (peerSends link dir = false ∧ tgetD x.occ k 0 < hwm vc) ∨ x.holding.contains k = true then .next s
    else .next ((s.modDir link (1 - dir) (fun x => { x with holding := k :: x.holding })).sendFlit link dir { type := 2, vc := vc, cls := cls } false)

/-- RELEASE (17 R404): the occupancy has fallen to the low-water mark. -/
def execRelease (link dir vc cls : Nat) (s : State) : Out :=
  let k := bufOf vc cls
  if 32 ≤ link ∨ 2 ≤ dir ∨ 4 ≤ vc ∨ 3 ≤ cls ∨ s.canSend link dir = false then .next s
  else
    let x := s.ldir link (1 - dir)
    if (peerSends link dir = false ∧ lwm vc < tgetD x.occ k 0) ∨ x.holding.contains k = false then .next s
    else .next ((s.modDir link (1 - dir) (fun x => { x with holding := x.holding.filter (fun i => i != k) })).sendFlit link dir { type := 3, vc := vc, cls := cls } false)

/-- MGMT (19 R440): a management flit on VC3 over direction `dir`, or, for `dir` 2 and 3, the receiver of direction `dir` − 2 takes one out of its buffer; what it
carries has its own rows. On a link that is not UP it travels in the clear, uncounted. Link 33 + i is the management port of die i, on which a flit is sealed under
TK(i) and takes no buffer of a link. -/
def execMgmt (link dir : Nat) (s : State) : Out :=
  if 32 ≤ link ∨ 4 ≤ dir then .next s
  else if 2 ≤ dir then .next (s.modDir link (dir - 2) (fun x => x.take 3 0))
  else if s.isHeld link dir 3 0 then .next s
  else .next (s.sendFlit link dir { type := 4, vc := 3 } false)

/-- KEYACK (17 R412 steps 2 and 3), sent on VC3 over direction `dir` for the other direction. -/
def execKeyack (link dir : Nat) (s : State) : Out :=
  if 32 ≤ link ∨ 2 ≤ dir ∨ (s.ldir link (1 - dir)).rekey ≠ 2 then .next s else .next (s.sendFlit link dir { type := 5, vc := 3 } false)

/-- LACK (17 R402), sent over direction `dir` for the flits of the other: AUX names the highest FCNT accepted in order. `nak` 0 only acknowledges; otherwise,
when the receiver has discarded a flit, it carries NAK. A sender that has received a NAK then replays, and the tag of flit number `nak` − 2 fails. -/
def execLack (link dir nak : Nat) (s : State) : Out :=
  if 32 ≤ link ∨ 2 ≤ dir ∨ s.canSend link dir = false then .next s
  else
    let e := 1 - dir
    let go := decide (0 < nak) && (s.ldir link e).nak
    let aux := ((s.ldir link e).exp + 65535) % 65536
    let s1 := (s.modDir link e (fun x => { x with nak := x.nak && !go })).sendFlit link dir { type := 6, nak := go, aux := aux, agen := (s.ldir link e).rgen } false
    .next (if (s1.ldir link e).rewind ∧ (s1.link link).carries = true then s1.replayAll link e (if 2 ≤ nak then some (nak - 2) else none) else s1)

/-- The hops of a route with the CLASS that a flit takes on each (17 R405). -/
def classed (hs : List (Nat × Nat)) : List (Nat × Nat × Nat) := ((List.range hs.length).zip hs).map (fun p => (p.2.1, p.2.2, p.1))

/-- A DRAIN flit crosses a hop at once: the direction can send it, is not held for it, and its receiver has discarded nothing. -/
def State.drainsOver (s : State) (l d cls : Nat) : Bool := s.canSend l d && !s.isHeld l d 3 cls && !(s.ldir l d).nak && !(s.ldir l d).rewind

/-- DRAIN (17 R409): the DRAIN flit clears the old route of the pair, hop by hop, and is acknowledged, and the pair switches to its new route; a route that has
failed gets none. A DRAIN flit that a hop holds waits. -/
def execDrain (src dst : Nat) (s : State) : Out :=
  if 8 ≤ src ∨ 8 ≤ dst ∨ (s.die src).draining.contains dst = false ∨ s.dies.any (fun p => p.2.transit.any (fun f => f.src == src && f.dst == dst)) = true then .next s
  else
    let old := classed (routeLinks src (s.routeOf src dst))
    let up := old.all (fun h => (s.link h.1).carries)
    if up ∧ old.all (fun h => s.drainsOver h.1 h.2.1 h.2.2) = false then .next s
    else
      let s1 := if up then old.foldl (fun s h => s.sendFlit h.1 h.2.1 { type := 7, vc := 3, cls := h.2.2, src := src, dst := dst } false) s else s
      .next ((s1.resend src dst).modDie src (fun x => { x with
        routes := tset x.routes dst (tgetD x.newRoutes dst []), newRoutes := tdel x.newRoutes dst, draining := x.draining.filter (fun k => k != dst) }))

-- Keys and rekeying (R411 to R413).

/-- A rekey of a direction is requested (17 R412). -/
def State.rekeyAsked (s : State) (l d : Nat) : State :=
  if (s.link l).carries then
    (s.modDir l d (fun x => if x.rekey = 0 then { x with rekey := 1 } else { x with again := true })).modLink l (fun x => { x with state := .rekeying })
  else s

/-- FCNT_LIMIT (17 R411): FCNT has reached 2^44 − 2^20. -/
def execFcntLimit (link dir : Nat) (s : State) : Out :=
  if 32 ≤ link ∨ 2 ≤ dir ∨ (s.ldir link dir).fcnt < 2 ^ 44 - 2 ^ 20 ∨ (s.ldir link dir).rekey ≠ 0 then .next s else .next (s.rekeyAsked link dir)

/-- SCHEDULED_REKEY (17 R411). -/
def execScheduledRekey (link dir : Nat) (s : State) : Out := if 32 ≤ link ∨ 2 ≤ dir then .next s else .next (s.rekeyAsked link dir)

/-- LCTL, OP 1 (17 R413). -/
def execLctlRekeyDir0 (link : Nat) (s : State) : Out := if 32 ≤ link then .next s else .next (s.rekeyAsked link 0)

/-- LCTL, OP 2 (17 R413). -/
def execLctlRekeyDir1 (link : Nat) (s : State) : Out := if 32 ≤ link then .next s else .next (s.rekeyAsked link 1)

/-- RETRAIN (17 R413): takes a link that is UP or REKEYING DOWN, and a trellis link that stays QUARANTINED by itself (19 R443); the host link's streams end with it
(DEDUCED, log entry 36). -/
def execRetrain (link : Nat) (s : State) : Out :=
  let alone := isTrellis link && (s.link link).state == .quarantined && (s.link link).attFails == 2 && (s.die (linkEnds link).1).state != .quarantined
    && (s.die (linkEnds link).2).state != .quarantined
  if 33 ≤ link ∨ ((s.link link).carries = false ∧ alone = false) then .next s
  else
    let s1 := (s.linkTo link .down).modLink link (fun x => { x with attFails := 0 })
    .next (if link = 32 then { s1 with tri := { s1.tri with ide := [] } } else s1)

/-- The management ports of the dies at the ends of a link are up (19 R440). -/
def State.portsUp (s : State) (l : Nat) : Bool := (s.die (linkEnds l).1).mgmt && (s.die (linkEnds l).2).mgmt

/-- KEY_DELIVERY (17 R410, R412 step 1), over the management ports (19 R440): a generation 0 key in KEYING, and UP once both directions have one; or K′ of a rekey,
which the receiver installs beside K. Each key is a new one, under a fresh name (R411); those of a scale-out port come from its session (19 R443). -/
def execKeyDelivery (link dir : Nat) (s : State) : Out :=
  if 32 ≤ link ∨ 2 ≤ dir ∨ s.portsUp link = false then .next s
  else
    let k := s.nextId + 1
    let s : State := { s with nextId := k }
    match (s.link link).state with
    | .keying =>
      let s1 := s.modDir link dir (fun x => let k := if isTrellis link then k else x.next; { keyed := true, key := k, rkey := k })
      if (s1.ldir link 0).keyed ∧ (s1.ldir link 1).keyed = true then .next (s1.modLink link (fun x => { x with state := .up })).settleDies else .next s1
    | .rekeying =>
      .next (s.modDir link dir (fun x => if x.rekey = 1 ∧ x.both = false then { x with both := true, next := k, rekey := 2 } else x))
    | _ => .next s

-- Training (R410).

/-- A die that is out of reset (19 R442). -/
def Die.released (x : Die) : Bool := x.state == .measured || x.state == .joined

/-- LINK_ENABLE (17 R410): both end dies being out of reset; a link whose first attestation failed is trained again (19 R443), and the host link trains with its
root port, at a block that is powered whenever the module is (R440). -/
def execLinkEnable (link : Nat) (s : State) : Out :=
  let go := (s.link link).state == .down || s.retrains link
  let out := link == 32 || ((s.die (linkEnds link).1).released && (s.die (linkEnds link).2).released)
  if 33 ≤ link ∨ go = false ∨ out = false ∨ s.power.on = false then .next s
  else .next (s.modLink link (fun x => { x with state := .training, fails := 0 }))

/-- A new epoch of link `l` (19 R439): its end dies that are out of reset receive the new PSK (R443). -/
def State.newEpoch (s : State) (l : Nat) : State :=
  let e := (s.link l).epoch + 1
  [(linkEnds l).1, (linkEnds l).2].foldl (fun s d => if (s.die d).released then s.modDie d (fun x => { x with psks := tset x.psks l e }) else s)
    (s.modLink l (fun x => { x with epoch := e, attested := false }))

/-- TRAINING_COMPLETE (17 R410): the link attests, and when it has attested before in its epoch, under a new one (19 R439). -/
def execTrainingComplete (link : Nat) (s : State) : Out :=
  if (s.link link).state ≠ .training then .next s
  else
    let s1 := if isTrellis link ∧ (s.link link).attested = true then s.newEpoch link else s
    .next (s1.modLink link (fun x => { x with state := .attesting, fails := 0, trains := min (x.trains + 1) 255, attested := true }))

/-- TRAINING_FAILURE (17 R410): after the third in a row the link goes DOWN. -/
def execTrainingFailure (link : Nat) (s : State) : Out :=
  if (s.link link).state ≠ .training then .next s
  else if (s.link link).fails < 2 then .next (s.modLink link (fun x => { x with fails := x.fails + 1 }))
  else .next ((s.linkTo link .down).modLink link (fun x => { x with fails := 0, trains := min (x.trains + 1) 255 }))

-- Send descriptors (R418, R419).

/-- STAIL_WRITE (17 R418). -/
def execStailWrite (port v : Nat) (s : State) : Out :=
  if 16 ≤ port then .next s else .next (s.modLink (16 + port) (fun x => { x with stail := v % 2 ^ 32 }))

/-- Takes up the descriptor at SHEAD (17 R419). -/
def State.takeDescriptor (s : State) (l : Nat) : State :=
  let x := s.link l
  match s.readArea (partyPort (l - 16)) x.pctx (x.sring + 32 * (x.shead % 2 ^ (x.psz + 4))) 32 .read with
  | (.error t, s1) => s1.sendFails l 0 t.cause
  | (.ok d, s1) =>
    let f := fieldOf d
    if f 0 8 % 64 ≠ 0 ∨ f 8 8 % 64 ≠ 0 ∨ f 16 8 % 64 ≠ 0 then s1.sendFails l (f 24 4) 0x13
    else if 2 ^ 36 < f 16 8 ∨ f 28 4 ≠ 0 then s1.sendFails l (f 24 4) 0x52
    else s1.modLink l (fun y => { y with job := some { loc := f 0 8, roff := f 8 8, len := f 16 8, tag := f 24 4 } })

/-- SEND_DESCRIPTOR (17 R419): the port takes up the descriptor at SHEAD; once DATA has sent all its bytes, and the link has acknowledged them, the peer's
acknowledgement completes it. One that breaks a limit is reported. -/
def execSendDescriptor (port : Nat) (s : State) : Out :=
  let l := 16 + port
  let x := s.link l
  if 16 ≤ port ∨ x.carries = false ∨ x.shead = x.stail ∨ (s.ctx x.pctx).state = .free then .next s
  else
    match x.job with
    | none => .next (s.takeDescriptor l)
    | some j => if j.len ≤ j.off ∧ x.dir0.replay.all (fun f => f.type != 1) = true then .next (s.sendDone l) else .next s

end Sys2Proof.Machine
end

