-- ==== Sys2Proof/Machine/Trust.lean ====
section
/-! DEFINITION. The Trifort die (19): die states and resets (R441, R442, 16 R392), link attestation (R443), SPDM (R444), vendor requests (R445),
memory-encryption keys (R446), and module power (25 R488). -/

namespace Sys2Proof.Machine

-- Die reset (R442, 13 R340, 16 R392).

/-- A tenant context that a reset of die `d` affects (16 R392): it runs, is stopped or is loaded there, or has an image in the die's cellar. -/
def State.hitByReset (s : State) (x d : Nat) : Bool :=
  (s.ctx x).kind == 0 && (s.ctx x).state != .free
    && ((s.coresHere x d).any (fun c => s.hasCtx c x) || (s.die d).frames.any (fun f => f.2.ctx == x))

/-- Context `x` takes DIE_RESET with die `d`: one that runs is stopped on its other cores, none of its dies is ready, its collective instances are discarded
(18 R423), and with the images on that die go their inboxes. -/
def State.resetCtx (s : State) (x d : Nat) : State :=
  let s1 := (if (s.ctx x).state = .running ∨ (s.ctx x).stop.isSome = true then s.beginStop x {} else s).faultCtx x 0xB1
  let s2 := ((s1.coresHere x d).filter (fun c => (tget (s.ctx x).parked (s.seatNo x c)).isNone)).foldl (fun s c => s.dropInbox x c) s1
  let s3 := (s.groupsOf x).foldl (fun s g => s.modGroup g.1 (fun G => { G with insts := [] })) s2
  s3.modCtx x (fun c => { c with rdy := 0 })

/-- The supervisor's group with a member on the sequencer of a die that resets ends, and its LAUNCH takes DIE_RESET (DEDUCED, log entry 44). -/
def State.loseSequencer (s : State) (d : Nat) : State :=
  let g := (s.mem (512 + d)).group
  if (s.seat (512 + d)).present then ((s.group g).alive.foldl (fun s r => s.retireRank g r) s).endGroup g true 0xB1 else s

/-- What other dies count toward a die that resets starts afresh. -/
def Die.forget (x : Die) (d : Nat) : Die :=
  { x with
    eseqTx := x.eseqTx.filter (fun p => p.1 / 4 != d), eseqAck := x.eseqAck.filter (fun p => p.1 / 4 != d)
    eseqRx := x.eseqRx.filter (fun p => p.1 / 4 != d), kept := x.kept.filter (fun f => f.dst != d) }

/-- A die with no route to any die. -/
def noRoutes : Tab (List Nat) := (List.range 8).map (fun t => (t, []))

/-- Where a link goes when a die at its end enters reset: the host link keeps only what R415 lets pass before its stream is keyed. -/
def resetLink (l : Nat) : LinkState := if l = 32 then .attesting else .reset

/-- Clears bit `d`. -/
def clearBit (m d : Nat) : Nat := if bit m d then m - 2 ^ d else m

/-- Die `d` is no longer waited for by the running key request. -/
def State.unwaitKey (s : State) (d : Nat) : State :=
  { s with tri := { s.tri with req := s.tri.req.map (fun r => (r.1, r.2.1, r.2.2.1, clearBit r.2.2.2 d)) } }

/-- A die that is released writes its HBM stacks with the raw zero pattern (25 R488 step 4), also when it has reset (R489; DEDUCED, log entry 45): nothing stands
there as written, and a parked image with a page there will not verify (16 R386). -/
def State.zeroHbm (s : State) (d : Nat) : State :=
  let lost := fun (m : Image) => m.pages.any (fun l => l.tgt == 0 && homeDie l.pa == d)
  { s with
    hbm := s.hbm.filter (fun p => homeDie p.1 != d), hbmKey := s.hbmKey.filter (fun p => homeDie (16 * p.1) != d)
    ctxs := tmap (fun _ (c : Ctx) => { c with parked := tmap (fun _ m => { m with lost := m.lost || lost m }) c.parked }) s.ctxs }

/-- A die enters reset (19 R442): its cores, caches, queues and error register are cleared, with the writes that its memory ports, ordering point and L1s hold
(13 R340), its links go RESET, and R314 and R392 act. Its HBM keeps its contents until the die is released (`State.zeroHbm`). -/
def State.resetDie (s : State) (d : Nat) : State :=
  let xs := ((s.ctxs.map (fun p => p.1)).filter (fun x => s.hitByReset x d))
  let s1 := xs.foldl (fun s x => s.resetCtx x d) (s.loseSequencer d)
  let s2 := ((List.range 64).map (fun n => 64 * d + n) ++ [512 + d]).foldl (fun s c => s.setCore c {}) s1
  let s2 := s2.dropTransit (fun f => f.src == d || f.dst == d)
  let s3 : State := { s2 with dies := tmap (fun _ (x : Die) => x.forget d) s2.dies }
  let s4 := s3.modDie d (fun _ => { state := .resetting, routes := noRoutes })
  let s5 := (linksOf d).foldl (fun s l => s.linkTo l (resetLink l)) s4
  let s6 := s5.invals.foldl (fun s p => s.ackInval p.1 d true) s5
  let s7 : State := { s6 with tri := { s6.tri with
    keys := tmap (fun _ (k : KeyEnt) => { k with dies := clearBit k.dies d }) s6.tri.keys
    ide := if d = 0 then [] else s6.tri.ide, measuring := if s6.tri.measuring = some d then none else s6.tri.measuring } }
  (s7.unwaitKey d).refreshKernels

-- Measurement (R441).

/-- The Trifort die measures the next die that is held in reset, one at a time (19 R442), with a fresh nonce (R441). -/
def State.nextMeasure (s : State) : State :=
  if s.tri.measuring.isSome ∨ s.tri.exh = true then s
  else
    match (List.range 8).find? (fun d => (s.die d).state == .heldReset) with
    | some d =>
      let (r, s1) := s.freeNat
      { s1 with tri := { s1.tri with measuring := some d, measT0 := s1.ptc, nonce := r % 2 ^ 256 } }
    | none => s

/-- A link of a die that has left reset: beside a QUARANTINED die it is QUARANTINED (17 R410); otherwise it trains once both its ends have left reset, and stays
QUARANTINED after a second attestation failure (19 R443). -/
def State.linkReleased (s : State) (l : Nat) : State :=
  let a := s.die (linkEnds l).1
  let b := s.die (linkEnds l).2
  if (s.link l).state ≠ .reset then s
  else if a.state = .quarantined ∨ b.state = .quarantined then s.modLink l (fun x => { x with state := .quarantined })
  else if a.released = false ∨ b.released = false then s
  else s.modLink l (fun x => { x with state := if 2 ≤ x.attFails then .quarantined else .training, fails := 0 })

/-- Die `d` passes: it takes the nonce of its TK, the keys and the PSKs of its links, and leaves reset; it zeroes its HBM, and its links train (19 R441, R442, R446,
25 R488). -/
def State.diePasses (s : State) (d : Nat) : State :=
  let (r, s0) := s.freeNat
  let s1 := (s0.zeroHbm d).modDie d (fun x => { x with
    state := .measured, tkn := r % 2 ^ 256, psks := ((linksOf d).filter isTrellis).map (fun l => (l, (s.link l).epoch)) })
  let s2 : State := { s1 with tri := { s1.tri with measuring := none, keys := tmap (fun _ (k : KeyEnt) => { k with dies := orBit k.dies d }) s1.tri.keys } }
  ((linksOf d).foldl (fun s l => s.linkReleased l) s2).settleDies.nextMeasure

/-- Die `d` fails: it stays in reset, QUARANTINED with its links (19 R442, 17 R410). -/
def State.dieFails (s : State) (d : Nat) : State :=
  let s1 := s.modDie d (fun x => { x with state := .quarantined })
  let s2 : State := { s1 with tri := { s1.tri with measuring := none } }
  (((linksOf d).filter (fun l => l != 32)).foldl (fun s l => s.linkTo l .quarantined) s2).settleDies.nextMeasure

/-- MEASUREMENT_REPLY (19 R441): the reply of the die under measurement, DIEID, M and T in turn as one number, is judged; one that comes after 1 ms is too late. -/
def execMeasurementReply (die reply : Nat) (s : State) : Out :=
  if s.tri.measuring ≠ some die ∨ (s.die die).mgmt = false then .next s
  else .next (if s.ptc ≤ s.tri.measT0 + 1000000 ∧ dieJudged die s.tri.nonce (reply % 2 ^ 64) (reply / 2 ^ 64 % 2 ^ 256) (reply / 2 ^ 320) = true then s.diePasses die else s.dieFails die)

/-- MEASUREMENT_TIMEOUT (19 R441): a die that does not reply within 1 ms fails. -/
def execMeasurementTimeout (die : Nat) (s : State) : Out :=
  if s.tri.measuring ≠ some die ∨ s.ptc < s.tri.measT0 + 1000000 then .next s else .next (s.dieFails die)

/-- DIE_RESET_COMPLETE (19 R442): the epochs of the die's links advance, and it is measured again. A failure of attestation counts within its epoch; a link that
failed twice stays QUARANTINED until LCTL RETRAIN (R443). -/
def execDieResetComplete (die : Nat) (s : State) : Out :=
  if (s.die die).state ≠ .resetting then .next s
  else
    let s1 := s.modDie die (fun x => { x with state := .heldReset })
    .next ((linksOf die).foldl (fun s l => (s.newEpoch l).modLink l (fun x => { x with attFails := if x.attFails = 2 then 2 else 0 })) s1).nextMeasure

-- Attestation of links (R443).

/-- PSK_EXCHANGE (19 R443). -/
def execPskExchange (link : Nat) (s : State) : Out :=
  if isTrellis link = false ∨ (s.link link).state ≠ .attesting then .next s else .next (s.modLink link (fun x => { x with exchange := true }))

/-- The exchange fails (17 R410, 19 R443) and the link is QUARANTINED: the first time the epoch advances, and the Trifort die trains the link again
(LINK_ENABLE); the second time both end dies are reset and measured again. -/
def State.attestFails (s : State) (l : Nat) : State :=
  if (s.link l).attFails = 0 then
    ((s.linkTo l .quarantined).newEpoch l).modLink l (fun x => { x with attFails := 1 })
  else
    let s1 := (s.linkTo l .quarantined).modLink l (fun x => { x with attFails := 2 })
    (s1.resetDie (linkEnds l).1).resetDie (linkEnds l).2

-- SPDM (R444).

/-- Kinds of response on the DOE mailbox (PRESUMED, log entry 46). -/
def respError : Nat := 0
def respVendor : Nat := 13

/-- Answers a request. -/
def State.respond (s : State) (r : List Nat) : State := { s with tri := { s.tri with resp := s.tri.resp ++ [r] } }

/-- Errors of the responder: UnsupportedRequest, ResetRequired, UnexpectedRequest, InvalidRequest, SessionLimitExceeded, DecryptError. -/
def errUnsupported : Nat := 1
def errResetRequired : Nat := 2
def errUnexpected : Nat := 3
def errInvalid : Nat := 4
def errSessionLimit : Nat := 5
def errDecrypt : Nat := 6
def State.spdmError (s : State) (e : Nat) : State := s.respond [respError, e]

/-- The host link carries anything: it has begun to train (17 R415). -/
def State.hostTrains (s : State) : Bool := (s.link 32).state != .down

/-- The DOE mailbox answers: the module is on and the host link carries DOE traffic (17 R414, R415). -/
def State.doeUp (s : State) : Bool := s.power.on && s.hostTrains

/-- Whether the responder answers requests beyond GET_VERSION and GET_CAPABILITIES (19 R438): the module is not HALTED. -/
def State.responds (s : State) : Bool := s.doeUp && !s.tri.exh

/-- A response `r` that needs a signature (19 R438), with the responder's key TOPPUB (R444): the next unused leaf of the boot tree, or ResetRequired when they are
spent. CHUNK_GET gives its parts. -/
def State.signed (s : State) (r : List Nat) (f : State → State) : State :=
  if s.tri.lsig = 0 then s.spdmError errResetRequired
  else
    let full := r ++ [leNat topPub, leNat (hssSign s.tri.boots (32768 - s.tri.lsig) r)]
    (f { s with tri := { s.tri with lsig := s.tri.lsig - 1, large := full } }).respond full

/-- GET_VERSION (19 R444): version 1.3. -/
def execGetVersion (s : State) : Out :=
  if s.doeUp = false then .next s
  else .next (({ s with tri := { s.tri with version := true, caps := false, algs := false } } : State).respond [1, 0x13])

/-- The capabilities that R444 gives the responder, as SPDM 1.3 numbers them (PRESUMED, log entry 46): CHAL, MEAS with signature, ENCRYPT, MAC, MUT_AUTH, KEY_EX,
HBEAT, KEY_UPD, PUB_KEY_ID, CHUNK. -/
def capFlags : Nat := [2, 4, 6, 7, 8, 9, 13, 14, 16, 17].foldl (fun a k => a + 2 ^ k) 0

/-- GET_CAPABILITIES (19 R444). -/
def execGetCapabilities (s : State) : Out :=
  if s.doeUp = false then .next s
  else if s.tri.version = false then .next (s.spdmError errUnexpected)
  else .next (({ s with tri := { s.tri with caps := true } } : State).respond [2, capFlags])

/-- NEGOTIATE_ALGORITHMS (19 R444): each operand is 1 when the requester offers the algorithm that the responder supports. -/
def execNegotiateAlgorithms (asym hash dhe aead : Nat) (s : State) : Out :=
  if s.responds = false then .next s
  else if s.tri.caps = false then .next (s.spdmError errUnexpected)
  else if asym ≠ 1 ∨ hash ≠ 1 ∨ dhe ≠ 1 ∨ aead ≠ 1 then .next (s.spdmError errInvalid)
  else .next (({ s with tri := { s.tri with algs := true } } : State).respond [3, 0xFFD2])

/-- A request that follows the negotiation. -/
def State.negotiated (s : State) (f : State) : Out :=
  if s.responds = false then .next s else if s.tri.algs = false then .next (s.spdmError errUnexpected) else .next f

/-- CHALLENGE (19 R444). -/
def execChallenge (slot : Nat) (s : State) : Out := s.negotiated (s.signed [4, slot] id)

/-- The bytes of the owner-root slots and REVOKE (19 R437). -/
def Trifort.rootBytes (t : Trifort) : List Byte :=
  (List.range 8).flatMap (fun j => leBytes 60 (tgetD t.slots j {}).key ++ leBytes 1 (tgetD t.slots j {}).kind) ++ leBytes 1 t.revoke

/-- A measurement by index (19 R444). -/
def State.measurement (s : State) (i : Nat) : Option Nat :=
  if i = 1 then some Config.romd
  else if 2 ≤ i ∧ i ≤ 9 then some (if (s.die (i - 2)).released then dieMeasure (i - 2) else 0)
  else if i = 10 then some (leNat (sha256 s.tri.rootBytes))
  else if i = 11 then some s.tri.boots
  else none

/-- The measurements a request names: 0 asks how many there are, 255 for all. -/
def State.measurements (s : State) (i : Nat) : Option (List Nat) :=
  if i = 0 then some [11] else if i = 255 then some ((List.range 11).filterMap (fun k => s.measurement (k + 1))) else (s.measurement i).map (fun v => [v])

/-- GET_MEASUREMENTS (19 R444): signed when `sig` is 1. -/
def execGetMeasurements (idx sig : Nat) (s : State) : Out :=
  match s.measurements idx with
  | none => s.negotiated (s.spdmError errInvalid)
  | some vs => s.negotiated (if sig = 1 then s.signed ([5, idx] ++ vs) id else s.respond ([5, idx] ++ vs))

/-- An owner root that is programmed, not revoked, and of one of some kinds (19 R437, R445): 1 host, 2 peer, 3 both. -/
def Trifort.rootOk (t : Trifort) (slot : Nat) (kinds : List Nat) : Bool := kinds.contains (tgetD t.slots slot {}).kind && !bit t.revoke slot

/-- KEY_EXCHANGE between the Trifort dies of two packages over scale-out link `l` that attests (19 R443): the peer names the slot of its root. -/
def State.peerExchange (s : State) (l slot : Nat) : State :=
  if l < 16 ∨ 32 ≤ l ∨ (s.link l).state ≠ .attesting ∨ s.tri.exh = true then s else s.modLink l (fun x => { x with peer := some slot })

/-- KEY_EXCHANGE (19 R444): opens a session for the requester of slot `who % 256`; at most 4 sessions stand. With `who / 256` not 0 it is that of the peer on
that scale-out link. -/
def execKeyExchange (who : Nat) (s : State) : Out :=
  if who / 256 ≠ 0 then .next (s.peerExchange (who / 256) (who % 256))
  else s.negotiated (match (List.range 4).find? (fun k => (tget s.tri.sessions k).isNone) with
    | none => s.spdmError errSessionLimit
    | some k => s.signed [6, k] (fun s => { s with tri := { s.tri with sessions := tset s.tri.sessions k { slot := who % 256 } } }))

/-- A session request: its session must stand. -/
def State.inSession (s : State) (ses : Nat) (f : Session → State) : Out :=
  if s.responds = false then .next s
  else
    match tget s.tri.sessions ses with
    | none => .next (s.spdmError errInvalid)
    | some x => .next (f x)

def State.setSession (s : State) (ses : Nat) (x : Session) : State := { s with tri := { s.tri with sessions := tset s.tri.sessions ses x } }
def State.dropSession (s : State) (ses : Nat) : State := { s with tri := { s.tri with sessions := tdel s.tri.sessions ses } }

/-- FINISH between the Trifort dies of two packages over scale-out link `l` (17 R410, R418, 19 R443): once the peer has proved its root, the export master secret of
the session gives the port's two keys, under fresh names. -/
def State.peerFinish (s : State) (l ok : Nat) : State :=
  if l < 16 ∨ 32 ≤ l ∨ (s.link l).state ≠ .attesting then s
  else if ok = 1 ∧ ((s.link l).peer.any (fun j => s.tri.rootOk j [2, 3])) = true then
    ({ s with nextId := s.nextId + 2 } : State).modLink l (fun x => { x with state := .keying, dir0 := { next := s.nextId + 1 }, dir1 := { next := s.nextId + 2 } })
  else (s.linkTo l .quarantined).settleDies

/-- FINISH (19 R444): mutual authentication of a session; `ses` from 16 to 31 names the scale-out link of a peer's FINISH. -/
def execFinish (ses ok : Nat) (s : State) : Out :=
  if 16 ≤ ses then .next (s.peerFinish ses ok)
  else s.inSession ses (fun x =>
    if ok = 1 ∧ s.tri.rootOk x.slot [1, 2, 3] = true then (s.setSession ses { x with auth := true }).respond [7, ses]
    else (s.dropSession ses).spdmError errDecrypt)

/-- HEARTBEAT (19 R444). -/
def execHeartbeat (ses : Nat) (s : State) : Out := s.inSession ses (fun _ => s.respond [8, ses])

/-- KEY_UPDATE (19 R444). -/
def execKeyUpdate (ses : Nat) (s : State) : Out := s.inSession ses (fun x => (s.setSession ses { x with gen := x.gen + 1 }).respond [9, ses])

/-- END_SESSION (19 R444). -/
def execEndSession (ses : Nat) (s : State) : Out := s.inSession ses (fun _ => (s.dropSession ses).respond [10, ses])

/-- CHUNK_GET (19 R444): the parts of a signed response are given in order, each a number of it, and whether it is the last (DESIGN CHOICE, log entry 46). -/
def execChunkGet (handle seq : Nat) (s : State) : Out :=
  if s.responds = false then .next s
  else if tgetD s.tri.chunks (2 * handle + 1) 0 ≠ seq ∨ s.tri.large.length ≤ seq then .next (s.spdmError errInvalid)
  else
    let last := decide (seq + 1 = s.tri.large.length)
    .next (({ s with tri := { s.tri with chunks := if last then tdel s.tri.chunks (2 * handle + 1) else tset s.tri.chunks (2 * handle + 1) (seq + 1) } } : State).respond
      [12, handle, seq, s.tri.large.getD seq 0, b2n last])

/-- UNSUPPORTED_REQUEST (19 R444). -/
def execUnsupportedRequest (_code : Nat) (s : State) : Out := if s.responds = false then .next s else .next (s.spdmError errUnsupported)

/-- IDE_KM (17 R415): keys a selective stream inside a mutually authenticated session; with stream 0 the host link is UP. -/
def execIdeKm (ses stream : Nat) (s : State) : Out :=
  s.inSession ses (fun x =>
    let h := (s.link 32).state
    if x.auth = false ∨ 4 ≤ stream ∨ (h ≠ .attesting ∧ h ≠ .up) then s.spdmError errInvalid
    else
      let s1 : State := { s with tri := { s.tri with ide := addOnce s.tri.ide stream } }
      let s2 := if stream = 0 then s1.modLink 32 (fun y => { y with state := .up }) else s1
      (if s2.hostKeyed ∧ s2.fmask = false then s2.sendPending else s2).respond [14, stream])

-- Vendor requests (R445, R446).

/-- TSTAT (19 R447). -/
def State.tstat (s : State) : Nat :=
  let mask := fun (p : DieState) => (List.range 8).foldl (fun m d => m + b2n ((s.die d).state == p) * 2 ^ d) 0
  s.tri.lsig % 65536 * 2 ^ 48 + s.tri.boots % 65536 * 2 ^ 32 + mask .quarantined * 2 ^ 24 + mask .joined * 2 ^ 16 + 8 * b2n s.tri.exh + s.tri.phase

/-- Statuses of a vendor response. -/
def stOk : Nat := 0
def stBusy : Nat := 1
def stInvalid : Nat := 2
def stDenied : Nat := 3
/-- EXHAUSTED: no rule says when a vendor request gets it. -/
def stExhausted : Nat := 4
def State.vendorSays (s : State) (st : Nat) : State := s.respond [respVendor, st]

/-- Whether a session may make vendor requests (19 R445). -/
def State.mayVendor (s : State) (ses : Nat) : Bool :=
  match tget s.tri.sessions ses with
  | some x => x.auth && s.tri.rootOk x.slot [1, 3]
  | none => false

/-- The dies that are MEASURED or JOINED, as a mask. -/
def State.releasedMask (s : State) : Nat := (List.range 8).foldl (fun m d => m + b2n (s.die d).released * 2 ^ d) 0

/-- KEYSET (19 R446): INVALID or BUSY, or the entry takes the key and goes to every die. -/
def State.doKeyset (s : State) (ses key x mode v : Nat) : State :=
  if key = 0 ∨ 256 ≤ key ∨ 256 ≤ x ∨ 1 < mode then s.vendorSays stInvalid
  else if (tget s.tri.keys key).isSome then s.vendorSays stBusy
  else if (s.ctx x).state = .free ∨ (s.ctx x).kind = 1 then s.vendorSays stInvalid
  else
    let (r, s1) := s.freeNat
    let val := if mode = 0 then drawnKey (r % 2 ^ 512) else givenKey v
    { s1 with tri := { s1.tri with keys := tset s1.tri.keys key { val := val, ctx := x }, req := some (1, ses, key, s1.releasedMask) } }

/-- KEYRETIRE (19 R446): INVALID, or the invalidation after which each die drops the key. -/
def State.doKeyretire (s : State) (ses key : Nat) : State :=
  match tget s.tri.keys key with
  | some e =>
    if key = 0 then s.vendorSays stInvalid
    else
      let s1 := s.invalidate { core := 0x3FF, kind := 1, ctx := e.ctx, arg := key, after := 2 }
      { s1 with tri := { s1.tri with req := some (2, ses, key, allDies) } }
  | none => s.vendorSays stInvalid

/-- ROOTADD (19 R445). -/
def State.doRootadd (s : State) (slot kind v : Nat) : State :=
  if slot = 0 ∨ 8 ≤ slot ∨ kind = 0 ∨ 3 < kind ∨ (tgetD s.tri.slots slot {}).kind ≠ 0 ∨ bit s.tri.revoke slot = true then s.vendorSays stInvalid
  else ({ s with tri := { s.tri with slots := tset s.tri.slots slot { kind := kind, key := v % 2 ^ 480 } } } : State).vendorSays stOk

/-- ROOTREVOKE (19 R445): the last host-kind slot that is not revoked stays. -/
def State.doRootrevoke (s : State) (slot : Nat) : State :=
  let hosts := (List.range 8).filter (fun j => s.tri.rootOk j [1, 3])
  if 8 ≤ slot ∨ hosts = [slot] then s.vendorSays stInvalid
  else
    ({ s with tri := { s.tri with revoke := orBit s.tri.revoke slot, sessions := s.tri.sessions.filter (fun p => p.2.slot != slot) } } : State).vendorSays stOk

/-- A die that is QUARANTINED, and so still held in reset, resets: only its links change (17 R410, 19 R442). -/
def State.resetQuarantined (s : State) (d : Nat) : State :=
  (linksOf d).foldl (fun s l => s.linkTo l (resetLink l)) (s.modDie d (fun x => { x with state := .resetting }))

/-- DIERESET (19 R442, R445). -/
def State.doDiereset (s : State) (d : Nat) : State :=
  if d = 0 ∨ 8 ≤ d then s.vendorSays stInvalid
  else if (s.die d).released then (s.resetDie d).vendorSays stOk
  else if (s.die d).state = .quarantined then (s.resetQuarantined d).vendorSays stOk
  else s.vendorSays stBusy

/-- A vendor request `op :: session :: operands` is performed (19 R445); `op` 0 is a payload that breaks the table, and gets INVALID. -/
def State.perform (s : State) (r : List Nat) : State :=
  let a := fun (i : Nat) => r.getD i 0
  if s.mayVendor (a 1) = false then s.vendorSays stDenied
  else
    match a 0 with
    | 1 => s.doKeyset (a 1) (a 2) (a 3) (a 4) (a 5)
    | 2 => s.doKeyretire (a 1) (a 2)
    | 3 => s.doRootadd (a 2) (a 3) (a 4)
    | 4 => s.doRootrevoke (a 2)
    | 5 => s.doDiereset (a 2)
    | 6 => s.respond [respVendor, stOk, s.tstat]
    | _ => s.vendorSays stInvalid

/-- The running key request completes when no die is waited for (19 R446). -/
def State.keyDone (s : State) : State :=
  match s.tri.req with
  | some (op, _, key, 0) =>
    let s1 : State := { s with tri := { s.tri with req := none } }
    if op = 1 then s1.vendorSays stOk
    else
      match s1.invals.find? (fun p => p.2.after == 2 && p.2.arg == key) with
      | some (i, v) =>
        if v.over then ({ s1 with invals := tdel s1.invals i, tri := { s1.tri with keys := tdel s1.tri.keys key } } : State).vendorSays stOk else s
      | none => s1.vendorSays stOk
  | _ => s

/-- Requests that wait are performed in arrival order while none runs (19 R445). -/
def State.drainReqs (s : State) (n : Nat) : State :=
  match n with
  | 0 => s
  | k + 1 =>
    let s1 := s.keyDone
    if s1.tri.req.isSome then s1
    else
      match s1.tri.reqq with
      | [] => s1
      | r :: rs => (({ s1 with tri := { s1.tri with reqq := rs } } : State).perform r).drainReqs k

/-- A vendor request arrives (19 R445). -/
def State.vendor (s : State) (r : List Nat) : Out :=
  if s.responds = false then .next s
  else
    let s1 : State := { s with tri := { s.tri with reqq := s.tri.reqq ++ [r] } }
    .next (s1.drainReqs (s1.tri.reqq.length + 1))

/-- KEYSET (19 R446). -/
def execKeyset (ses key ctx mode val : Nat) (s : State) : Out := s.vendor [1, ses, key, ctx, mode, val]

/-- KEYRETIRE (19 R446). -/
def execKeyretire (ses key : Nat) (s : State) : Out := s.vendor [2, ses, key]

/-- ROOTADD (19 R445). -/
def execRootadd (ses slot kind val : Nat) (s : State) : Out := s.vendor [3, ses, slot, kind, val]

/-- ROOTREVOKE (19 R445). -/
def execRootrevoke (ses slot : Nat) (s : State) : Out := s.vendor [4, ses, slot]

/-- DIERESET (19 R445). -/
def execDiereset (ses die : Nat) (s : State) : Out := s.vendor [5, ses, die]

/-- STATUS (19 R445). -/
def execStatus (ses : Nat) (s : State) : Out := s.vendor [6, ses]

/-- DIE_KEY_ACK (19 R446): die `die` acknowledges the running KEYSET, from when its walks use the key, or the running KEYRETIRE, once it has
acknowledged the invalidation, from when they no longer do. -/
def execDieKeyAck (die : Nat) (s : State) : Out :=
  match s.tri.req with
  | none => .next s
  | some (op, ses, key, wait) =>
    let ready := op == 1 || s.invals.any (fun p => p.2.after == 2 && p.2.arg == key && bit p.2.acked die)
    if bit wait die = false ∨ ready = false then .next s
    else
      let s1 : State := { s with tri := { s.tri with
        req := some (op, ses, key, wait - 2 ^ die)
        keys := match tget s.tri.keys key with
          | some e => tset s.tri.keys key { e with dies := if op = 1 then orBit e.dies die else clearBit e.dies die }
          | none => s.tri.keys } }
      .next (s1.drainReqs (s1.tri.reqq.length + 1))

-- Resets that the device starts itself.

/-- CONTROL_LOGIC_FAULT (19 R442). -/
def execControlLogicFault (die : Nat) (s : State) : Out :=
  if 8 ≤ die ∨ (s.die die).released = false then .next s else .next ((s.resetDie die).drainReqs (s.tri.reqq.length + 1))

/-- Both ends of link `l` hold its PSK of the present epoch, as only dies that were measured do (19 R443). -/
def State.holdPsk (s : State) (l : Nat) : Bool :=
  [(linkEnds l).1, (linkEnds l).2].all (fun d => (s.die d).released && tgetD (s.die d).psks l 0 == (s.link l).epoch)

/-- PSK_FINISH (19 R443): under PSK(L, e), which both ends must hold. -/
def execPskFinish (link ok : Nat) (s : State) : Out :=
  let x := s.link link
  if isTrellis link = false ∨ x.state ≠ .attesting ∨ x.exchange = false then .next s
  else if ok = 1 ∧ s.holdPsk link = true then .next (s.modLink link (fun x => { x with state := .keying, exchange := false, attFails := 0 }))
  else .next ((s.attestFails link).drainReqs (s.tri.reqq.length + 1))

-- Module power (25 R488).

-- Requests in chunks (R444, R445).

/-- A VENDOR_DEFINED_REQUEST payload of session `ses` as the request it makes (19 R445): OP, a zero byte, the body's length, the body. `[0, ses]` is one that breaks
the table, an unknown OP among them (DESIGN CHOICE, log entry 46). -/
def vendorPayload (ses : Nat) (bs : List Byte) : List Nat :=
  let f := fieldOf bs
  let n := f 2 2
  let b := fun (i : Nat) => f (4 + i) 1
  if bs.length ≠ 4 + n ∨ f 1 1 ≠ 0 then [0, ses]
  else
    match f 0 1, n with
    | 1, 3 => if b 2 = 1 then [0, ses] else [1, ses, b 0, b 1, b 2, 0]
    | 1, 67 => if b 2 = 1 then [1, ses, b 0, b 1, 1, f 7 64] else [0, ses]
    | 2, 1 => [2, ses, b 0]
    | 3, 62 => [3, ses, b 0, b 1, f 6 60]
    | 4, 1 => [4, ses, b 0]
    | 5, 1 => [5, ses, b 0]
    | 6, 0 => [6, ses]
    | _, _ => [0, ses]

/-- A request that came in chunks is answered (19 R444): its code as SPDM 1.3 numbers them, then the operands of its row, or for VENDOR_DEFINED_REQUEST the session
and the payload (PRESUMED, log entry 46). -/
def State.request (s : State) (bs : List Byte) : Out :=
  let a := fun (i : Nat) => fieldOf bs i 1
  match a 0 with
  | 0x84 => execGetVersion s
  | 0xE1 => execGetCapabilities s
  | 0xE3 => execNegotiateAlgorithms (a 1) (a 2) (a 3) (a 4) s
  | 0x83 => execChallenge (a 1) s
  | 0xE0 => execGetMeasurements (a 1) (a 2) s
  | 0xE4 => execKeyExchange (a 1) s
  | 0xE5 => execFinish (a 1) (a 2) s
  | 0xE8 => execHeartbeat (a 1) s
  | 0xE9 => execKeyUpdate (a 1) s
  | 0xEC => execEndSession (a 1) s
  | 0xFE => s.vendor (vendorPayload (a 1) (bs.drop 2))
  | c => execUnsupportedRequest c s

/-- CHUNK_SEND (19 R444): chunks of a request come in order; the last one, of which bit 0 of `chunk` is set, completes the request, which is then answered. Bits
[16:1] of it are the number of the chunk's bytes, and the bits above the bytes. -/
def execChunkSend (handle seq chunk : Nat) (s : State) : Out :=
  if s.responds = false then .next s
  else if tgetD s.tri.chunks (2 * handle) 0 ≠ seq then .next (s.spdmError errInvalid)
  else
    let bs := tgetD s.tri.parts handle [] ++ leBytes (chunk / 2 % 2 ^ 16) (chunk / 2 ^ 17)
    let last := decide (chunk % 2 = 1)
    let s1 : State := { s with tri := if last
      then { s.tri with chunks := tdel s.tri.chunks (2 * handle), parts := tdel s.tri.parts handle }
      else { s.tri with chunks := tset s.tri.chunks (2 * handle) (seq + 1), parts := tset s.tri.parts handle bs } }
    if last then (s1.respond [11, handle, seq]).request bs else .next (s1.respond [11, handle, seq])

-- Module power (25 R488).

/-- Power returns (25 R488 step 1): the Trifort die runs its boot ROM, every C-die is HELD and its management port up, and the host link begins training. -/
def State.powerOn (s : State) : State :=
  { s with
    power := { on := true }
    dies := (List.range 8).map (fun d => (d, { state := .heldReset, routes := noRoutes }))
    links := (List.range 33).map (fun l => (l, { state := if l = 32 then .training else .down }))
    tri := { s.tri with phase := 0, exh := false, lsig := 0, keys := [] } }

/-- The boot ROM burns a BOOTCNT bit, builds the boot tree and derives the keys (25 R488 step 2), and C-die 0 is measured first; with every bit burnt the module is
HALTED (19 R438). -/
def State.bootRom (s : State) : State :=
  let exh := decide (32768 ≤ s.tri.boots)
  let n := if exh then s.tri.boots else s.tri.boots + 1
  ({ s with tri := { s.tri with
    phase := if exh then 3 else 1, exh := exh, boots := n, lsig := if exh then 0 else 32768
    keys := if exh then [] else [(0, { val := supKey n, ctx := 256 })] } } : State).nextMeasure

/-- POWER_UP (25 R488): step 1 while the power is off, and step 2 in a later turn, while PHASE is ROM. -/
def execPowerUp (s : State) : Out :=
  .next (if s.power.on = false then s.powerOn else if s.tri.phase = 0 then s.bootRom else s)

/-- POWER_OFF (25 R488): all but fuses and OTP bits is lost; host and CXL memory stand outside the module. -/
def execPowerOff (s : State) : Out :=
  .next {
    dies := (List.range 8).map (fun d => (d, { state := .off, routes := noRoutes, mgmt := false })), hostMem := s.hostMem, cxlMem := s.cxlMem
    tri := { phase := 0, boots := s.tri.boots, lsig := 0, slots := s.tri.slots, revoke := s.tri.revoke, resp := s.tri.resp }
    power := { on := false }, irqs := s.irqs, reads := s.reads, nextId := s.nextId, fresh := s.fresh, agenda := s.agenda }

end Sys2Proof.Machine
end

