-- ==== Sys2Proof/Machine/HostIf.lean ====
section
/-! DEFINITION. The host's register writes (00 R10; 15 R356, R358; 16 R374; 17 R413, R416, R418; 25 R490 to R496), its accesses to memory (13 R327,
R338), the forwarding of writes (13 R330), and the instruction whose OP is unassigned (03 R88). -/

namespace Sys2Proof.Machine

/-- A write to the control block of queue `q` (15 R356, R358). -/
def State.writeQueueBlock (s : State) (q off v : Nat) : Out :=
  match off with
  | 0x00 => .next (s.modQueue q (fun x => { x with qbase := v / 4096 * 4096 }))
  | 0x08 => .next (s.modQueue q (fun x => { x with jbase := v / 4096 * 4096 }))
  | 0x10 => execQcfgWrite q v s
  | 0x20 =>
    match v % 8 with
    | 1 => execQctlEnable q s
    | 2 => execQctlPause q s
    | 3 => execQctlResume q s
    | 4 => execQctlReset q s
    | 5 => execQctlRewind q (bits v 63 32) s
    | _ => .next s
  | _ => .next s

/-- A write to the control block of context `x` (16 R374). -/
def State.writeCtxBlock (s : State) (x off v : Nat) : Out :=
  match off with
  | 0x00 => execCdescWrite x v s
  | 0x08 =>
    match v % 8 with
    | 1 => execCreate x s
    | 2 => execBind x s
    | 3 => execUnbind x s
    | 4 => execRebind x s
    | 5 => execClear x s
    | 6 => execDiscard x s
    | 7 => execDestroy x s
    | _ => .next s
  | _ => .next s

/-- A write to the register block of link `l` (17 R413, R418). -/
def State.writeLinkBlock (s : State) (l off v : Nat) : Out :=
  let port := decide (16 ≤ l ∧ l < 32)
  match off with
  | 0x08 =>
    match v % 4 with
    | 1 => execLctlRekeyDir0 l s
    | 2 => execLctlRekeyDir1 l s
    | 3 => execRetrain l s
    | _ => .next s
  | 0x10 =>
    if port ∧ (s.link l).shead = (s.link l).stail then
      .next (s.modLink l (fun x => { x with pctx := bits v 15 8, psz := min 12 (bits v 3 0) }))
    else if port then .next (s.modLink l (fun x => { x with psz := min 12 (bits v 3 0) }))
    else .next s
  | 0x18 => if port then .next (s.modLink l (fun x => { x with sring := v / 4096 * 4096 })) else .next s
  | 0x20 => if port then execStailWrite (l - 16) v s else .next s
  | 0x30 => if port then .next (s.modLink l (fun x => { x with rwin := v / 65536 * 65536 })) else .next s
  | 0x38 => if port then .next (s.modLink l (fun x => { x with rlen := v })) else .next s
  | _ => .next s

/-- A write to the time-base block (25 R493). -/
def State.writeTimeBlock (s : State) (off v : Nat) : Out :=
  match off with
  | 0x08 => execPtccfgWrite v s
  | 0x10 => execPtcadjWrite v s
  | 0x20 => execPtcrateWrite v s
  | 0x38 => execPtcstepWrite v s
  | _ => .next s

/-- A write to the MSI-X table (17 R414, R416): address, then data with the mask bit at bit 32 (PRESUMED, log entry 8). -/
def State.writeMsix (s : State) (o v : Nat) : Out :=
  let k := o / 16
  let m := tgetD s.msix k {}
  if o % 16 = 0 then .next { s with msix := tset s.msix k { m with addr := v } }
  else
    let s1 : State := { s with msix := tset s.msix k { m with data := v % 2 ^ 32, masked := m.masked || bit v 32 } }
    if bit v 32 ∨ m.masked = false then .next s1 else execMsixUnmask k s1

/-- A write to BAR0. The page of the link registers answers before the host link's stream is keyed (17 R413, R415). -/
def State.writeBar0 (s : State) (a v : Nat) : Out :=
  if 0x120000 ≤ a ∧ a < 0x120000 + 64 * 33 then (if s.hostTrains then s.writeLinkBlock ((a - 0x120000) / 64) (a % 64) v else .next s)
  else if s.hostKeyed = false then .next s
  else if 0x100000 ≤ a ∧ a < 0x110000 then s.writeQueueBlock ((a - 0x100000) / 64) (a % 64) v
  else if 0x110000 ≤ a ∧ a < 0x114000 then s.writeCtxBlock ((a - 0x110000) / 64) (a % 64) v
  else if a = 0x130000 then execPwrcapWrite v s
  else if 0x131000 ≤ a ∧ a < 0x131200 ∧ a % 64 = 0 then execErrorRegisterWrite ((a - 0x131000) / 64) v s
  else if 0x132000 ≤ a ∧ a < 0x132040 then s.writeTimeBlock (a - 0x132000) v
  else if 0x200000 ≤ a ∧ a < 0x208000 then s.writeMsix (a - 0x200000) v
  else .next s

/-- A write to BAR2: doorbell pages and context pages (15 R356). -/
def State.writeBar2 (s : State) (a v : Nat) : Out :=
  let o := a % 0x1000
  if s.hostUp = false then .next s
  else if a < 0x400000 then
    match o with
    | 0 => execCommitWrite (a / 0x1000) v s
    | 8 => .next (s.modQueue (a / 0x1000) (fun x => { x with jread := v % 2 ^ 32 }))
    | _ => .next s
  else if a < 0x500000 ∧ o ≤ 0x200 ∧ o % 8 = 0 then
    .next (s.modCtx ((a - 0x400000) / 0x1000) (fun x => { x with hrread := tset x.hrread (o / 8) (v % 2 ^ 32) }))
  else .next s

/-- The function mask of MSI-X in configuration space (17 R416; PRESUMED, log entry 8): unmasking sends what is pending in unmasked vectors. Nothing arrives while
the host link is DOWN (R415). -/
def State.writeFmask (s : State) (b : Bool) : State :=
  let s1 : State := { s with fmask := b }
  if s.hostTrains = false then s else if b ∨ s.hostKeyed = false then s1 else s1.sendPending

/-- BAR0 addresses of the page that answers also outside a keyed stream (17 R413, R415). -/
def inLinkPage (a : Nat) : Bool := decide (0x120000 ≤ a ∧ a < 0x121000)

/-- REGISTER_WRITE (00 R9, R10): an 8-byte write at offset `off` of BAR 0 or 2; `bar` 4 and 6 are the same BARs outside the keyed stream, where only the page of the
link registers answers (17 R415); any other `bar` is configuration space, whose one register here is the function mask. Reserved bits and reserved offsets are
discarded. -/
def execRegisterWrite (bar off v : Nat) (s : State) : Out :=
  let w := v % 2 ^ 64
  if bar = 0 ∨ (bar = 4 ∧ inLinkPage off = true) then s.writeBar0 off w
  else if bar = 2 then s.writeBar2 off w
  else if bar = 4 ∨ bar = 6 then .next s
  else .next (s.writeFmask (bit w 0))

/-- The place of a host access: 0 device memory, by physical address under the supervisor's key (DEDUCED, log entry 14); 1 and 2 the memories outside. -/
def State.hostLoc (s : State) (space addr : Nat) : Loc :=
  let a := addr / 8 * 8
  if space = 0 then { tgt := 0, pa := a, key := s.key0, scope := 3 } else { tgt := if space = 1 then 1 else 2, pa := a, scope := 3 }

/-- Whether the access can be made: device memory is reached over the host link, at assigned addresses, while its die answers. -/
def State.hostReaches (s : State) (space addr : Nat) : Bool :=
  if space = 0 then s.hostUp && hbmAssigned (addr / 8 * 8) && s.reachable 0 (s.hostLoc 0 addr) else true

/-- A host access to device memory whose die is unreachable or has reset leaves an error record of traffic that belongs to no context (17 R409,
25 R498). -/
def State.hostMiss (s : State) (space addr : Nat) : State :=
  if space = 0 ∧ s.hostUp = true ∧ hbmAssigned (addr / 8 * 8) = true then s.noteUnreachable partyDispatcher 256 0 (s.hostLoc 0 addr) else s

/-- HOST_MEMORY_WRITE (13 R338): an 8-byte word, performed at home; space 1 is the host's own memory, 2 the CXL memory. -/
def execHostMemoryWrite (space addr v : Nat) (s : State) : Out :=
  if s.hostReaches space addr = false then .next (s.hostMiss space addr)
  else .next ((withOffsets (leBytes 8 (v % 2 ^ 64))).foldl (fun s p => s.homePut (s.hostLoc space addr) p.1 p.2) s)

-- Register reads.

/-- STATE of QSTAT (15 R358). -/
def QState.code (x : QState) : Nat :=
  match x with
  | .disabled => 0 | .idle => 1 | .active => 2 | .paused => 3 | .faulted => 4

/-- QCFG as it reads (15 R358). -/
def Queue.qcfg (q : Queue) : Nat := q.wdog * 2 ^ 32 + q.jsz * 2 ^ 28 + q.sz * 2 ^ 24 + q.prio * 2 ^ 16 + q.ctx * 2 ^ 8

/-- QSTAT (15 R358). -/
def Queue.qstat (q : Queue) : Nat := q.cause * 2 ^ 56 + q.rep * 2 ^ 24 + 8 * b2n q.run + q.state.code

/-- A register of a queue's control block. A write-only register, like a reserved offset, reads as zero (00 R9, R10). -/
def Queue.readBlock (q : Queue) (off : Nat) : Nat :=
  match off with
  | 0x00 => q.qbase
  | 0x08 => q.jbase
  | 0x10 => q.qcfg
  | 0x18 => q.qstat
  | _ => 0

/-- A register of a queue's doorbell page (15 R356). -/
def Queue.readPage (q : Queue) (off : Nat) : Nat :=
  match off with
  | 0x00 => q.commit
  | 0x08 => q.jread
  | 0x10 => q.accept
  | 0x18 => q.released
  | 0x20 => q.jwr % 2 ^ 32
  | _ => 0

/-- A register of a context's control block (16 R374). -/
def Ctx.readBlock (c : Ctx) (off : Nat) : Nat :=
  match off with
  | 0x00 => c.cdesc
  | 0x10 => c.result * 2 ^ 16 + c.cause * 2 ^ 8 + c.state.code
  | _ => 0

/-- STATE of LSTAT (17 R413). -/
def LinkState.code (x : LinkState) : Nat :=
  match x with
  | .down => 0 | .training => 1 | .attesting => 2 | .keying => 3 | .up => 4 | .rekeying => 5 | .quarantined => 6 | .reset => 7

/-- LSTAT (17 R413). -/
def Link.lstat (l : Link) : Nat :=
  l.replays * 2 ^ 48 + l.tagfail * 2 ^ 32 + l.trains * 2 ^ 8 + b2n (!l.dir1.heldBy.isEmpty) * 2 ^ 7 + b2n (!l.dir0.heldBy.isEmpty) * 2 ^ 6
    + l.dir1.gen % 2 * 2 ^ 5 + l.dir0.gen % 2 * 2 ^ 4 + l.state.code

/-- A register of the block of link `n` (17 R413, R418). -/
def Link.readBlock (l : Link) (n off : Nat) : Nat :=
  match off with
  | 0x00 => l.lstat
  | _ =>
    if n < 16 ∨ 32 ≤ n then 0
    else
      match off with
      | 0x10 => l.pctx * 2 ^ 8 + l.psz
      | 0x18 => l.sring
      | 0x20 => l.stail
      | 0x28 => l.shead
      | 0x30 => l.rwin
      | 0x38 => l.rlen
      | _ => 0

/-- A register of the time-base block (25 R493). -/
def TimeUnit.readBlock (t : TimeUnit) (off : Nat) : Nat :=
  match off with
  | 0x00 => t.ptc % 2 ^ 64
  | 0x08 => t.cfg
  | 0x18 => ofSigned 64 t.pend
  | 0x20 => ofSigned 64 t.rate
  | 0x28 => t.edge % 2 ^ 64
  | 0x30 => t.miss * 2 ^ 32 + t.edges
  | _ => 0

/-- The error register of a die (25 R496). -/
def Die.errReg (d : Die) : Nat := d.errCe * 2 ^ 32 + d.errUe * 2 ^ 16 + d.errDrop

/-- 64 pending bits of the MSI-X vectors from `k` on (17 R414, R416). -/
def State.pendingBits (s : State) (k : Nat) : Nat :=
  (List.range 64).foldl (fun a i => a + b2n (tgetD s.msix (k + i) {}).pending * 2 ^ i) 0

/-- A register of BAR0 behind the IDE stream. -/
def State.readKeyed (s : State) (a : Nat) : Nat :=
  if 0x100000 ≤ a ∧ a < 0x110000 then (s.queue ((a - 0x100000) / 64)).readBlock (a % 64)
  else if 0x110000 ≤ a ∧ a < 0x114000 then (s.ctx ((a - 0x110000) / 64)).readBlock (a % 64)
  else if a = 0x130000 then s.pwrcap
  else if 0x131000 ≤ a ∧ a < 0x131200 ∧ a % 64 = 0 then (s.die ((a - 0x131000) / 64)).errReg
  else if 0x132000 ≤ a ∧ a < 0x132040 then s.time.readBlock (a - 0x132000)
  else if 0x200000 ≤ a ∧ a < 0x208000 then
    let m := tgetD s.msix ((a - 0x200000) / 16) {}
    if a % 16 = 0 then m.addr else b2n m.masked * 2 ^ 32 + m.data
  else if 0x220000 ≤ a ∧ a < 0x220100 then s.pendingBits ((a - 0x220000) / 8 * 64)
  else 0

/-- A register of BAR0 as the host reads it; `none` is Unsupported Request (17 R415). -/
def State.readBar0 (s : State) (a : Nat) : Option Nat :=
  if 0x120000 ≤ a ∧ a < 0x121000 then
    if s.hostTrains = false then none
    else if a < 0x120000 + 64 * 33 then some ((s.link ((a - 0x120000) / 64)).readBlock ((a - 0x120000) / 64) (a % 64))
    else some (if a = 0x120C00 then s.tstat else 0)
  else if s.hostKeyed then some (s.readKeyed a) else none

/-- A register of BAR2 as the host reads it (15 R356); `none` is Unsupported Request. -/
def State.readBar2 (s : State) (a : Nat) : Option Nat :=
  let o := a % 0x1000
  if s.hostUp = false then none
  else if a < 0x400000 then some ((s.queue (a / 0x1000)).readPage o)
  else if a < 0x500000 ∧ o ≤ 0x200 ∧ o % 8 = 0 then some (tgetD (s.ctx ((a - 0x400000) / 0x1000)).hrread (o / 8) 0)
  else some 0

/-- HOST_MEMORY_READ (13 R327): an 8-byte word of a memory, or for spaces 3 and 4 a register of BAR0 or BAR2, and for 5 and 6 the same outside the keyed stream, where
only the page of the link registers answers; a place that does not answer reads as zero (17 R409). What the host read is listed in `reads`, `none` for Unsupported Request (R415). -/
def execHostMemoryRead (space addr : Nat) (s : State) : Out :=
  let v :=
    if space = 3 then s.readBar0 (addr / 8 * 8)
    else if space = 4 then s.readBar2 (addr / 8 * 8)
    else if space = 5 ∧ inLinkPage addr = true then s.readBar0 (addr / 8 * 8)
    else if space = 5 ∨ space = 6 then none
    else if space = 0 ∧ s.hostUp = false then none
    else some (if s.hostReaches space addr then leNat ((List.range 8).map (s.homeByte (s.hostLoc space addr))) else 0)
  let s1 := if space < 3 then s.hostMiss space addr else s
  .next { s1 with reads := s1.reads ++ [v] }

-- Forwarding (R330).

/-- Whether the write at place `i` of a queue may move on: no earlier write to its sector, nor, for the host, an earlier one of its port to the host. -/
def mayForward (q : List MemWrite) (i : Nat) : Bool :=
  match q[i]? with
  | none => false
  | some w => (q.take i).all (fun v => v.loc.sector != w.loc.sector && (w.loc.tgt == 0 || v.loc.tgt == 0 || v.core != w.core))

/-- WRITE_FORWARD (13 R330): stage 0 is the memory port of core `idx`, stage 1 the ordering point of die `idx`; the write at place `line` moves on. At stage 0 the
numbers from that of the port's writes on name the lines of the core's L1, of which a dirty one may leave at any time, in any order (R330, R334). -/
def execWriteForward (stage idx line : Nat) (s : State) : Out :=
  if stage = 0 then
    let q := (s.core idx).outq
    match mayForward q line, q[line]? with
    | true, some w =>
      .next ((s.modCore idx (fun x => { x with outq := q.eraseIdx line })).modDie (dieOf idx) (fun x => { x with ordq := x.ordq ++ [w] }))
    | _, _ =>
      match (if line < q.length then none else (s.core idx).l1[line - q.length]?) with
      | some x => if x.dirty = [] then .next s else .next (s.evictLine idx x)
      | none => .next s
  else
    let q := (s.die idx).ordq
    match mayForward q line, q[line]? with
    | true, some w => .next ((s.modDie idx (fun x => { x with ordq := q.eraseIdx line })).homeForward idx w)
    | _, _ => .next s

/-- UNASSIGNED_OPCODE (03 R88 check 1): the instruction traps ILLEGAL_OP. -/
def execUnassignedOpcode (s : State) : Out := s.trap 0x01

end Sys2Proof.Machine
end

