-- ==== Sys2Proof/Machine/LoadStore.lean ====
section
/-! DEFINITION. Loads, stores and fences of the control engine (05 R123 to R127). -/

namespace Sys2Proof.Machine

/-- The effective address of a CM access of `2 ^ k` bytes (05 R123). -/
def State.effAddr (s : State) (a i k : Nat) : Nat := (s.rs a + BitVec.ofInt 64 (toSigned 10 i * 2 ^ k)).toNat

/-- The checks of a CM access (05 R123): range, alignment, translation; what follows gets the place. -/
def State.access (s : State) (ea k : Nat) (kind : Access) (f : State → Loc → Out) : Out :=
  let c := s.cur.core
  if 2 ^ 56 ≤ ea then s.trapWith { cause := 0x10, taddr := ea }
  else if ea % 2 ^ k ≠ 0 then s.trapWith { cause := 0x13, taddr := ea }
  else
    match s.translate c (s.xctx c) ea kind true with
    | (.error t, s1) => s1.trapWith t
    | (.ok l, s1) => f (if l.tgt = 0 then s1 else s1.strictMiss c) l

/-- The instruction completes; with STRICT = 1 an access of `n` sectors of TGT 0 memory does so 2 µs + n ns after it issued (01 R32). -/
def State.padDone (s : State) (n : Nat) : Out := s.padFor (if n = 0 then 0 else 2000 + n, 0)

/-- The sectors that an access through the L1 reads: a miss reads its line. -/
def State.missSectors (s : State) (l : Loc) : Nat := if l.tgt = 0 ∧ (s.l1Line s.cur.core l).isNone = true then 8 else 0

/-- The loaded value: zero-extended for sizes 0 to 3, sign-extended for 4 to 6 (03 R75). -/
def loadWord (z : Nat) (bs : List Byte) : Word :=
  if z < 4 then BitVec.ofNat 64 (leNat bs) else sext64 (8 * 2 ^ (z - 4)) (leNat bs)

/-- Bytes read by a load: zeros with an error record on an uncorrectable error (05 R123), and a record when the die does not answer. -/
def State.loadDone (s : State) (d z ea n : Nat) (l : Loc) (bs : List Byte) : Out :=
  let c := s.cur.core
  match s.memHit true l with
  | some code => ((s.memError c (s.xctx c) code l ea 0).putS d 0).padDone n
  | none => ((s.noteUnreachable c (s.xctx c) ea l).putS d (loadWord z bs)).padDone n

/-- LDS (05 R123): through the L1. -/
def execLds (d a z i : Nat) (s : State) : Out :=
  let ea := s.effAddr a i (z % 4)
  s.access ea (z % 4) .read (fun s l =>
    let r := s.l1Read s.cur.core l (2 ^ (z % 4))
    r.2.loadDone d z ea (s.missSectors l) l r.1)

/-- STS (05 R123): through the L1. -/
def execSts (d a z i : Nat) (s : State) : Out :=
  let ea := s.effAddr a i (z % 4)
  s.access ea (z % 4) .write (fun s l =>
    ((s.noteUnreachable s.cur.core (s.xctx s.cur.core) ea l).l1Write s.cur.core l (leBytes (2 ^ (z % 4)) (s.rn d))).padDone (s.missSectors l))

/-- LDA (05 R124): an acquire, read at the coherence point of its page's scope. -/
def execLda (d a z i : Nat) (s : State) : Out :=
  let ea := s.effAddr a i (z % 4)
  s.access ea (z % 4) .read (fun s l =>
    let r := s.acquireRead s.cur.core l (2 ^ (z % 4))
    r.2.loadDone d z ea (if l.tgt = 0 then 1 else 0) l r.1)

/-- STL (05 R124): a release, then the store at the coherence point of its page's scope. -/
def execStl (d a z i : Nat) (s : State) : Out :=
  let ea := s.effAddr a i (z % 4)
  s.access ea (z % 4) .write (fun s l =>
    ((s.noteUnreachable s.cur.core (s.xctx s.cur.core) ea l).releaseWrite s.cur.core l (leBytes (2 ^ (z % 4)) (s.rn d))).padDone
      (s.dirtySectors + (if l.tgt = 0 then 1 else 0)))

/-- FENCE (05 R125): release at SYSTEM scope, then acquire. -/
def execFence (s : State) : Out := ((s.release s.cur.core true).acquire s.cur.core).padDone s.dirtySectors

/-- FENCE.acq (05 R125). -/
def execFenceAcq (s : State) : Out := (s.acquire s.cur.core).done

/-- FENCE.rel (05 R125). -/
def execFenceRel (s : State) : Out := (s.release s.cur.core true).padDone s.dirtySectors

/-- CFLUSH (05 R126): writes back a dirty line, and invalidates it; translated as a read. Its write-back counts as a write of its sectors (01 R32). -/
def execCflush (a i : Nat) (s : State) : Out :=
  let ea := (s.rs a + imm13 i).toNat
  s.access ea 0 .read (fun s l =>
    match s.l1Line s.cur.core l with
    | some x => (s.evictLine s.cur.core x).padDone (if l.tgt = 0 then (x.writebacks s.cur.core).length else 0)
    | none => s.done)

end Sys2Proof.Machine
end

