-- ==== Sys2Proof/Machine/Scan.lean ====
section
/-! DEFINITION. The scan engine (02 R58 to R62; 11 R275, R288 to R298): compensated FP32 arithmetic, the sequential forms SCDR, SCDC and SCGK with
their steps and commit wait, the chunked prefix SCCH, SCOUT and SCMODE. -/

namespace Sys2Proof.Machine

/-- What a sequence of SE roundings has raised: exceptions, and whether a fade occurred (R58, R61). -/
structure SeC where
  fl : Nat := 0
  fade : Bool := false
  deriving DecidableEq, Repr

def fvZero : FV := .fin {}

/-- RN of the SE (R58): RNE without flush or saturation, then fading; only overflow is kept of its flags (R298). -/
def seRn (c : SeC) (v : FV) : FV × SeC :=
  let r := rnd32 v modeRne
  let c1 := { c with fl := c.fl ||| (r.2 &&& fOverflow) }
  if bits r.1 30 23 = 0 ∧ r.1 % 2 ^ 23 ≠ 0 then (fvZero, { c1 with fade := true }) else (f32 r.1, c1)

/-- An operand of a product: a value, and whether it is a faded factor (R60), whose products are exactly +0. -/
structure SeF where
  v : FV
  faded : Bool := false
  deriving DecidableEq, Repr

/-- The exact product of a factor and a value. -/
def seMul (c : SeC) (a : SeF) (b : FV) : FV × SeC :=
  if a.faded then (fvZero, c)
  else
    let p := FV.mul a.v b
    (p.1, { c with fl := c.fl ||| (p.2 &&& fInvalid) })

/-- RN of a sum. -/
def seAdd (c : SeC) (a b : FV) : FV × SeC :=
  let x := sumFV false [a, b]
  seRn { c with fl := c.fl ||| (x.2 &&& fInvalid) } x.1

/-- Whether a principal result ends its sequence: ±∞ or NaN. -/
def FV.stops (v : FV) : Bool := v.isInf || v.isNan

/-- TwoProd (R58). -/
def twoProd (c : SeC) (a : SeF) (b : FV) : FV × FV × SeC :=
  let (x, c1) := seMul c a b
  let (p, c2) := seRn c1 x
  if p.stops then (p, fvZero, c2)
  else
    let (e, c3) := seAdd c2 x p.negate
    (p, e, c3)

/-- TwoSum (R58). -/
def twoSum (c : SeC) (a b : FV) : FV × FV × SeC :=
  let (s, c1) := seAdd c a b
  if s.stops then (s, fvZero, c1)
  else
    let (bv, c2) := seAdd c1 s a.negate
    let (av, c3) := seAdd c2 s bv.negate
    let (db, c4) := seAdd c3 b bv.negate
    let (da, c5) := seAdd c4 a av.negate
    let (e, c6) := seAdd c5 da db
    (s, e, c6)

/-- FastTwoSum (R58). -/
def fastTwoSum (c : SeC) (a b : FV) : FV × FV × SeC :=
  let (s, c1) := seAdd c a b
  if s.stops then (s, fvZero, c1)
  else
    let (z, c2) := seAdd c1 s a.negate
    let (e, c3) := seAdd c2 b z.negate
    (s, e, c3)

/-- RN(a × l + z), with a product exactly +0 when l is +0 (R58). -/
def seFma (c : SeC) (a : SeF) (l z : FV) : FV × SeC :=
  let (p, c1) := if l.isZero ∧ l.isNeg = false then (fvZero, c) else seMul c a l
  let x := sumFV false [p, z]
  seRn { c1 with fl := c1.fl ||| (x.2 &&& fInvalid) } x.1

/-- Dot2 (R58). -/
def dot2 (c : SeC) (a1 : SeF) (h1 l1 : FV) (a2 : SeF) (h2 l2 : FV) : FV × FV × SeC :=
  let (p1, e1, c1) := twoProd c a1 h1
  let (p2, e2, c2) := twoProd c1 a2 h2
  let (s, f, c3) := twoSum c2 p1 p2
  let (x1, c4) := seFma c3 a1 l1 e1
  let (x2, c5) := seFma c4 a2 l2 x1
  let (x3, c6) := seAdd c5 x2 e2
  let (x4, c7) := seAdd c6 x3 f
  (s, x4, c7)

/-- The decay factor of L (R60). -/
def decay (c : SeC) (L : FV) : SeF × SeC :=
  if L.isNan then ({ v := .nan }, c)
  else if FV.lt true L (.fin { neg := true, m := 126 }) then ({ v := fvZero, faded := true }, { c with fade := true })
  else
    let y := L.exp2
    let r := rnd32 y.1 modeRne
    ({ v := f32 r.1 }, { c with fl := c.fl ||| (r.2 &&& fOverflow) })

/-- The finish of an update (R59): COMP = 0 and a non-finite hi drop lo; SATF saturates an infinite hi, which raises saturate in place of the overflow
that its sequence raised on its way (01 R31 rules G and H; DEDUCED, log entry 29). -/
def seFinish (comp satf : Bool) (x : FV × FV × SeC) : FV × FV × SeC :=
  let lo := if comp = false ∨ x.1.stops = true then fvZero else x.2.1
  if x.1.isInf ∧ satf = true then (f32 (fmtF32.maxBits x.1.isNeg), lo, { x.2.2 with fl := ((x.2.2.fl ||| fOverflow) - fOverflow) ||| fSaturate })
  else (x.1, lo, x.2.2)

/-- An update: a sequence, FastTwoSum of its (s, c), and the finish. What was raised before the sequence stands, an overflow too. -/
def seClose (comp satf : Bool) (c : SeC) (f : SeC → FV × FV × SeC) : FV × FV × SeC :=
  let x := f { c with fl := 0 }
  let r := seFinish comp satf (fastTwoSum x.2.2 x.1 x.2.1)
  (r.1, r.2.1, { r.2.2 with fl := c.fl ||| r.2.2.fl })

/-- One part of the diagonal complex update (R59). -/
def seCpart (c : SeC) (comp satf : Bool) (a1 a2 : SeF) (hr lr hm lm b1 b2 xr xm : FV) : FV × FV × SeC :=
  seClose comp satf c (fun c =>
    let (s1, k1, c1) := dot2 c a1 hr lr a2 hm lm
    let (s2, k2, c2) := dot2 c1 { v := b1 } xr fvZero { v := b2 } xm fvZero
    let (s, f, c3) := twoSum c2 s1 s2
    let (x, c4) := seAdd c3 k1 k2
    let (k, c5) := seAdd c4 x f
    (s, k, c5))

/-- RN of a product (R293). -/
def seProd (c : SeC) (a b : FV) : FV × SeC :=
  let (x, c1) := seMul c { v := a } b
  seRn c1 x

/-- aᵣ or aᵢ of SCDC (R293): +0 when f is +0 or when its rounding fades, and then a faded factor. -/
def sePart (c : SeC) (f : SeF) (x : FV) : SeF × SeC :=
  if f.v.isZero then ({ v := fvZero, faded := f.faded }, c)
  else
    let (y, c1) := seProd { c with fade := false } f.v x
    ({ v := y, faded := c1.fade }, { c1 with fade := c.fade || c1.fade })

/-- A factor with the opposite sign. -/
def SeF.negate (a : SeF) : SeF := { a with v := a.v.negate }

-- The operands of an SE instruction.

/-- A scan instruction (R291): its opcode 0 to 4 and fields; `n` counts from 1. -/
structure ScanOp where
  op : Nat
  qi : Nat := 0
  qo : Nat
  flip : Bool := false
  emit : Bool := false
  pend : Bool := false
  g : Nat
  slot : Nat
  lay : Nat
  n : Nat := 1
  deriving DecidableEq, Repr

/-- The scan instruction that an instruction is. -/
def scanOp (i : Instr) : Option ScanOp :=
  match i with
  | .scdr qi qo f e g sl lay n => some { op := 0, qi := qi, qo := qo, flip := f == 1, emit := e == 1, g := g, slot := sl, lay := lay, n := n + 1 }
  | .scdc qi qo f e g sl lay n => some { op := 1, qi := qi, qo := qo, flip := f == 1, emit := e == 1, g := g, slot := sl, lay := lay, n := n + 1 }
  | .scgk qi qo f e g sl lay n => some { op := 2, qi := qi, qo := qo, flip := f == 1, emit := e == 1, g := g, slot := sl, lay := lay, n := n + 1 }
  | _ => none

/-- Bytes of an input record (R292). -/
def ScanOp.recBytes (o : ScanOp) : Nat := if o.op = 2 then 320 else 8192

/-- Whether the instruction pushes readout panels, and whether it writes the pending bank. -/
def ScanOp.outs (o : ScanOp) : Bool := o.emit || o.op == 4
def ScanOp.writes (o : ScanOp) : Bool := o.op != 4

/-- The modes that an SE instruction sampled at issue: FPMODE and SCMODE (01 R29, R288). -/
structure ScanMd where
  fpm : Nat
  scm : Nat
  deriving DecidableEq, Repr

def ScanMd.comp (m : ScanMd) : Bool := bit m.scm 0
def ScanMd.odt (m : ScanMd) : Nat := bits m.scm 10 6
def ScanMd.satf (m : ScanMd) : Bool := bit m.fpm 4

/-- Bytes of a readout panel (R292). -/
def ScanMd.panelBytes (m : ScanMd) : Nat := 64 * (tyOf m.odt).uw

/-- A word of a record as a value. -/
def recVal (bs : List Byte) (off : Nat) : FV := f32 (leNat ((bs.drop off).take 4))

/-- The pairs of segment `g` of layer `lay`, from the current or the pending bank: (hi, lo), with lo +0 unless `comp`; those of `bad` read
as zero (R301). -/
def State.segPairs (s : State) (w : Nat) (x : Slot) (lay g : Nat) (pend comp : Bool) (bad : List Nat) : List (FV × FV) :=
  let bs := mread (s.seat w).cask (s.bankAt w x lay pend (4096 * g)) (8 * pairsIn x.bankb g)
  (List.range (pairsIn x.bankb g)).map (fun e =>
    if bad.contains e then (fvZero, fvZero)
    else (recVal bs (8 * e), if comp then recVal bs (8 * e + 4) else fvZero))

/-- The result of an update of a segment: new pairs, exceptions, fades. -/
structure SegOut where
  pairs : List (FV × FV) := []
  fl : Nat := 0
  fades : Nat := 0
  deriving DecidableEq, Repr

/-- Collects the updates of elements that stand for themselves. -/
def segCollect (xs : List (List (FV × FV) × SeC)) : SegOut :=
  { pairs := xs.flatMap (·.1), fl := xs.foldl (fun a x => a ||| x.2.fl) 0, fades := (xs.filter (fun x => x.2.fade)).length }

/-- One element of SCDR (R293). -/
def scdrElem (m : ScanMd) (bs : List Byte) (e : Nat) (st : FV × FV) : List (FV × FV) × SeC :=
  let (L, c1) := seProd {} (recVal bs (2048 + 4 * e)) (recVal bs (4 * e))
  let (a, c2) := decay c1 L
  let r := seClose m.comp m.satf c2 (fun c => dot2 c a st.1 st.2 { v := recVal bs (4096 + 4 * e) } (recVal bs (6144 + 4 * e)) fvZero)
  ([(r.1, r.2.1)], r.2.2)

/-- One element of SCGK (R293): row i, column j of the segment. -/
def scgkElem (m : ScanMd) (bs : List Byte) (e : Nat) (st : FV × FV) : List (FV × FV) × SeC :=
  let i := e / 32
  let j := e % 32
  let (a, c1) := decay {} (recVal bs (4 * i))
  let (w, c2) := seProd c1 (recVal bs (64 + 4 * i)) (recVal bs (128 + 4 * i))
  let r := seClose m.comp m.satf c2 (fun c => dot2 c a st.1 st.2 { v := w } (recVal bs (192 + 4 * j)) fvZero)
  ([(r.1, r.2.1)], r.2.2)

/-- One complex element of SCDC (R293): its real and imaginary pairs. -/
def scdcElem (m : ScanMd) (bs : List Byte) (e : Nat) (re im : FV × FV) : List (FV × FV) × SeC :=
  let v := fun (k : Nat) => recVal bs (1024 * k + 4 * e)
  let (L, c1) := seProd {} (v 1) (v 0)
  let (f, c2) := decay c1 L
  let (ar, c3) := sePart c2 f (v 2)
  let (ai, c4) := sePart c3 f (v 3)
  let x := seCpart c4 m.comp m.satf ar ai.negate re.1 re.2 im.1 im.2 (v 4) (v 5).negate (v 6) (v 7)
  let y := seCpart x.2.2 m.comp m.satf ai ar re.1 re.2 im.1 im.2 (v 5) (v 4) (v 6) (v 7)
  ([(x.1, x.2.1), (y.1, y.2.1)], y.2.2)

/-- One step of a sequential form over a segment (R293, R295). -/
def segStep (m : ScanMd) (op : Nat) (bs : List Byte) (ps : List (FV × FV)) : SegOut :=
  let at_ := fun (e : Nat) => ps.getD e (fvZero, fvZero)
  match op with
  | 0 => segCollect ((List.range ps.length).map (fun e => scdrElem m bs e (at_ e)))
  | 1 => segCollect ((List.range (ps.length / 2)).map (fun e => scdcElem m bs e (at_ (2 * e)) (at_ (2 * e + 1))))
  | _ => segCollect ((List.range ps.length).map (fun e => scgkElem m bs e (at_ e)))

/-- An element of a chunked prefix (R62), with what its sequence has raised. -/
structure ChunkEl where
  L : FV
  hi : FV
  lo : FV
  c : SeC
  deriving DecidableEq, Repr

/-- The clamp of R62: a decay below −126 is −∞. -/
def clampL (L : FV) : FV := if L.isNan = false ∧ FV.lt true L (.fin { neg := true, m := 126 }) = true then .inf true else L

/-- Combines an earlier element into a later one (R62). COMP = 0 holds lo at +0 in every combine (R288; DEDUCED, log entry 29). -/
def combine (comp : Bool) (a b : ChunkEl) : ChunkEl :=
  let (L, c1) := seAdd b.c a.L b.L
  let (f, c2) := decay c1 b.L
  let r := dot2 c2 f a.hi a.lo { v := fvOne } b.hi b.lo
  let x := fastTwoSum r.2.2 r.1 r.2.1
  { L := clampL L, hi := x.1, lo := if comp then x.2.1 else fvZero, c := x.2.2 }

/-- One distance of the Kogge-Stone order. -/
def koggeStep (comp : Bool) (d : Nat) (l : List ChunkEl) : List ChunkEl :=
  (List.range l.length).filterMap (fun i =>
    match l[i]?, l[i - d]? with
    | some y, some x => some (if i < d then y else combine comp x y)
    | some y, none => some y
    | none, _ => none)

/-- All distances below the length. -/
def kogge (comp : Bool) (l : List ChunkEl) : List ChunkEl :=
  [1, 2, 4, 8, 16, 32].foldl (fun l d => if d < l.length then koggeStep comp d l else l) l

/-- The states that a pair takes over a chunk (R296), one for each record, with what each raised; a fade in forming an input term is none of those
that R61 counts. -/
def chunkPair (m : ScanMd) (recs : List (List Byte)) (e : Nat) (st : FV × FV) : List ((FV × FV) × SeC) :=
  let els := recs.map (fun bs =>
    let (L, c1) := seProd {} (recVal bs (2048 + 4 * e)) (recVal bs (4 * e))
    let (h, l, c2) := twoProd c1 { v := recVal bs (4096 + 4 * e) } (recVal bs (6144 + 4 * e))
    ({ L := clampL L, hi := h, lo := if m.comp then l else fvZero, c := { c2 with fade := c1.fade } } : ChunkEl))
  (kogge m.comp els).map (fun y =>
    let (f, c1) := decay y.c y.L
    let r := seClose m.comp m.satf c1 (fun c => dot2 c f st.1 st.2 { v := fvOne } y.hi y.lo)
    ((r.1, r.2.1), r.2.2))

/-- A readout panel (R292) of pairs at step `step`: its bytes and exceptions. -/
def readout (m : ScanMd) (rank g step : Nat) (ps : List (FV × FV)) : List Byte × Nat :=
  let t := tyOf m.odt
  let md := modeOf m.fpm
  let r := ((List.range ps.length).zip ps).foldl (fun (a : Nat × Nat) p =>
    let me : RMode := if bit m.scm 1 then { md with rm := 0, dsr := some (dsrHash rank step (512 * g + p.1)) } else md
    let x := sumFV (me.rm == 2) [p.2.1, p.2.2]
    let y := encodeElem t x.1 me
    (a.1 + y.1 * 2 ^ (p.1 * t.uw), a.2 ||| x.2 ||| y.2)) (0, 0)
  (leBytes m.panelBytes r.1, r.2)

/-- The bytes of pairs in a bank. -/
def pairBytes (ps : List (FV × FV)) : List Byte :=
  ps.flatMap (fun p => leBytes 4 (rnd32 p.1 modeRne).1 ++ leBytes 4 (rnd32 p.2 modeRne).1)

/-- FADE rises, holding at its limit (R290). -/
def State.addFades (s : State) (w n : Nat) : State := s.modSeat w (fun y => { y with fade := min (y.fade + n) 0xFFFFFFFF })

-- Issue (R294).

/-- A KRIN of the slot, dealt in the line of the executing instruction or before, that has not issued: the SE waits for it, so that no token edge is
needed (R274). -/
def State.krinAhead (s : State) (slot : Nat) : Bool :=
  (s.cm.q 7).any (fun e => !e.issued && decide (e.seqNo ≤ s.cur.ent.seqNo) &&
    (match decode? .ke e.lanes with
      | some (.krin _ _ b) => s.rn b % 256 == slot
      | _ => false))

/-- Checks 1 to 5 of R294 on a slot that does not rack in: the cause. -/
def State.scanCheck (s : State) (o : ScanOp) (m : ScanMd) : Option Nat :=
  let c := s.cur.core
  let x := s.slot c o.slot
  let pn := tgetD x.pn o.lay 0
  let ws := tgetD x.wset o.lay []
  let ri := if o.writes then ringCheck (s.ring o.qi) o.recBytes (if o.op = 3 then o.n else 1) else none
  let ro := if o.outs then ringCheck (s.ring o.qo) m.panelBytes (if o.op = 3 then o.n else 1) else none
  let layers : Nat := (s.seat c).slots.foldl (fun a p => a + (p.2.wset.filter (fun q => !q.2.isEmpty)).length) 0
  if o.lay < x.first ∨ x.first + x.nl < o.lay ∨ cdiv x.bankb 4096 ≤ o.g then some 0x72
  else if ri = some 0x50 ∨ ro = some 0x50 then some 0x50
  else if ri.isSome ∨ ro.isSome = true then some 0x51
  else if o.writes ∧ (x.snap = true ∨ (pn ≠ 0 ∧ o.n ≠ pn) ∨ has ws o.g = true ∨ (ws.isEmpty = true ∧ 2048 ≤ layers)) then some 0x70
  else if o.writes ∧ 0xFFFFFFFF < s.lstep c x o.lay + pn + o.n then some 0x72
  else none

/-- The modes as sampled now. -/
def State.scanMd (s : State) : ScanMd := { fpm := s.cm.fpmode, scm := s.cm.scmode }

/-- The party of the executing SE instruction at its cask's control block. -/
def State.scanBy (s : State) : KeBy := { party := s.cur.core, ctx := s.ctxOn s.cur.core }

/-- An SE instruction with a control-block write refused traps as completed, its other effects made (14 R343). -/
def seRefused (refused : Bool) (o : Out) : Out :=
  match o with
  | .next t => if refused = true ∧ t.cur.status = .done then .next (t.finish (.trapDone { cause := 0x80 })) else .next t
  | o => o

/-- Whether the instruction must pass the commit wait (R275): it is the first step write after a flip. -/
def Slot.firstWrite (x : Slot) (lay : Nat) : Bool := tgetD x.pn lay 0 == 0

/-- Sets the slot's state. -/
def State.slotState (s : State) (w n : Nat) (st : SlotState) : State := s.setSlot w n { s.slot w n with state := st }

/-- WSET and PN after a step write, and the flip when it asks for one (R275, R295): whether MIRROR's write was refused, and the state. -/
def State.wrap (s : State) (k : KeBy) (w : Nat) (o : ScanOp) : Bool × State :=
  let x := s.slot w o.slot
  let s1 := s.setSlot w o.slot { x with wset := tset x.wset o.lay (addOnce (tgetD x.wset o.lay []) o.g), pn := tset x.pn o.lay o.n }
  if o.flip then s1.flipLayer k w o.slot o.lay (s1.slotCtl k x) else (false, s1)

/-- The SE of core `c` reads COMMITW at the port for the commit wait (R275): whether LSTEP ≤ COMMITW, and the core of the port. -/
def State.commitRead (s : State) (c : Nat) (x : Slot) (lay : Nat) : Bool × Nat × State :=
  let k : KeBy := { party := c, ctx := s.ctxOn c }
  let ctl := s.slotCtl k x
  let r := s.ctlRead k ctl 4
  (decide (s.lstep c x lay ≤ r.1), ctl.1, r.2)

/-- What the read leaves with the head `e` until the instruction issues (1, with the strict time of the reply) or reads again (0, with the count of clocks). -/
def State.commitMark (s : State) (c w : Nat) (ok : Bool) (e : Entry) : Entry :=
  if ok then { s.padEntry (portDelay c w) e with opv := [1] } else { e with opv := [0, s.power.mclk] }

/-- Checks 5 of an SE instruction, RACKING-IN, and the commit wait; then `f` with its modes. -/
def State.scanIssue (s : State) (o : ScanOp) (f : State → ScanMd → Out) : Out :=
  let c := s.cur.core
  let x := s.slot c o.slot
  let m := s.scanMd
  if (x.state = .empty ∨ x.state = .rackingOut) ∧ s.krinAhead o.slot = true then s.waits
  else if x.state = .empty ∨ x.state = .rackingOut ∨ x.ctx ≠ s.ctxOn c then s.trap 0x71
  else if x.state = .rackingIn then s.waits
  else
    match s.scanCheck o m with
    | some cause => s.trap cause
    | none =>
      if o.writes = false ∨ x.firstWrite o.lay = false then f s m
      else
        match s.cur.ent.opv with
        | 0 :: _ => s.waits
        | _ :: _ =>
          match s.padOver c s.cur.ent with
          | some s1 => f (s1.modEnt (fun e => { e with opv := [], pad := 0, clk := 0 })) m
          | none => s.waits
        | [] =>
          if s.placeTaken c then s.waits
          else
            let (ok, w, s1) := s.commitRead c x o.lay
            if ok = true ∧ s.strict c = false then f s1 m
            else .next ((s1.modCm (fun y => y.setHead 4 (s.commitMark c w ok s.cur.ent))).finish .wait)

/-- SCDR, SCDC and SCGK issue (R294, R295). -/
def State.scanSeq (s : State) (o : ScanOp) : Out :=
  s.scanIssue o (fun s m =>
    let c := s.cur.core
    let s1 := (s.slotState c o.slot .active).modCm (fun y => { y with cstep := 0x8000 })
    .next ((s1.modEnt (fun e => { e with opv := [m.fpm, m.scm] })).finish .running))

/-- SCDR (R293, R295). -/
def execScdr (qi qo flip emit g slot lay n : Nat) (s : State) : Out :=
  s.scanSeq { op := 0, qi := qi, qo := qo, flip := flip == 1, emit := emit == 1, g := g, slot := slot, lay := lay, n := n + 1 }

/-- SCDC (R293, R295). -/
def execScdc (qi qo flip emit g slot lay n : Nat) (s : State) : Out :=
  s.scanSeq { op := 1, qi := qi, qo := qo, flip := flip == 1, emit := emit == 1, g := g, slot := slot, lay := lay, n := n + 1 }

/-- SCGK (R293, R295). -/
def execScgk (qi qo flip emit g slot lay n : Nat) (s : State) : Out :=
  s.scanSeq { op := 2, qi := qi, qo := qo, flip := flip == 1, emit := emit == 1, g := g, slot := slot, lay := lay, n := n + 1 }

/-- SCCH once its slots and pages stand (R296). -/
def State.scchRun (s : State) (o : ScanOp) (m : ScanMd) (ri : Ring) : Out :=
  let c := s.cur.core
  let k := s.scanBy
  let x := s.slot c o.slot
  let bs := (List.range o.n).map (fun t => (s.sreadUe c (ri.headAddr t) 8192).1)
  let s1 := (List.range o.n).foldl (fun s' t => (s'.sreadUe c (ri.headAddr t) 8192).2) s
  let (bad, refused, s2) := s1.notePairs k c o.slot o.lay o.g false
  let ps := s.segPairs c x o.lay o.g false m.comp bad
  let outs := ((List.range ps.length).zip ps).map (fun p => chunkPair m bs p.1 p.2)
  let at_ := fun (t : Nat) => outs.map (fun l => (l.getD t ((fvZero, fvZero), {})).1)
  let ls := s.lstep c x o.lay
  let panels : List (List Byte × Nat) := if o.emit then (List.range o.n).map (fun t => readout m s.cm.rank o.g (ls + t + 1) (at_ t)) else []
  let fl : Nat := outs.foldl (fun (a : Nat) l => l.foldl (fun (a : Nat) (y : (FV × FV) × SeC) => a ||| y.2.fl) a) (panels.foldl (fun a p => a ||| p.2) 0)
  let fades : Nat := outs.foldl (fun (a : Nat) l => a + (l.filter (fun (y : (FV × FV) × SeC) => y.2.fade)).length) 0
  let en := enabledExc (s.precise c) m.fpm fl
  if en ≠ 0 then .next (s2.finish (.trapIssued { cause := excCause en, exc := fl }))
  else
    let s3 := (s2.caskPut c (s.bankAt c x o.lay true (4096 * o.g)) (pairBytes (at_ (o.n - 1)))).addFades c fades
    let s4 := s3.modRing o.qi (fun r => r.popped o.n)
    let s5 := match s4.ring o.qo with
      | some r => if o.emit then s4.pushSlots o.qo r (panels.map (fun (p : List Byte × Nat) => p.1)) else s4
      | none => s4
    let r := s5.wrap k c o
    let s6 := (r.2.slotState c o.slot .resident).modCm (fun y => y.setFlags fl)
    seRefused (refused || r.1) (if o.flip ∧ r.1 = false ∧ refused = false then s6.padFor (portDelay c (s.slotCtl k x).1) else s6.done)

/-- SCCH (R296): issues once its n records are FILLED and, with EMIT, n slots are FREE. -/
def execScch (qi qo flip emit g slot lay n : Nat) (s : State) : Out :=
  let o : ScanOp := { op := 3, qi := qi, qo := qo, flip := flip == 1, emit := emit == 1, g := g, slot := slot, lay := lay, n := n + 1 }
  s.scanIssue o (fun s m =>
    match s.ring qi with
    | none => s.waits
    | some ri =>
      let ro := tgetD s.cm.rings qo {}
      if ri.canPop o.n = false ∨ (o.emit = true ∧ ro.canPush o.n = false) ∨ (o.flip = true ∧ s.placeTaken s.cur.core = true) then s.waits
      else s.withScratch (ri.headRanges o.n ++ (if o.emit then ro.tailRanges o.n else [])) (fun s => s.scchRun o m ri))

/-- SCOUT (R297): the bank as it stands, whatever COMP. -/
def execScout (qo pend g slot lay : Nat) (s : State) : Out :=
  let o : ScanOp := { op := 4, qo := qo, pend := pend == 1, g := g, slot := slot, lay := lay }
  s.scanIssue o (fun s m =>
    match s.ring qo with
    | none => s.waits
    | some ro =>
      if ro.canPush 1 = false then s.waits
      else s.withScratch (ro.tailRanges 1) (fun s =>
        let c := s.cur.core
        let x := s.slot c slot
        let (bad, refused, s1) := s.notePairs s.scanBy c slot lay g o.pend
        let r := readout m s.cm.rank g (s.lstep c x lay + (if o.pend then tgetD x.pn lay 0 else 0)) (s.segPairs c x lay g o.pend true bad)
        seRefused refused (s1.numeric r.2 (fun s => s.pushSlots qo ro [r.1]))))

/-- SCMODE (R288). -/
def execScmode (i : Nat) (s : State) : Out :=
  if bits i 15 11 ≠ 0 ∨ bits i 5 2 ≠ 0 ∨ 4 < bits i 10 6 then s.trap 0x03
  else (s.modCm (fun m => { m with scmode := i })).done

-- SCAN_STEP.

/-- The sequential scan instruction that core `c` has issued and not completed. -/
def State.scanBusy (s : State) (c : Nat) : Option (Entry × ScanOp) :=
  match (s.mem c).headOf 4 with
  | some e =>
    if e.issued ∧ e.busy = true ∧ s.mayIssue c = true then
      match decode? .se e.lanes with
      | some i => (scanOp i).map (fun o => (e, o))
      | none => none
    else none
  | none => none

/-- The SE of core `c` stops at a step. -/
def State.scanStop (s : State) (c : Nat) (t : Trap) : State := s.modMem c (fun m => m.stop 4 t)

/-- One step of a sequential form once its slots and pages stand (R295). -/
def State.scanOne (s : State) (c : Nat) (o : ScanOp) (m : ScanMd) (t : Nat) (ri ro : Ring) : State :=
  let k : KeBy := { party := c, ctx := s.ctxOn c }
  let x := s.slot c o.slot
  let (bs, s1) := s.sreadUe c (ri.headAddr 0) o.recBytes
  let (bad, refused, s2) := s1.notePairs k c o.slot o.lay o.g (t != 0)
  let s2 := if refused then s2.modMem c (fun y => y.setHead 4 { (y.q 4).headD {} with opv := [m.fpm, m.scm, 1] }) else s2
  let out := segStep m o.op bs (s.segPairs c x o.lay o.g (t != 0) m.comp bad)
  let p := if o.emit then readout m (s.mem c).rank o.g (s.lstep c x o.lay + t + 1) out.pairs else ([], 0)
  let fl := out.fl ||| p.2
  let en := enabledExc (s.precise c) m.fpm fl
  if en ≠ 0 then s2.scanStop c { cause := excCause en, exc := fl }
  else
    let s3 := (s2.caskPut c (s.bankAt c x o.lay true (4096 * o.g)) (pairBytes out.pairs)).addFades c out.fades
    let s4 := if o.emit then (s3.swrite c (ro.tailAddr 0) (slotImage ro p.1)).modMem c (fun y => y.modRing o.qo (fun r => r.pushed 1)) else s3
    s4.modMem c (fun y => (({ y with cstep := 0x8000 + t + 1 } : Member).modRing o.qi (fun r => r.popped 1)).setFlags fl)

/-- The last step is done: WSET, PN, CSTEP, the flip, and the completion of the instruction, with STRICT = 1 when the flip's port operation replies (01 R32). -/
def State.scanEnd (s : State) (c : Nat) (e : Entry) (o : ScanOp) : State :=
  let r := s.wrap { party := c, ctx := s.ctxOn c } c o
  let x := r.2.slot c o.slot
  let s1 := (r.2.setSlot c o.slot { x with state := .resident, held := false }).modMem c (fun y => { y with cstep := 0 })
  let e1 := { e with busy := false, skip := true }
  if r.1 ∨ (((s.mem c).q 4).headD {}).opv.getD 2 0 = 1 then (s1.modMem c (fun y => y.setHead 4 e1)).scanStop c { cause := 0x80 }
  else if o.flip ∧ s.strict c = true then
    s1.modMem c (fun y => y.setHead 4 (s.padEntry (portDelay c (s.slotCtl { party := c, ctx := s.ctxOn c } x).1) e1))
  else s1.modMem c (fun y => (y.pop 4).postPrefix 4 e.pfx)

/-- SCAN_STEP (R295): the SE of core `c` performs its next step once the slot at HEAD of qi is FILLED and, with EMIT, the slot at TAIL of qo is FREE;
after the last step the instruction completes. -/
def execScanStep (c : Nat) (s : State) : Out :=
  match s.scanBusy c with
  | none => .next s
  | some (e, o) =>
    let m : ScanMd := { fpm := e.opv.getD 0 0, scm := e.opv.getD 1 0 }
    let t := bits (s.mem c).cstep 6 0
    let ri := tgetD (s.mem c).rings o.qi {}
    let ro := tgetD (s.mem c).rings o.qo {}
    let last := fun (s : State) => if o.flip ∧ s.placeTaken c = true then s else s.scanEnd c e o
    if o.n ≤ t then .next (last s)
    else if ri.canPop 1 = false ∨ (o.emit = true ∧ ro.canPush 1 = false) then .next s
    else
      let rs := ri.headRanges 1 ++ (if o.emit then ro.tailRanges 1 else [])
      match s.present? c rs with
      | some s1 => .next s1
      | none =>
        let s1 := (s.modCore c (fun x => x.used (rs.flatMap (fun r => pagesOf r.1 r.2)) s.ptc)).scanOne c o m t ri ro
        .next (if o.n ≤ bits (s1.mem c).cstep 6 0 then last s1 else s1)

/-- COMMIT_WAIT_RECHECK (R275): 64 clocks after its last read (each counted at the DVFS point then in force, 00 R6), the SE reads COMMITW again; its
instruction may issue once LSTEP ≤ COMMITW. -/
def execCommitWaitRecheck (c : Nat) (s : State) : Out :=
  match (s.mem c).headOf 4 with
  | none => .next s
  | some e =>
    match e.issued, e.opv with
    | false, [0, t] =>
      if s.mayIssue c = false ∨ s.placeTaken c = true ∨ s.power.mclk < t + 64000 then .next s
      else
        let b := (e.lanes.getD 1 0).toNat
        let (ok, w, s1) := s.commitRead c (s.slot c (bits b 31 24)) (bits b 23 12)
        .next (s1.modMem c (fun y => y.setHead 4 (s.commitMark c w ok e)))
    | _, _ => .next s

end Sys2Proof.Machine
end

