-- ==== Sys2Proof/Machine/VecFunc.lean ====
section
/-! DEFINITION. Special functions, division, reductions, scans, keys, histograms and permutations of the vector engine (08 R198 to R209). -/

namespace Sys2Proof.Machine

/-- A function of R54 on one element: rounded once into the element's type (R198). -/
def fnElem (md : RMode) (g : FV → FV × Nat) (t : Ty) (a : Nat) : Nat × Nat :=
  match t with
  | .flt f =>
    let y := g (f.val md.fz a)
    let r := f.roundV y.1 md
    (r.1, y.2 ||| r.2)
  | _ => (0, 0)

/-- VEXP2 (R198). -/
def execVexp2 (d a p m : Nat) (s : State) : Out := s.ew1 okF d a p m (fnElem s.md FV.exp2)

/-- VEXP (R198). -/
def execVexp (d a p m : Nat) (s : State) : Out := s.ew1 okF d a p m (fnElem s.md FV.exp)

/-- VLOG2 (R198). -/
def execVlog2 (d a p m : Nat) (s : State) : Out := s.ew1 okF d a p m (fnElem s.md FV.log2)

/-- VLN (R198). -/
def execVln (d a p m : Nat) (s : State) : Out := s.ew1 okF d a p m (fnElem s.md FV.ln)

/-- VRCP (R198). -/
def execVrcp (d a p m : Nat) (s : State) : Out := s.ew1 okF d a p m (fnElem s.md FV.rcp)

/-- VRSQ (R198). -/
def execVrsq (d a p m : Nat) (s : State) : Out := s.ew1 okF d a p m (fnElem s.md FV.rsqrt)

/-- VSQRT (R198). -/
def execVsqrt (d a p m : Nat) (s : State) : Out := s.ew1 okF d a p m (fnElem s.md FV.sqrt)

/-- VSIGM (R198, R55). -/
def execVsigm (d a p m : Nat) (s : State) : Out := s.ew1 okF d a p m (fnElem s.md (sigmoid32 s.md))

/-- VSOFTP (R198, R55). -/
def execVsoftp (d a p m : Nat) (s : State) : Out := s.ew1 okF d a p m (fnElem s.md (softplus32 s.md))

/-- VTANH (R198, R55). -/
def execVtanh (d a p m : Nat) (s : State) : Out := s.ew1 okF d a p m (fnElem s.md (tanh32 s.md))

/-- a / b (R199). -/
def divElem (md : RMode) (t : Ty) (a b : Nat) : Nat × Nat :=
  match t with
  | .flt f =>
    let y := FV.div (f.val md.fz a) (f.val md.fz b)
    let r := f.roundV y.1 md
    (r.1, y.2 ||| r.2)
  | _ => (0, 0)

/-- VDIV (R199). -/
def execVdiv (d a b p q m : Nat) (s : State) : Out := s.ew2 okF d a b p q m (divElem s.md)

/-- A line of a reduction (R200): its positions in order, each row and element column; and its result position. -/
structure Line where
  ps : List (Nat × Nat)
  out : Nat × Nat
  deriving DecidableEq, Repr

/-- The lines of the shape: rows when `dir` = 0, with one line for each part of a complex type; columns when `dir` = 1 (R200). -/
def Member.linesOf (m : Member) (t : Ty) (dir : Nat) : List Line :=
  if dir = 0 then
    (List.range m.rows).flatMap (fun i => (List.range (min t.step m.cols)).map (fun p =>
      { ps := ((List.range (m.cols / t.step)).map (fun u => (i, t.step * u + p))), out := (i, p) }))
  else (List.range m.cols).map (fun j => { ps := (List.range m.rows).map (fun i => (i, j)), out := (0, j) })

/-- Whether a selector selects an element; the even column of a complex value decides (R168, R200). -/
def selected (mask : Nat) (t : Ty) (x : Nat × Nat) : Bool := bit mask (32 * x.1 + x.2 / t.step * t.step)

/-- Ends a reduction: one cell for each line. -/
def State.reduce (s : State) (t : Ty) (d a p dir mk : Nat) (f : List (Nat × Nat) → Nat × Nat) : Out :=
  let mask := s.maskIn mk
  let rs := (s.cm.linesOf t dir).map (fun l => (l.out, f (l.ps.filter (selected mask t))))
  s.writeTile d t.ew (rs.map (fun r => { i := r.1.1, u := r.1.2, v := r.2.1 }), rs.foldl (fun e r => e ||| r.2.2) 0) [(a, p)] mk

/-- The raw elements of a list of positions of a source. -/
def State.elems (s : State) (a p : Nat) (t : Ty) (ps : List (Nat × Nat)) : List Nat := ps.map (fun x => unitAt (s.src a p x.1) t.ew x.2)

/-- The sum of a line (R201). -/
def sumLine (md : RMode) (t : Ty) (xs : List Nat) : Nat × Nat :=
  match t.part with
  | .flt f =>
    let y := pairSum md 5 (xs.map (f.val md.fz))
    let r := f.roundV y.1 md
    (r.1, y.2 ||| r.2)
  | .int sgn w => saturate sgn w (xs.foldl (fun a x => a + intVal sgn w x) 0)
  | _ => (0, 0)

/-- VREDS (R201). -/
def execVreds (d a r p k : Nat) (s : State) : Out :=
  let t := s.cm.ty
  if okFIC t = false then s.trap 0x40
  else s.reduce t d a p r k (fun ps => sumLine s.md t (s.elems a p t ps))

/-- Types of VREDM and VREDN (R202). -/
def okRedm (t : Ty) : Bool := match t with
  | .flt _ => true | .int _ w => decide (8 ≤ w) | _ => false

/-- Whether element `x` beats element `y` (R177), both flushed and not NaN. -/
def beats (gt : Bool) (t : Ty) (x y : Nat) : Bool :=
  match t with
  | .flt f => if gt then FV.lt true (f.decode y) (f.decode x) else FV.lt true (f.decode x) (f.decode y)
  | .int sgn w => if gt then decide (intVal sgn w y < intVal sgn w x) else decide (intVal sgn w x < intVal sgn w y)
  | _ => false

/-- What a line with no selected element gives (R202). -/
def emptyRed (gt : Bool) (t : Ty) : Nat :=
  match t with
  | .flt f => f.infBits gt
  | .int sgn w => ofSigned w (if gt then intMin sgn w else intMax sgn w)
  | _ => 0

/-- The extreme of a line as (index, value): elements with their indices, the first of the best (R202). -/
def extreme (gt fz : Bool) (t : Ty) (xs : List (Nat × Nat)) : Option (Nat × Nat) :=
  let isNan := fun (x : Nat) => match t with
    | .flt f => (f.decode x).isNan
    | _ => false
  let fl := xs.map (fun x => (x.1, match t with
    | .flt f => f.flushBits fz x.2
    | _ => x.2))
  let nums := fl.filter (fun x => !isNan x.2)
  match nums with
  | [] => match fl, t with
    | x :: _, .flt f => some (x.1, f.cnan)
    | _, _ => none
  | x :: r => some (r.foldl (fun b y => if beats gt t y.2 b.2 then y else b) x)

/-- VREDM and VREDN (R202): the value, or with `idx` the index. -/
def State.redExtreme (s : State) (gt idx : Bool) (d a dir p k : Nat) : Out :=
  let t := s.cm.ty
  if okRedm t = false then s.trap 0x40
  else
    s.reduce t d a p dir k (fun ps =>
      let xs := ps.map (fun x => (if dir = 0 then x.2 else x.1, unitAt (s.src a p x.1) t.uw x.2))
      match extreme gt s.md.fz t xs with
      | none => (if idx then 2 ^ t.uw - 1 else emptyRed gt t, 0)
      | some (i, v) => (if idx then i else v, 0))

/-- VREDM (R202). -/
def execVredm (d a r p k : Nat) (s : State) : Out := s.redExtreme true false d a r p k

/-- VREDM, idx form (R202). -/
def execVredmIdx (d a r p k : Nat) (s : State) : Out := s.redExtreme true true d a r p k

/-- VREDN (R202). -/
def execVredn (d a r p k : Nat) (s : State) : Out := s.redExtreme false false d a r p k

/-- VREDN, idx form (R202). -/
def execVrednIdx (d a r p k : Nat) (s : State) : Out := s.redExtreme false true d a r p k

/-- A running sum of a scan: nothing yet, an exact integer, or a floating value. -/
inductive Run where
  | empty
  | int (v : Int)
  | flt (v : FV)
  deriving DecidableEq, Repr

/-- Adds an element to a running sum (R203). -/
def Run.add (md : RMode) (t : Ty) (p : Run) (x : Nat) : Run × Nat :=
  match t.part with
  | .flt f =>
    let v := f.val md.fz x
    match p with
    | .flt u => let r := add32 md u v; (.flt r.1, r.2)
    | _ => (.flt v, 0)
  | .int sgn w =>
    match p with
    | .int u => (.int (u + intVal sgn w x), 0)
    | _ => (.int (intVal sgn w x), 0)
  | _ => (p, 0)

/-- The written value of a running sum. -/
def Run.out (md : RMode) (t : Ty) (p : Run) : Nat × Nat :=
  match p, t.part with
  | .flt v, .flt f => f.roundV v md
  | .int v, .int sgn w => saturate sgn w v
  | _, _ => (0, 0)

/-- One line of a scan (R203): results in order and exceptions. -/
def scanLine (md : RMode) (t : Ty) (excl : Bool) (xs : List (Bool × Nat)) (p : Run) : List Nat × Nat :=
  match xs with
  | [] => ([], 0)
  | (sel, x) :: r =>
    let (p1, e1) := if sel then p.add md t x else (p, 0)
    let (v, e2) := (if sel && excl then p else p1).out md t
    let rest := scanLine md t excl r p1
    (v :: rest.1, e1 ||| e2 ||| rest.2)

/-- VSCANS (R203). -/
def execVscans (d a e r p k : Nat) (s : State) : Out :=
  let t := s.cm.ty
  if okFIC t = false then s.trap 0x40
  else
    let mask := s.maskIn k
    let rs := (s.cm.linesOf t r).map (fun l =>
      (l.ps, scanLine s.md t (e == 1) (l.ps.map (fun x => (selected mask t x, unitAt (s.src a p x.1) t.ew x.2))) .empty))
    let cells := rs.flatMap (fun r => (r.1.zip r.2.1).map (fun c => { i := c.1.1, u := c.1.2, v := c.2 : Cell }))
    s.writeTile d t.ew (cells, rs.foldl (fun e r => e ||| r.2.2) 0) [(a, p)] k

/-- The key of an element (R204). -/
def keyElem (desc : Bool) (t : Ty) (x : Nat) : Nat :=
  let w := t.uw
  let flip := fun (k : Nat) => if desc then 2 ^ w - 1 - k else k
  match t with
  | .flt f =>
    if (f.decode x).isNan then 0
    else flip (if bit x (w - 1) then 2 ^ w - 1 - x else x + 2 ^ (w - 1))
  | .int true _ => flip (if bit x (w - 1) then x - 2 ^ (w - 1) else x + 2 ^ (w - 1))
  | _ => flip x

/-- VKEY (R204). -/
def execVkey (d a k p m : Nat) (s : State) : Out := s.ew1 okFI d a p m (fun t x => (keyElem (k == 1) t x, 0))

/-- The histogram of the digits of keys that pass the filter (R205): how many have digit `k`. -/
def digitCount (w b flt : Nat) (keys : List Nat) (k : Nat) : Nat :=
  let v := flt % 2 ^ w
  let f := flt / 2 ^ 32 % 2 ^ w
  (keys.filter (fun x => (x &&& f) == (v &&& f) && x / 2 ^ (8 * b) % 256 == k)).length

/-- VHIST (R205). -/
def execVhist (d a c k b p m : Nat) (s : State) : Out :=
  match s.cm.ty with
  | .int false w =>
    if w = 4 then s.trap 0x40
    else if w / 8 ≤ b then s.trap 0x03
    else
      let mask := s.maskIn m
      let t : Ty := .int false w
      let keys := ((s.cm.units t).filter (fun x => maskBit mask t x.1 x.2)).map (fun x => unitAt (s.src a p x.1) w x.2)
      let flt := (tgetD s.cm.x k 0).toNat
      let cells := (List.range 256).map (fun n =>
        let old := if c = 1 then unitAt (s.src d 0 (n / 32)) 32 (n % 32) else 0
        { i := n / 32, u := n % 32, v := (old + digitCount w b flt keys n) % 2 ^ 32 : Cell })
      (if c = 1 then s.noteRead 8 [(d, 0)] [] else s).writeTile d 32 (cells, 0) [(a, p)] m
  | _ => s.trap 0x40

/-- VPERMB (R206): whatever the type. -/
def execVpermb (d a b p q m : Nat) (s : State) : Out :=
  let mask := s.maskIn m
  let cells := ((List.range s.cm.rows).filter (fun i => bit mask (32 * i))).flatMap (fun i =>
    (List.range 128).map (fun n =>
      let c := unitAt (s.src b q i) 8 n
      { i := i, u := n, v := if 128 ≤ c then 0 else unitAt (s.src a p i) 8 c : Cell }))
  s.writeTile d 8 (cells, 0) [(a, p), (b, q)] m

/-- VBITG and VBITS on raw bits (R207). -/
def bitGather (w a b : Nat) : Nat :=
  ((List.range w).foldl (fun (r : Nat × Nat) q => if bit b q then (r.1 + b2n (bit a q) * 2 ^ r.2, r.2 + 1) else r) (0, 0)).1
def bitScatter (w a b : Nat) : Nat :=
  ((List.range w).foldl (fun (r : Nat × Nat) q => if bit b q then (r.1 + b2n (bit a r.2) * 2 ^ q, r.2 + 1) else r) (0, 0)).1

/-- VBITG (R207). -/
def execVbitg (d a b p q m : Nat) (s : State) : Out := s.ew2 okI d a b p q m (fun t a b => (bitGather t.uw a b, 0))

/-- VBITS (R207). -/
def execVbits (d a b p q m : Nat) (s : State) : Out := s.ew2 okI d a b p q m (fun t a b => (bitScatter t.uw a b, 0))

/-- VSHUF (R208). -/
def execVshuf (d a b p q m : Nat) (s : State) : Out :=
  let t := s.cm.ty
  if okFI t = false then s.trap 0x40
  else
    s.elementWise t d m [(a, p), (b, q)] (fun i j =>
      let c := unitAt (s.src b q i) 8 j
      (if 128 ≤ c ∨ s.cm.cols ≤ c % 32 then 0 else unitAt (s.src a p i) t.uw (c % 32), 0))

/-- The sequences of VCOMP and VEXPD: one for each row, or one for the whole shape (R209). -/
def Member.sequences (m : Member) (t : Ty) (lin : Nat) : List (List (Nat × Nat)) :=
  if lin = 1 then [m.units t]
  else (List.range m.rows).map (fun i => (List.range (m.cols / t.step)).map (fun u => (i, u)))

/-- The cells of VCOMP on one sequence: `src` gives a unit's bits. -/
def compCells (keep : Bool) (us sel : List (Nat × Nat)) (src : Nat × Nat → Nat) : List Cell :=
  match us, sel with
  | [], _ => []
  | u :: r, x :: xs => { i := u.1, u := u.2, v := src x } :: compCells keep r xs src
  | u :: r, [] => (if keep then [] else [{ i := u.1, u := u.2, v := 0 }]) ++ compCells keep r [] src

/-- The cells of VEXPD on one sequence: `ps` are the packed positions left. -/
def expCells (keep : Bool) (isSel : Nat × Nat → Bool) (us ps : List (Nat × Nat)) (src : Nat × Nat → Nat) : List Cell :=
  match us with
  | [] => []
  | u :: r =>
    if isSel u then
      match ps with
      | x :: xs => { i := u.1, u := u.2, v := src x } :: expCells keep isSel r xs src
      | [] => expCells keep isSel r [] src
    else (if keep then [] else [{ i := u.1, u := u.2, v := 0 }]) ++ expCells keep isSel r ps src

/-- VCOMP (R209); `k` is keep, `r` the mode. -/
def execVcomp (d a k r p ms : Nat) (s : State) : Out :=
  let t := s.cm.ty
  if okFIC t = false then s.trap 0x40
  else
    let mask := s.maskIn ms
    let cells := (s.cm.sequences t r).flatMap (fun us =>
      compCells (k == 1) us (us.filter (fun x => maskBit mask t x.1 x.2)) (fun x => unitAt (s.src a p x.1) t.uw x.2))
    s.writeTile d t.uw (cells, 0) [(a, p)] ms

/-- VEXPD (R209). -/
def execVexpd (d a k r p ms : Nat) (s : State) : Out :=
  let t := s.cm.ty
  if okFIC t = false then s.trap 0x40
  else
    let mask := s.maskIn ms
    let cells := (s.cm.sequences t r).flatMap (fun us =>
      expCells (k == 1) (fun x => maskBit mask t x.1 x.2) us us (fun x => unitAt (s.src a p x.1) t.uw x.2))
    s.writeTile d t.uw (cells, 0) [(a, p)] ms

end Sys2Proof.Machine
end

