-- ==== Sys2Proof/Machine/VecMove.lean ====
section
/-! DEFINITION. Shape, moves, masks, mailboxes, and scratch and ring accesses of the vector engine (07 R167, R169, R184 to R194). -/

namespace Sys2Proof.Machine

/-- VSHAPE (R167): odd complex columns, or block columns other than 16 and 32, trap TILE_SHAPE. -/
def execVshape (r c t : Nat) (s : State) : Out :=
  let ty := tyOf t
  if (ty.isC ∧ (c + 1) % 2 = 1) ∨ (ty.isB ∧ c + 1 ≠ 16 ∧ c + 1 ≠ 32) then s.trap 0x41
  else (s.modCm (fun m => { m with vshape := r * 2 ^ 20 + c * 2 ^ 15 + t * 2 ^ 10 })).done

/-- VMOV (R184): raw bits of every type; blocks whole. -/
def execVmov (d a p m : Nat) (s : State) : Out := s.ew1 okAny d a p m (fun _ a => (a, 0))

/-- VTRANS (R184): d(j, i) := a(i, j) under the mask bits of (j, i). -/
def execVtrans (d a p m : Nat) (s : State) : Out :=
  let t := s.cm.ty
  if okFI t = false then s.trap 0x40
  else
    let mk := s.maskIn m
    let cs := (s.cm.units t).filterMap (fun x =>
      if bit mk (32 * x.2 + x.1) then some { i := x.2, u := x.1, v := unitAt (s.src a p x.1) t.uw x.2 } else none)
    s.writeTile d t.uw (cs, 0) [(a, p)] m

/-- VBCAST of a value: every unit in the shape, under the write mask (R185). -/
def State.broadcast (s : State) (d m : Nat) (ops : List (Nat × Nat)) (f : Ty → Nat → Nat → Nat) : Out :=
  let t := s.cm.ty
  s.elementWise t d m ops (fun i u => (f t i u, 0))

/-- The index of a column operand names no unit of the shape: TILE_SHAPE (R175 row 2). -/
def Member.badCol (m : Member) (j : Nat) : Bool := decide (m.cols ≤ j) || (m.ty.isC && j % 2 == 1)

/-- VBCAST of a mailbox (R185). -/
def execVbcastMailbox (d n m : Nat) (s : State) : Out :=
  if okFIC s.cm.ty = false then s.trap 0x40
  else s.broadcast d m [] (fun t _ _ => (tgetD s.cm.x n 0).toNat % 2 ^ t.uw)

/-- VBCAST of element (0, j) (R185). -/
def execVbcastElem (d a j p m : Nat) (s : State) : Out :=
  if okFIC s.cm.ty = false then s.trap 0x40
  else if s.cm.badCol j then s.trap 0x41
  else (s.noteRows [s.rowOf a p 0]).broadcast d m [] (fun t _ _ => unitAt (s.src a p 0) t.uw (j / t.step))

/-- VBCAST of row i (R185). -/
def execVbcastRow (d a i p m : Nat) (s : State) : Out :=
  if okFIC s.cm.ty = false then s.trap 0x40
  else if s.cm.rows ≤ i then s.trap 0x41
  else (s.noteRows [s.rowOf a p i]).broadcast d m [] (fun t _ u => unitAt (s.src a p i) t.uw u)

/-- VBCAST of column j (R185). -/
def execVbcastCol (d a j p m : Nat) (s : State) : Out :=
  if okFIC s.cm.ty = false then s.trap 0x40
  else if s.cm.badCol j then s.trap 0x41
  else s.broadcast d m [(a, p)] (fun t i _ => unitAt (s.src a p i) t.uw (j / t.step))

/-- The index value of a position (R186). -/
def iotaVal (k cols i j : Nat) : Nat :=
  match k with
  | 0 => j | 1 => i | _ => i * cols + j

/-- VIOTA (R186). -/
def execViota (d k m : Nat) (s : State) : Out :=
  let t := s.cm.ty
  if okFI t = false then s.trap 0x40
  else
    s.elementWise t d m [] (fun i j =>
      match t with
      | .int sgn w => saturate sgn w (iotaVal k s.cm.cols i j)
      | .flt f => f.roundV (fvInt (iotaVal k s.cm.cols i j)) s.md
      | _ => (0, 0))

/-- The raw bits of element (·, j) of a storage row: a part of a complex value, an element of a block (R187). -/
def rawElem (t : Ty) (row j : Nat) : Nat :=
  match t with
  | .blk w => unitAt row t.uw (j / 16) / 2 ^ (16 + j % 16 * w) % 2 ^ w
  | _ => unitAt row t.ew j

/-- Ends a VMSK: mask `n` gets the bits `f i j` in the shape (R187). -/
def State.writeMask (s : State) (n : Nat) (ops : List (Nat × Nat)) (mks : List Nat) (f : Nat → Nat → Bool) : Out :=
  ((s.noteRow ops mks).modCm (fun x => x.putMask n (s.cm.maskOf f))).done

/-- VMSK copy (R187). -/
def execVmskCopy (n ms : Nat) (s : State) : Out := s.writeMask n [] [ms] (fun i j => bit (s.maskIn ms) (32 * i + j))

/-- VMSK not (R187). -/
def execVmskNot (n ms : Nat) (s : State) : Out := s.writeMask n [] [ms] (fun i j => !bit (s.maskIn ms) (32 * i + j))

/-- VMSK nz (R187). -/
def execVmskNz (n a p ms : Nat) (s : State) : Out :=
  s.writeMask n [(a, p)] [ms] (fun i j => bit (s.maskIn ms) (32 * i + j) && rawElem s.cm.ty (s.src a p i) j != 0)

/-- VMSK cols (R187); `c` is n − 1. -/
def execVmskCols (n c ms : Nat) (s : State) : Out := s.writeMask n [] [ms] (fun i j => bit (s.maskIn ms) (32 * i + j) && decide (j ≤ c))

/-- VMSK rows (R187); `c` is n − 1. -/
def execVmskRows (n c ms : Nat) (s : State) : Out := s.writeMask n [] [ms] (fun i j => bit (s.maskIn ms) (32 * i + j) && decide (i ≤ c))

/-- VMSK and (R187). -/
def execVmskAnd (n k ms : Nat) (s : State) : Out :=
  s.writeMask n [] [ms, k] (fun i j => bit (s.maskIn ms) (32 * i + j) && bit (s.maskIn k) (32 * i + j))

/-- VMSK or (R187). -/
def execVmskOr (n k ms : Nat) (s : State) : Out :=
  s.writeMask n [] [ms, k] (fun i j => bit (s.maskIn ms) (32 * i + j) || bit (s.maskIn k) (32 * i + j))

/-- The number of bits of a mask in the shape (R188). -/
def Member.countMask (m : Member) (v : Nat) : Nat :=
  (List.range m.rows).foldl (fun n i => (List.range m.cols).foldl (fun n j => n + b2n (bit v (32 * i + j))) n) 0

/-- VMCNT (R188). -/
def execVmcnt (k x : Nat) (s : State) : Out :=
  ((s.noteRow [] [k]).modCm (fun m => { m with x := tset m.x x (BitVec.ofNat 64 (m.countMask (s.maskIn k))) })).done

/-- VTOX (R189): an .i element is sign-extended, every other one zero-extended. -/
def execVtox (a j x p : Nat) (s : State) : Out :=
  let t := s.cm.ty
  if okFIC t = false then s.trap 0x40
  else if s.cm.badCol j then s.trap 0x41
  else
    let v := unitAt (s.src a p 0) t.uw (j / t.step)
    let w := match t with
      | .int true n => sext64 n v
      | _ => BitVec.ofNat 64 v
    ((s.noteRows [s.rowOf a p 0]).modCm (fun m => { m with x := tset m.x x w })).done

/-- The address of a VLD or VST (R192). -/
def State.vmAddr (s : State) (xa xs le lvl imm : Nat) : Nat :=
  let x := fun n => tgetD s.cm.x n 0
  (x xa + sext64 6 imm * 64 + (if le = 1 then s.stamp.lcOf lvl * x xs else 0)).toNat

/-- Checks 3 to 5 of R175, then `f` with the address of the image, once its pages are pinned. SCRATCH_RANGE reports the image's address as the offending one, also when
only its end passes the scratch addresses (DESIGN CHOICE, log entry 56). -/
def State.withImage (s : State) (xa xs le lvl imm : Nat) (f : State → Nat → Out) : Out :=
  let ea := s.vmAddr xa xs le lvl imm
  let n := s.cm.imageBytes
  if le = 1 ∧ s.cm.kern.loops.length ≤ lvl then s.trap 0x42
  else if 0x1000000 < ea + n then s.trapWith { cause := 0x11, taddr := ea }
  else if ea % 64 ≠ 0 then s.trapWith { cause := 0x13, taddr := ea }
  else s.withScratch [(ea, n)] (fun s => f s ea)

/-- VLD (R192). -/
def execVld (v a xs e l i m : Nat) (s : State) : Out :=
  s.withImage a xs e l i (fun s ea =>
    let r := s.sreadUe s.cur.core ea s.cm.imageBytes
    ((r.2.noteRow [] [m]).modCm (fun x => x.putCells (s.tileNo v) s.cm.ty.uw (s.cm.imageCells (s.maskIn m) r.1))).done)

/-- The bytes of an image row of `P` bytes at `ea` that the admitted units cover, with their addresses (R192). -/
def Member.imageWrites (m : Member) (mask ea i row old : Nat) : List (Nat × Byte) :=
  let P := imageP m.ty m.cols
  let new := m.imageRow mask i row old
  let cover := m.imageRow mask i (2 ^ 1024 - 1) 0
  ((List.range P).filter (fun k => unitAt cover 8 k != 0)).map (fun k => (ea + i * P + k, BitVec.ofNat 8 (unitAt new 8 k)))

/-- VST (R192). -/
def execVst (v a xs e l i m : Nat) (s : State) : Out :=
  s.withImage a xs e l i (fun s ea =>
    let P := imageP s.cm.ty s.cm.cols
    let mk := s.maskIn m
    let ws := (List.range s.cm.rows).flatMap (fun i =>
      s.cm.imageWrites mk ea i (s.src v 0 i) (leNat (s.sread s.cur.core (ea + i * P) P)))
    ((s.noteRow [(v, 0)] [m]).sput s.cur.core ws).done)

/-- The tap chain shifts, and the popped image's elements enter t1 (R169). -/
def Member.shiftTaps (m : Member) (bs : List Byte) : Member :=
  let old := m.taps
  let t1 := (List.range 32).map (fun i => (32 + i, BitVec.ofNat 1024 0))
  let up := (old.filter (fun p => decide (p.1 < 7 * 32))).map (fun p => (p.1 + 32, p.2))
  let cells := m.imageCells (2 ^ 1024 - 1) bs
  { m with taps := cells.foldl (fun ts c =>
      tset ts (32 + c.i) (BitVec.ofNat 1024 (putUnit (tgetD ts (32 + c.i) 0).toNat m.ty.uw c.u c.v))) (t1 ++ up.filter (fun p => decide (64 ≤ p.1))) }

/-- VLDR (R194): pops a slot, shifts the tap chain, writes the tile. -/
def execVldr (d q m : Nat) (s : State) : Out :=
  match s.ring q with
  | none => s.trap 0x50
  | some r =>
    let n := s.cm.imageBytes
    if r.slotb < n then s.trap 0x51
    else if r.canPop 1 = false then s.waits
    else
      s.withScratch [(r.headAddr 0, n)] (fun s =>
        let x := s.sreadUe s.cur.core (r.headAddr 0) n
        (((x.2.noteRow [] [m]).modCm (fun k => (k.shiftTaps x.1).putCells (s.tileNo d) k.ty.uw (k.imageCells (s.maskIn m) x.1))).modRing q (fun r => r.popped 1)).done)

/-- VSTR (R193): pushes the image, masked-off elements zero. -/
def execVstr (v q m : Nat) (s : State) : Out :=
  match s.ring q with
  | none => s.trap 0x50
  | some r =>
    let P := imageP s.cm.ty s.cm.cols
    if r.slotb < s.cm.imageBytes then s.trap 0x51
    else if r.canPush 1 = false then s.waits
    else
      s.withScratch [(r.tailAddr 0, r.slotb)] (fun s =>
        let mk := s.maskIn m
        let bs := (List.range s.cm.rows).flatMap (fun i => leBytes P (s.cm.imageRow mk i (s.src v 0 i) 0))
        ((s.noteRow [(v, 0)] [m]).pushSlots q r [bs]).done)

end Sys2Proof.Machine
end

