-- ==== Sys2Proof/Machine/Dispatch.lean ====
section
/-! DEFINITION. `exec`: one arm for each constructor of `Instr`, each one direct call of its meaning. -/

namespace Sys2Proof.Machine

/-- Executes an instruction, or performs an event, as one whole step. -/
def exec (i : Instr) (s : State) : Host.Outcome State Fault Refusal :=
  match i with
  | .nop => Sys2Proof.Machine.execNop s
  | .add d a b => Sys2Proof.Machine.execAdd d a b s
  | .sub d a b => Sys2Proof.Machine.execSub d a b s
  | .and d a b => Sys2Proof.Machine.execAnd d a b s
  | .or d a b => Sys2Proof.Machine.execOr d a b s
  | .xor d a b => Sys2Proof.Machine.execXor d a b s
  | .shl d a b => Sys2Proof.Machine.execShl d a b s
  | .shr d a b => Sys2Proof.Machine.execShr d a b s
  | .sar d a b => Sys2Proof.Machine.execSar d a b s
  | .mul d a b => Sys2Proof.Machine.execMul d a b s
  | .mulh d a b => Sys2Proof.Machine.execMulh d a b s
  | .mulhn d a b => Sys2Proof.Machine.execMulhn d a b s
  | .div d a b => Sys2Proof.Machine.execDiv d a b s
  | .divn d a b => Sys2Proof.Machine.execDivn d a b s
  | .rem d a b => Sys2Proof.Machine.execRem d a b s
  | .remn d a b => Sys2Proof.Machine.execRemn d a b s
  | .min d a b => Sys2Proof.Machine.execMin d a b s
  | .max d a b => Sys2Proof.Machine.execMax d a b s
  | .minn d a b => Sys2Proof.Machine.execMinn d a b s
  | .maxn d a b => Sys2Proof.Machine.execMaxn d a b s
  | .slt d a b => Sys2Proof.Machine.execSlt d a b s
  | .sltn d a b => Sys2Proof.Machine.execSltn d a b s
  | .seq d a b => Sys2Proof.Machine.execSeq d a b s
  | .clz d a => Sys2Proof.Machine.execClz d a s
  | .popc d a => Sys2Proof.Machine.execPopc d a s
  | .bext d a b l => Sys2Proof.Machine.execBext d a b l s
  | .bins d a b l => Sys2Proof.Machine.execBins d a b l s
  | .brev d a => Sys2Proof.Machine.execBrev d a s
  | .addi d a im => Sys2Proof.Machine.execAddi d a im s
  | .andi d a im => Sys2Proof.Machine.execAndi d a im s
  | .ori d a im => Sys2Proof.Machine.execOri d a im s
  | .xori d a im => Sys2Proof.Machine.execXori d a im s
  | .shli d a n => Sys2Proof.Machine.execShli d a n s
  | .shri d a n => Sys2Proof.Machine.execShri d a n s
  | .sari d a n => Sys2Proof.Machine.execSari d a n s
  | .slti d a im => Sys2Proof.Machine.execSlti d a im s
  | .ldi d im => Sys2Proof.Machine.execLdi d im s
  | .ldiw d im => Sys2Proof.Machine.execLdiw d im s
  | .ldih d a im => Sys2Proof.Machine.execLdih d a im s
  | .muli d a im => Sys2Proof.Machine.execMuli d a im s
  | .lds d a z im => Sys2Proof.Machine.execLds d a z im s
  | .sts d a z im => Sys2Proof.Machine.execSts d a z im s
  | .lda d a z im => Sys2Proof.Machine.execLda d a z im s
  | .stl d a z im => Sys2Proof.Machine.execStl d a z im s
  | .fence => Sys2Proof.Machine.execFence s
  | .fenceAcq => Sys2Proof.Machine.execFenceAcq s
  | .fenceRel => Sys2Proof.Machine.execFenceRel s
  | .cflush a im => Sys2Proof.Machine.execCflush a im s
  | .b o => Sys2Proof.Machine.execB o s
  | .bc a b c o => Sys2Proof.Machine.execBc a b c o s
  | .bz a c o => Sys2Proof.Machine.execBz a c o s
  | .call d o => Sys2Proof.Machine.execCall d o s
  | .ret a => Sys2Proof.Machine.execRet a s
  | .jr a => Sys2Proof.Machine.execJr a s
  | .loop l a o => Sys2Proof.Machine.execLoop l a o s
  | .loopx l a o => Sys2Proof.Machine.execLoopx l a o s
  | .lcrd d l => Sys2Proof.Machine.execLcrd d l s
  | .lcrdTrips d l => Sys2Proof.Machine.execLcrdTrips d l s
  | .stage n => Sys2Proof.Machine.execStage n s
  | .stageSet a n => Sys2Proof.Machine.execStageSet a n s
  | .rotb a n => Sys2Proof.Machine.execRotb a n s
  | .tkwait k => Sys2Proof.Machine.execTkwait k s
  | .tkpost k => Sys2Proof.Machine.execTkpost k s
  | .tkset a k => Sys2Proof.Machine.execTkset a k s
  | .tkrd d k => Sys2Proof.Machine.execTkrd d k s
  | .mbrd d x => Sys2Proof.Machine.execMbrd d x s
  | .mbwr a x => Sys2Proof.Machine.execMbwr a x s
  | .binit a n => Sys2Proof.Machine.execBinit a n s
  | .barv n => Sys2Proof.Machine.execBarv n s
  | .bwait d n => Sys2Proof.Machine.execBwait d n s
  | .bdrop n => Sys2Proof.Machine.execBdrop n s
  | .binval n => Sys2Proof.Machine.execBinval n s
  | .btime a n => Sys2Proof.Machine.execBtime a n s
  | .csrrd d r => Sys2Proof.Machine.execCsrrd d r s
  | .csrwr a r => Sys2Proof.Machine.execCsrwr a r s
  | .ptcrd d => Sys2Proof.Machine.execPtcrd d s
  | .trap c => Sys2Proof.Machine.execTrap c s
  | .tret => Sys2Proof.Machine.execTret s
  | .yield => Sys2Proof.Machine.execYield s
  | .endK => Sys2Proof.Machine.execEndK s
  | .halt => Sys2Proof.Machine.execHalt s
  | .evpost a b => Sys2Proof.Machine.execEvpost a b s
  | .brk n => Sys2Proof.Machine.execBrk n s
  | .ctxsave d a k => Sys2Proof.Machine.execCtxsave d a k s
  | .ctxsavePark d a k => Sys2Proof.Machine.execCtxsavePark d a k s
  | .ctxload d a k => Sys2Proof.Machine.execCtxload d a k s
  | .ctxloadUnpark d a k => Sys2Proof.Machine.execCtxloadUnpark d a k s
  | .ctxmap d a b => Sys2Proof.Machine.execCtxmap d a b s
  | .preempt d a => Sys2Proof.Machine.execPreempt d a s
  | .preemptY d a => Sys2Proof.Machine.execPreemptY d a s
  | .resume d a => Sys2Proof.Machine.execResume d a s
  | .resumeM d a b => Sys2Proof.Machine.execResumeM d a b s
  | .resumeSkip d a b => Sys2Proof.Machine.execResumeSkip d a b s
  | .resumeEnd d a b => Sys2Proof.Machine.execResumeEnd d a b s
  | .atadd d a b t => Sys2Proof.Machine.execAtadd d a b t s
  | .atmax d a b t => Sys2Proof.Machine.execAtmax d a b t s
  | .atmin d a b t => Sys2Proof.Machine.execAtmin d a b t s
  | .atxchg d a b t => Sys2Proof.Machine.execAtxchg d a b t s
  | .atcas d a b t c => Sys2Proof.Machine.execAtcas d a b t c s
  | .atincnz d a t => Sys2Proof.Machine.execAtincnz d a t s
  | .atdec d a t => Sys2Proof.Machine.execAtdec d a t s
  | .pgpin d a b => Sys2Proof.Machine.execPgpin d a b s
  | .pgunpin d a b => Sys2Proof.Machine.execPgunpin d a b s
  | .pgunpinEv d a b => Sys2Proof.Machine.execPgunpinEv d a b s
  | .slabfwSt d a b => Sys2Proof.Machine.execSlabfwSt d a b s
  | .slabfwMw d a b => Sys2Proof.Machine.execSlabfwMw d a b s
  | .slabfwEnd d a => Sys2Proof.Machine.execSlabfwEnd d a s
  | .tlbinvVa d a b => Sys2Proof.Machine.execTlbinvVa d a b s
  | .tlbinvCtx d b => Sys2Proof.Machine.execTlbinvCtx d b s
  | .tlbinvSlab d a b => Sys2Proof.Machine.execTlbinvSlab d a b s
  | .tlbinvAll d => Sys2Proof.Machine.execTlbinvAll d s
  | .vadd d a b p q m => Sys2Proof.Machine.execVadd d a b p q m s
  | .vsub d a b p q m => Sys2Proof.Machine.execVsub d a b p q m s
  | .vmul d a b p q m => Sys2Proof.Machine.execVmul d a b p q m s
  | .vfma d a b p q m c u => Sys2Proof.Machine.execVfma d a b p q m c u s
  | .vfms d a b p q m c u => Sys2Proof.Machine.execVfms d a b p q m c u s
  | .vfnma d a b p q m c u => Sys2Proof.Machine.execVfnma d a b p q m c u s
  | .vmin d a b p q m => Sys2Proof.Machine.execVmin d a b p q m s
  | .vmax d a b p q m => Sys2Proof.Machine.execVmax d a b p q m s
  | .vabs d a p m => Sys2Proof.Machine.execVabs d a p m s
  | .vneg d a p m => Sys2Proof.Machine.execVneg d a p m s
  | .vcmp d a b p q m cc => Sys2Proof.Machine.execVcmp d a b p q m cc s
  | .vsel d a b p q ms => Sys2Proof.Machine.execVsel d a b p q ms s
  | .vclamp d a b p q m c u => Sys2Proof.Machine.execVclamp d a b p q m c u s
  | .vand d a b p q m => Sys2Proof.Machine.execVand d a b p q m s
  | .vor d a b p q m => Sys2Proof.Machine.execVor d a b p q m s
  | .vxor d a b p q m => Sys2Proof.Machine.execVxor d a b p q m s
  | .vnot d a p m => Sys2Proof.Machine.execVnot d a p m s
  | .vshl d a b p q m => Sys2Proof.Machine.execVshl d a b p q m s
  | .vshr d a b p q m => Sys2Proof.Machine.execVshr d a b p q m s
  | .vsar d a b p q m => Sys2Proof.Machine.execVsar d a b p q m s
  | .vadds d a b p q m => Sys2Proof.Machine.execVadds d a b p q m s
  | .vsubs d a b p q m => Sys2Proof.Machine.execVsubs d a b p q m s
  | .vmulh d a b p q m => Sys2Proof.Machine.execVmulh d a b p q m s
  | .vcmul d a b p q m => Sys2Proof.Machine.execVcmul d a b p q m s
  | .vcmac d a b p q m c u => Sys2Proof.Machine.execVcmac d a b p q m c u s
  | .vcmulj d a b p q m => Sys2Proof.Machine.execVcmulj d a b p q m s
  | .vcmacj d a b p q m c u => Sys2Proof.Machine.execVcmacj d a b p q m c u s
  | .vconj d a p m => Sys2Proof.Machine.execVconj d a p m s
  | .vcabs2 d a p m => Sys2Proof.Machine.execVcabs2 d a p m s
  | .vshape r c t => Sys2Proof.Machine.execVshape r c t s
  | .vmov d a p m => Sys2Proof.Machine.execVmov d a p m s
  | .vbcastMailbox d n m => Sys2Proof.Machine.execVbcastMailbox d n m s
  | .vbcastElem d a j p m => Sys2Proof.Machine.execVbcastElem d a j p m s
  | .vbcastRow d a im p m => Sys2Proof.Machine.execVbcastRow d a im p m s
  | .vbcastCol d a j p m => Sys2Proof.Machine.execVbcastCol d a j p m s
  | .viota d k m => Sys2Proof.Machine.execViota d k m s
  | .vtrans d a p m => Sys2Proof.Machine.execVtrans d a p m s
  | .vld v a ms e l im m => Sys2Proof.Machine.execVld v a ms e l im m s
  | .vst v a ms e l im m => Sys2Proof.Machine.execVst v a ms e l im m s
  | .vldr d q m => Sys2Proof.Machine.execVldr d q m s
  | .vstr v q m => Sys2Proof.Machine.execVstr v q m s
  | .vmskCopy n ms => Sys2Proof.Machine.execVmskCopy n ms s
  | .vmskNot n ms => Sys2Proof.Machine.execVmskNot n ms s
  | .vmskNz n a p ms => Sys2Proof.Machine.execVmskNz n a p ms s
  | .vmskCols n c ms => Sys2Proof.Machine.execVmskCols n c ms s
  | .vmskRows n c ms => Sys2Proof.Machine.execVmskRows n c ms s
  | .vmskAnd n k ms => Sys2Proof.Machine.execVmskAnd n k ms s
  | .vmskOr n k ms => Sys2Proof.Machine.execVmskOr n k ms s
  | .vmcnt k x => Sys2Proof.Machine.execVmcnt k x s
  | .vtox a j x p => Sys2Proof.Machine.execVtox a j x p s
  | .vexp2 d a p m => Sys2Proof.Machine.execVexp2 d a p m s
  | .vexp d a p m => Sys2Proof.Machine.execVexp d a p m s
  | .vlog2 d a p m => Sys2Proof.Machine.execVlog2 d a p m s
  | .vln d a p m => Sys2Proof.Machine.execVln d a p m s
  | .vrcp d a p m => Sys2Proof.Machine.execVrcp d a p m s
  | .vrsq d a p m => Sys2Proof.Machine.execVrsq d a p m s
  | .vsqrt d a p m => Sys2Proof.Machine.execVsqrt d a p m s
  | .vsigm d a p m => Sys2Proof.Machine.execVsigm d a p m s
  | .vsoftp d a p m => Sys2Proof.Machine.execVsoftp d a p m s
  | .vtanh d a p m => Sys2Proof.Machine.execVtanh d a p m s
  | .vdiv d a b p q m => Sys2Proof.Machine.execVdiv d a b p q m s
  | .vreds d a r p ms => Sys2Proof.Machine.execVreds d a r p ms s
  | .vredm d a r p ms => Sys2Proof.Machine.execVredm d a r p ms s
  | .vredmIdx d a r p ms => Sys2Proof.Machine.execVredmIdx d a r p ms s
  | .vredn d a r p ms => Sys2Proof.Machine.execVredn d a r p ms s
  | .vrednIdx d a r p ms => Sys2Proof.Machine.execVrednIdx d a r p ms s
  | .vscans d a e r p ms => Sys2Proof.Machine.execVscans d a e r p ms s
  | .vkey d a k p m => Sys2Proof.Machine.execVkey d a k p m s
  | .vhist d a c k b p m => Sys2Proof.Machine.execVhist d a c k b p m s
  | .vpermb d a b p q m => Sys2Proof.Machine.execVpermb d a b p q m s
  | .vbitg d a b p q m => Sys2Proof.Machine.execVbitg d a b p q m s
  | .vbits d a b p q m => Sys2Proof.Machine.execVbits d a b p q m s
  | .vshuf d a b p q m => Sys2Proof.Machine.execVshuf d a b p q m s
  | .vcomp d a k r p ms => Sys2Proof.Machine.execVcomp d a k r p ms s
  | .vexpd d a k r p ms => Sys2Proof.Machine.execVexpd d a k r p ms s
  | .vcvt d a o p m st dt rnd sx imm => Sys2Proof.Machine.execVcvt d a o p m st dt rnd sx imm s
  | .vpack d a p m st dt rnd sx imm => Sys2Proof.Machine.execVpack d a p m st dt rnd sx imm s
  | .vunpk d a p m st dt rnd sx imm => Sys2Proof.Machine.execVunpk d a p m st dt rnd sx imm s
  | .vsrnd d a p m st dt rnd sx imm => Sys2Proof.Machine.execVsrnd d a p m st dt rnd sx imm s
  | .vqnt d a b p q m st dt rnd sx imm => Sys2Proof.Machine.execVqnt d a b p q m st dt rnd sx imm s
  | .mm qa qb md fi ta tb m n k acc => Sys2Proof.Machine.execMm qa qb md fi ta tb m n k acc s
  | .mmc qa qb md fi ta tb m n k acc cr cc => Sys2Proof.Machine.execMmc qa qb md fi ta tb m n k acc cr cc s
  | .mmt qa qb md fi ta tb m n k acc => Sys2Proof.Machine.execMmt qa qb md fi ta tb m n k acc s
  | .aczero fn acc rows cols => Sys2Proof.Machine.execAczero fn acc rows cols s
  | .acdrain q dt fn acc rows cols => Sys2Proof.Machine.execAcdrain q dt fn acc rows cols s
  | .acsmx q dt dd acc rows cols => Sys2Proof.Machine.execAcsmx q dt dd acc rows cols s
  | .acscale acc rows cols => Sys2Proof.Machine.execAcscale acc rows cols s
  | .acnorm acc rows cols => Sys2Proof.Machine.execAcnorm acc rows cols s
  | .acmov q dt fn acc rows cols => Sys2Proof.Machine.execAcmov q dt fn acc rows cols s
  | .scdr qi qo flip emit g slot lay n => Sys2Proof.Machine.execScdr qi qo flip emit g slot lay n s
  | .scdc qi qo flip emit g slot lay n => Sys2Proof.Machine.execScdc qi qo flip emit g slot lay n s
  | .scgk qi qo flip emit g slot lay n => Sys2Proof.Machine.execScgk qi qo flip emit g slot lay n s
  | .scch qi qo flip emit g slot lay n => Sys2Proof.Machine.execScch qi qo flip emit g slot lay n s
  | .scout qo pend g slot lay => Sys2Proof.Machine.execScout qo pend g slot lay s
  | .scmode im => Sys2Proof.Machine.execScmode im s
  | .krin d a b => Sys2Proof.Machine.execKrin d a b s
  | .krout d b => Sys2Proof.Machine.execKrout d b s
  | .ksnap d a => Sys2Proof.Machine.execKsnap d a s
  | .kfork d a b => Sys2Proof.Machine.execKfork d a b s
  | .krollC d b => Sys2Proof.Machine.execKrollC d b s
  | .krollP d a => Sys2Proof.Machine.execKrollP d a s
  | .krollS d a b => Sys2Proof.Machine.execKrollS d a b s
  | .kcommit d a b => Sys2Proof.Machine.execKcommit d a b s
  | .kattach d a => Sys2Proof.Machine.execKattach d a s
  | .kdetach d a => Sys2Proof.Machine.execKdetach d a s
  | .kstatSlot d b => Sys2Proof.Machine.execKstatSlot d b s
  | .kstatCask d a => Sys2Proof.Machine.execKstatCask d a s
  | .kwait d b => Sys2Proof.Machine.execKwait d b s
  | .xld a b c => Sys2Proof.Machine.execXld a b c s
  | .xldAcq a b c => Sys2Proof.Machine.execXldAcq a b c s
  | .xldr b c q => Sys2Proof.Machine.execXldr b c q s
  | .xgath a b c => Sys2Proof.Machine.execXgath a b c s
  | .xcpy a b c t ms => Sys2Proof.Machine.execXcpy a b c t ms s
  | .xfenceXl => Sys2Proof.Machine.execXfenceXl s
  | .xmsgrx a h => Sys2Proof.Machine.execXmsgrx a h s
  | .xst a b c => Sys2Proof.Machine.execXst a b c s
  | .xstRing b c q => Sys2Proof.Machine.execXstRing b c q s
  | .xsta a b c => Sys2Proof.Machine.execXsta a b c s
  | .xscat a b c => Sys2Proof.Machine.execXscat a b c s
  | .xhring a b c => Sys2Proof.Machine.execXhring a b c s
  | .xfenceXs => Sys2Proof.Machine.execXfenceXs s
  | .xmsgtx a b c h => Sys2Proof.Machine.execXmsgtx a b c h s
  | .xstrel a b => Sys2Proof.Machine.execXstrel a b s
  | .ctri a b all ch cnt dd => Sys2Proof.Machine.execCtri a b all ch cnt dd s
  | .chist a b c all ch dt cnt mass bb => Sys2Proof.Machine.execChist a b c all ch dt cnt mass bb s
  | .cmaxi a b all ch dt cnt mn => Sys2Proof.Machine.execCmaxi a b all ch dt cnt mn s
  | .csum a b c all ch dt cnt => Sys2Proof.Machine.execCsum a b c all ch dt cnt s
  | .cbcast a b ch cnt root => Sys2Proof.Machine.execCbcast a b ch cnt root s
  | .cwait a h => Sys2Proof.Machine.execCwait a h s
  | .fetchLine core => Sys2Proof.Machine.execFetchLine core s
  | .heldPost core eng => Sys2Proof.Machine.execHeldPost core eng s
  | .trapDelivery core => Sys2Proof.Machine.execTrapDelivery core s
  | .mmSlice core => Sys2Proof.Machine.execMmSlice core s
  | .scanStep core => Sys2Proof.Machine.execScanStep core s
  | .commitWaitRecheck core => Sys2Proof.Machine.execCommitWaitRecheck core s
  | .rackInComplete core slot n => Sys2Proof.Machine.execRackInComplete core slot n s
  | .rackOutComplete core slot n => Sys2Proof.Machine.execRackOutComplete core slot n s
  | .xcpyComplete core copy n => Sys2Proof.Machine.execXcpyComplete core copy n s
  | .transferComplete core half n => Sys2Proof.Machine.execTransferComplete core half n s
  | .portOperation core => Sys2Proof.Machine.execPortOperation core s
  | .portReply core => Sys2Proof.Machine.execPortReply core s
  | .bwaitNotification core => Sys2Proof.Machine.execBwaitNotification core s
  | .barrierDeadline core off => Sys2Proof.Machine.execBarrierDeadline core off s
  | .messageArrival core => Sys2Proof.Machine.execMessageArrival core s
  | .instanceBegin group c ch => Sys2Proof.Machine.execInstanceBegin group c ch s
  | .instanceDelivery group c ch => Sys2Proof.Machine.execInstanceDelivery group c ch s
  | .scratchRefillComplete core page => Sys2Proof.Machine.execScratchRefillComplete core page s
  | .scratchWritebackComplete core page => Sys2Proof.Machine.execScratchWritebackComplete core page s
  | .invalidationAck inv die => Sys2Proof.Machine.execInvalidationAck inv die s
  | .stopComplete ctx => Sys2Proof.Machine.execStopComplete ctx s
  | .stopTimeout ctx => Sys2Proof.Machine.execStopTimeout ctx s
  | .textLoadComplete group rank => Sys2Proof.Machine.execTextLoadComplete group rank s
  | .launchAtStart group => Sys2Proof.Machine.execLaunchAtStart group s
  | .launchRetry queue => Sys2Proof.Machine.execLaunchRetry queue s
  | .dispatcherChoice => Sys2Proof.Machine.execDispatcherChoice s
  | .acceptCommand queue => Sys2Proof.Machine.execAcceptCommand queue s
  | .watchdog queue => Sys2Proof.Machine.execWatchdog queue s
  | .eventRecordAppend ctx => Sys2Proof.Machine.execEventRecordAppend ctx s
  | .coalescingTimeout ctx ring => Sys2Proof.Machine.execCoalescingTimeout ctx ring s
  | .msixUnmask vec => Sys2Proof.Machine.execMsixUnmask vec s
  | .cmdNop queue => Sys2Proof.Machine.execCmdNop queue s
  | .launch queue => Sys2Proof.Machine.execLaunch queue s
  | .launchAt queue => Sys2Proof.Machine.execLaunchAt queue s
  | .copy queue n => Sys2Proof.Machine.execCopy queue n s
  | .fill queue n => Sys2Proof.Machine.execFill queue n s
  | .signal queue => Sys2Proof.Machine.execSignal queue s
  | .wait queue => Sys2Proof.Machine.execWait queue s
  | .cond queue => Sys2Proof.Machine.execCond queue s
  | .timestamp queue => Sys2Proof.Machine.execTimestamp queue s
  | .hostring queue => Sys2Proof.Machine.execHostring queue s
  | .caskop queue => Sys2Proof.Machine.execCaskop queue s
  | .commitWrite queue v => Sys2Proof.Machine.execCommitWrite queue v s
  | .qcfgWrite queue v => Sys2Proof.Machine.execQcfgWrite queue v s
  | .qctlEnable queue => Sys2Proof.Machine.execQctlEnable queue s
  | .qctlPause queue => Sys2Proof.Machine.execQctlPause queue s
  | .qctlResume queue => Sys2Proof.Machine.execQctlResume queue s
  | .qctlReset queue => Sys2Proof.Machine.execQctlReset queue s
  | .qctlRewind queue seq => Sys2Proof.Machine.execQctlRewind queue seq s
  | .cdescWrite ctx v => Sys2Proof.Machine.execCdescWrite ctx v s
  | .create ctx => Sys2Proof.Machine.execCreate ctx s
  | .bind ctx => Sys2Proof.Machine.execBind ctx s
  | .unbind ctx => Sys2Proof.Machine.execUnbind ctx s
  | .rebind ctx => Sys2Proof.Machine.execRebind ctx s
  | .clear ctx => Sys2Proof.Machine.execClear ctx s
  | .discard ctx => Sys2Proof.Machine.execDiscard ctx s
  | .destroy ctx => Sys2Proof.Machine.execDestroy ctx s
  | .registerWrite bar off v => Sys2Proof.Machine.execRegisterWrite bar off v s
  | .hostMemoryWrite space addr v => Sys2Proof.Machine.execHostMemoryWrite space addr v s
  | .hostMemoryRead space addr => Sys2Proof.Machine.execHostMemoryRead space addr s
  | .linkEnable link => Sys2Proof.Machine.execLinkEnable link s
  | .trainingComplete link => Sys2Proof.Machine.execTrainingComplete link s
  | .trainingFailure link => Sys2Proof.Machine.execTrainingFailure link s
  | .pskExchange link => Sys2Proof.Machine.execPskExchange link s
  | .pskFinish link ok => Sys2Proof.Machine.execPskFinish link ok s
  | .keyDelivery link dir => Sys2Proof.Machine.execKeyDelivery link dir s
  | .routeTable die => Sys2Proof.Machine.execRouteTable die s
  | .data link dir vc cls dst bad roff v => Sys2Proof.Machine.execData link dir vc cls dst bad roff v s
  | .idle link dir => Sys2Proof.Machine.execIdle link dir s
  | .hold link dir vc cls => Sys2Proof.Machine.execHold link dir vc cls s
  | .release link dir vc cls => Sys2Proof.Machine.execRelease link dir vc cls s
  | .mgmt link dir => Sys2Proof.Machine.execMgmt link dir s
  | .keyack link dir => Sys2Proof.Machine.execKeyack link dir s
  | .lack link dir nak => Sys2Proof.Machine.execLack link dir nak s
  | .drain src dst => Sys2Proof.Machine.execDrain src dst s
  | .fcntLimit link dir => Sys2Proof.Machine.execFcntLimit link dir s
  | .lctlRekeyDir0 link => Sys2Proof.Machine.execLctlRekeyDir0 link s
  | .lctlRekeyDir1 link => Sys2Proof.Machine.execLctlRekeyDir1 link s
  | .retrain link => Sys2Proof.Machine.execRetrain link s
  | .ideKm ses stream => Sys2Proof.Machine.execIdeKm ses stream s
  | .getVersion => Sys2Proof.Machine.execGetVersion s
  | .getCapabilities => Sys2Proof.Machine.execGetCapabilities s
  | .negotiateAlgorithms asym hash dhe aead => Sys2Proof.Machine.execNegotiateAlgorithms asym hash dhe aead s
  | .challenge slot => Sys2Proof.Machine.execChallenge slot s
  | .getMeasurements idx sig => Sys2Proof.Machine.execGetMeasurements idx sig s
  | .keyExchange who => Sys2Proof.Machine.execKeyExchange who s
  | .finish ses ok => Sys2Proof.Machine.execFinish ses ok s
  | .heartbeat ses => Sys2Proof.Machine.execHeartbeat ses s
  | .keyUpdate ses => Sys2Proof.Machine.execKeyUpdate ses s
  | .endSession ses => Sys2Proof.Machine.execEndSession ses s
  | .chunkSend handle seq chunk => Sys2Proof.Machine.execChunkSend handle seq chunk s
  | .chunkGet handle seq => Sys2Proof.Machine.execChunkGet handle seq s
  | .unsupportedRequest code => Sys2Proof.Machine.execUnsupportedRequest code s
  | .keyset ses key ctx mode val => Sys2Proof.Machine.execKeyset ses key ctx mode val s
  | .keyretire ses key => Sys2Proof.Machine.execKeyretire ses key s
  | .rootadd ses slot kind val => Sys2Proof.Machine.execRootadd ses slot kind val s
  | .rootrevoke ses slot => Sys2Proof.Machine.execRootrevoke ses slot s
  | .diereset ses die => Sys2Proof.Machine.execDiereset ses die s
  | .status ses => Sys2Proof.Machine.execStatus ses s
  | .dieKeyAck die => Sys2Proof.Machine.execDieKeyAck die s
  | .powerUp => Sys2Proof.Machine.execPowerUp s
  | .powerOff => Sys2Proof.Machine.execPowerOff s
  | .measurementReply die reply => Sys2Proof.Machine.execMeasurementReply die reply s
  | .measurementTimeout die => Sys2Proof.Machine.execMeasurementTimeout die s
  | .controlLogicFault die => Sys2Proof.Machine.execControlLogicFault die s
  | .dieResetComplete die => Sys2Proof.Machine.execDieResetComplete die s
  | .ppsEdge falling => Sys2Proof.Machine.execPpsEdge falling s
  | .ppsMiss => Sys2Proof.Machine.execPpsMiss s
  | .ptcSlew => Sys2Proof.Machine.execPtcSlew s
  | .ptcadjWrite v => Sys2Proof.Machine.execPtcadjWrite v s
  | .ptcstepWrite v => Sys2Proof.Machine.execPtcstepWrite v s
  | .ptcrateWrite v => Sys2Proof.Machine.execPtcrateWrite v s
  | .ptccfgWrite v => Sys2Proof.Machine.execPtccfgWrite v s
  | .pwrcapWrite v => Sys2Proof.Machine.execPwrcapWrite v s
  | .dvfsPointChange point gate meas => Sys2Proof.Machine.execDvfsPointChange point gate meas s
  | .arrayPowerDown core => Sys2Proof.Machine.execArrayPowerDown core s
  | .arrayWakeWave die row => Sys2Proof.Machine.execArrayWakeWave die row s
  | .errorRegisterWrite die v => Sys2Proof.Machine.execErrorRegisterWrite die v s
  | .stailWrite port v => Sys2Proof.Machine.execStailWrite port v s
  | .sendDescriptor port => Sys2Proof.Machine.execSendDescriptor port s
  | .unassignedOpcode => Sys2Proof.Machine.execUnassignedOpcode s
  | .copyPageFault core copy => Sys2Proof.Machine.execCopyPageFault core copy s
  | .writeForward stage idx line => Sys2Proof.Machine.execWriteForward stage idx line s
  | .scheduledRekey link dir => Sys2Proof.Machine.execScheduledRekey link dir s

end Sys2Proof.Machine
end

