-- ==== Sys2Proof/Machine/Contend.lean ====
section
/-! DEFINITION. What engines do beside each other: contention for rings (09 R219) and tokens (03 R72, 06 R162) when one issues, and whether they have drained
before a trap is delivered (03 R94). The meaning of instructions is a parameter here, since `exec` gathers the meanings that stand before it. -/

namespace Sys2Proof.Machine

/-- What an instruction begins on the rings of a member, which it leaves as `t`: 2q for a push on ring q, 2q + 1 for a pop. -/
def Member.ringsBegun (m t : Member) : List Nat :=
  m.rings.flatMap (fun p =>
    let r := tgetD t.rings p.1 {}
    (if r.tail ≠ p.2.tail ∨ r.pushBy ≠ p.2.pushBy ∨ p.2.count < r.count then [2 * p.1] else [])
      ++ (if r.head ≠ p.2.head ∨ r.popBy ≠ p.2.popBy ∨ r.count < p.2.count then [2 * p.1 + 1] else []))

/-- The advance of an instruction that runs on at the head of its queue: an MM of the ME, a scan of the SE. -/
def runOn (c h : Nat) (s : State) : Out := if h = 3 then execMmSlice c s else execScanStep c s

/-- What the head of engine `h` would begin on the rings in this clock: by issuing, or by running on. -/
def State.begins (run : Exec) (s : State) (c h : Nat) : List Nat :=
  match (s.mem c).headOf h, engOf h with
  | some e, some g =>
    let after := fun (o : Out) => match o with
      | .next t => (match t.cur.status with
        | .wait => []
        | .trap _ => []
        | _ => (s.mem c).ringsBegun (t.mem c))
      | _ => []
    if e.issued ∧ e.skip = true then []
    else if e.issued ∧ e.busy = true then after (runOn c h s)
    else
      match planOf c g e with
      | .run i ws =>
        if e.issued = false ∧ ((s.mem c).covered ws = false ∨ s.hazard c h e = true) then [] else after (run i (s.setCur c g e))
      | _ => []
  | _, _ => []

/-- A push or pop that engine `k` would begin could be begun by an engine with a lower nibble code, which begins it (09 R219). The CE, with the lowest code, yields to
none. -/
def State.ringTaken (run : Exec) (s : State) (c k : Nat) : Bool :=
  let mine := s.begins run c k
  decide (2 < k) && (s.mem c).rings != [] && mine != [] && [2, 3, 4, 5, 6].any (fun h => decide (h < k) && (s.begins run c h).any (has mine))

/-- An engine issues the head of its queue, if it can (06 R161), or is passed over; every engine that it passes over becomes senior. -/
def State.issue (run : Exec) (s : State) (c : Nat) (g : Eng) : Out :=
  let k := engCode g
  let m := s.mem c
  if s.mayIssue c = false then .next s
  else
    match m.headOf k with
    | none => .next s
    | some e =>
      if e.issued ∧ e.skip = true then
        match s.padOver c e with
        | some s1 => .next (s1.modMem c (fun m => (m.pop k).postPrefix k e.pfx))
        | none => .next s
      else if e.issued ∧ e.busy = true then .next s
      else
        match planOf c g e with
        | .trap cause => .next (s.modMem c (fun m => m.stop k { cause := cause }))
        | .squash ws =>
          if m.covered ws = false then .next s
          else
            if has (s.losers run c ws) k then .next s
            else .next ((s.makeSenior c (s.passedBy run c k ws)).modMem c (fun m => ((m.issueWaits k e ws).pop k).postPrefix k e.pfx))
        | .run i ws =>
          if s.hazard c k e then .next s
          else if e.issued then if s.ringTaken run c k then .next s else s.runHead run c g e i ws
          else if m.covered ws = false then .next s
          else if has (s.losers run c ws) k || s.ringTaken run c k then .next s
          else (s.makeSenior c (s.passedBy run c k ws)).runHead run c g e i ws

/-- Whether transfers of engine `h` of core `c` have sectors left to move, none of them being stopped. -/
def State.moving (s : State) (c h : Nat) : Bool :=
  !((s.mem c).stuck.any (fun p => p.1 == h)) && ((s.mem c).fl h).any (fun e => e.isParked h || e.moves.any (fun l => decide (e.moved < l.length)))

/-- Whether what the head of engine `h` waits for comes about by itself: a scratch page on its way (12 R317), the sectors of its half's transfers and bulk
copies, a racking operation, a matrix array that powers up or waits for power. A token, ring, barrier, message or another engine's state does not (03 R94). -/
def State.comesAlone (s : State) (c h : Nat) : Bool :=
  let x := s.core c
  x.pages.any (fun p => p.2.state == .refilling || p.2.state == .writingBack)
    || ((h == 5 || h == 6) && s.moving c h)
    || ((h == 5 || h == 6) && x.seat.copies != [])
    || ((h == 4 || h == 7) && s.rackedBy c != [])
    || (h == 3 && (x.waking || s.power.gate))

/-- Whether an instance of channel `ch` of the member on core `c` has begun and is not delivered. -/
def State.begun (s : State) (c ch : Nat) : Bool :=
  let m := s.mem c
  let G := s.group m.group
  G.insts.any (fun i => i.ch == ch && i.team == m.rank % G.c)

/-- Whether what a waiting instruction itself waits for comes about by itself: YIELD, END and TRET wait for the member's transfers, copies and racking
(05 R147, R149, R150), CWAIT for instances, the begun ones of which are delivered (18 R432). -/
def State.workLeft (s : State) (c : Nat) (i : Instr) : Bool :=
  match i with
  | .yield | .tret | .endK => s.moving c 5 || s.moving c 6 || (s.seat c).copies != [] || s.rackedBy c != []
  | .cwait _ ch => s.begun c ch
  | _ => false

/-- Whether an engine of core `c` still has something to do before a trap is delivered (03 R94): its head would issue or trap, or waits for what comes
about by itself, or a running ME or SE instruction would advance. -/
def State.engineBusy (run : Exec) (s : State) (c h : Nat) : Bool :=
  match (s.mem c).headOf h, engOf h with
  | some e, some g =>
    if e.issued ∧ e.busy = true then
      match runOn c h s with
      | .next t => (t.mem c).kstep != (s.mem c).kstep || (t.mem c).cstep != (s.mem c).cstep || (t.mem c).q h != (s.mem c).q h
          || (t.mem c).stuck != (s.mem c).stuck || t.comesAlone c h
      | _ => false
    else if e.issued then true
    else
      match planOf c g e with
      | .trap _ => true
      | .squash ws => (s.mem c).covered ws
      | .run i ws =>
        (s.mem c).covered ws && (s.hazard c h e ||
          (match run i (s.setCur c g e) with
            | .next t => (match t.cur.status with
              | .wait => t.comesAlone c h || t.workLeft c i
              | _ => true)
            | _ => true))
  | _, _ => false

/-- The engines have drained (03 R94): no engine has anything to do, no port operation of the CE is in flight, and no message or ring entry of the XS is on its
way, which would be lost if the member then retired (DEDUCED, log entry 30). -/
def State.drained (run : Exec) (s : State) (c : Nat) : Bool :=
  ((s.mem c).stuck != [] || (s.mem c).fetchTrap.isSome) && (s.core c).port.isNone && !(((s.mem c).fl 6).any (fun e => e.isMsg || e.isHring))
    && [1, 2, 3, 4, 5, 6, 7].all (fun h => !s.engineBusy run c h)

end Sys2Proof.Machine
end

