-- ==== Sys2Proof/Machine/Turn.lean ====
section
/-! DEFINITION. Turns: whose turn comes next, what it does (DESIGN CHOICE, log entry 1), and the placing of an instruction so that the next turn issues it. The meaning
of instructions is a parameter here, since `exec` gathers the meanings that stand before it. -/

namespace Sys2Proof.Machine

/-- A row of the table that has no words: an event, which happens by itself or comes from outside a core. -/
def isEvent (i : Instr) : Bool := (encodeNat i).isEmpty

/-- The turn that a counter value gives when none is listed (DESIGN CHOICE, log entry 1). -/
def freeTurn (n : Nat) : Turn :=
  { ns := Config.freeTurnNs n
    ue := Config.freeTurnUe n
    ce := Config.freeTurnCe n
    act := match Config.freeTurnEvent n with
      | some i => .event i
      | none => .issue (Config.freeTurnIssue n).1 ((engOf (Config.freeTurnIssue n).2).getD .ce) }

/-- Takes the next turn: the first of the agenda, or a free one. -/
def State.takeTurn (s : State) : Turn × State :=
  match s.agenda with
  | t :: r => (t, { s with agenda := r })
  | [] => (freeTurn s.fresh, { s with fresh := s.fresh + 1 })

/-- Nothing is being executed, and no error strikes. -/
def State.settled (s : State) : State := { s with cur := {}, ue := [] }

/-- Whether an event has to wait: a trap's delivery until the engines have drained (03 R94), an advance of the ME or SE while an engine with a lower code
could begin the push or pop that it would begin (09 R219). -/
def State.holdsBack (run : Exec) (s : State) (i : Instr) : Bool :=
  match i with
  | .trapDelivery c => !s.drained run c
  | .mmSlice c => s.ringTaken run c 3
  | .scanStep c => s.ringTaken run c 4
  | _ => false

/-- An event happens, unless it has to wait. An instruction of a core is no event. -/
def State.happen (run : Exec) (s : State) (i : Instr) : Out :=
  if isEvent i = false ∨ s.holdsBack run i = true then .next s else run i s

/-- A turn's action. -/
def State.act (run : Exec) (s : State) (a : Act) : Out :=
  match a with
  | .issue c g => s.issue run c g
  | .event i => s.happen run i

/-- CE of each listed die's error register rises, saturating (25 R496). -/
def State.correct (s : State) (ds : List Nat) : State :=
  ds.foldl (fun s d => s.modDie (d % 8) (fun x => { x with errCe := min (x.errCe + 1) 0xFFFFFFFF })) s

/-- What a turn brings before its action: time passes, errors are corrected, and others strike. -/
def State.open (s : State) (t : Turn) : State := { ((s.elapse t.ns).dogsRun t.ns).correct t.ce with ue := t.ue }

/-- The writes that the turn lost on their way home leave error records (17 R409, 25 R497). -/
def State.reportLost (s : State) : State :=
  s.lost.foldl (fun s w => s.errorRecord w.core (s.ctxOn w.core) 11 (w.loc.pa / 64 * 64) w.loc.va 0) { s with lost := [] }

/-- Ends a turn. -/
def endTurn (o : Out) : Out :=
  match o with
  | .next s => .next s.reportLost.settled
  | .fault r => .fault r
  | .refused r => .refused r

/-- One turn: time passes, then the action happens. -/
def State.turn (run : Exec) (s : State) : Out :=
  let (t, s1) := s.takeTurn
  endTurn ((s1.open t).act run t.act)

/-- Whether the engine's opcode of the head lane is privileged (05 R143, 16 R393): such an instruction is placed on a sequencer. -/
def needsSequencer (g : Eng) (ls : List Lane) : Bool := privileged g (opOf (ls.headD 0).toNat)

/-- The tenant context 0 and the supervisor context 1 stand, and group 0 runs one member, of context `x`. -/
def State.placeGroup (s : State) (x : Nat) : State :=
  { s with
    ctxs := tset (tset s.ctxs 0 { state := .running, nq := 4 }) 1 { state := .created, kind := 1 }
    groups := tset s.groups 0 { ctx := x, state := .running, started := true, alive := [0], quarters := [0] } }

/-- The instruction `ls` of engine `g` stands at the head of its stream on core `c` of context `x`, whose member runs, and the next turn issues it. -/
def State.placeInstr (s : State) (c x : Nat) (g : Eng) (ls : List Lane) : State :=
  { (s.placeGroup x).modCore c (fun y => { y with
      status := .running, ctx := x
      seat := { y.seat with present := true, mem := ({} : Member).setQ (engCode g) [{ lanes := ls }] } }) with
    agenda := [{ act := .issue c g }] }

/-- Places the instruction with the bits `w` (DESIGN CHOICE, log entry 1): on core 0, or on the sequencer of die 0 when it is privileged. -/
def State.placeWord (s : State) (w : Nat) : State :=
  let g := match decodeBits w with
    | some (g, _) => g
    | none => .ce
  let ls := lanesOfBits g w
  if needsSequencer g ls then s.placeInstr 512 1 g ls else s.placeInstr 0 0 g ls

end Sys2Proof.Machine
end

