-- ==== Sys2Proof/Machine/Step.lean ====
section
/-! DEFINITION. One step of the machine: one turn. -/

namespace Sys2Proof.Machine

/-- One step: the next turn of the agenda, or a free one (DESIGN CHOICE, log entry 1). -/
def step (s : State) : Host.Outcome State Fault Refusal :=
  s.turn exec

/-- `s` with the instruction whose bits are `w` placed so that the next step issues it. -/
def State.withFetchWord (s : State) (_nbits w : Nat) : State := s.placeWord w

end Sys2Proof.Machine
end

