-- ==== Sys2Proof/Safety.lean ====
section
/-! DEFINITION. The terms that statements about the machine are made in: the engine of an instruction, how a meaning ends, and the canonical form of the
memories. -/

namespace Sys2Proof

/-- The engine that executes an instruction; an event row has none. -/
def engineOf (i : Instr) : Option Eng :=
  match i with
  | .nop | .add .. | .sub .. | .and .. | .or .. | .xor .. | .shl .. | .shr .. | .sar .. | .mul .. | .mulh .. | .mulhn .. | .div .. | .divn ..
  | .rem .. | .remn .. | .min .. | .max .. | .minn .. | .maxn .. | .slt .. | .sltn .. | .seq .. | .clz .. | .popc .. | .bext .. | .bins ..
  | .brev .. | .addi .. | .andi .. | .ori .. | .xori .. | .shli .. | .shri .. | .sari .. | .slti .. | .ldi .. | .ldiw .. | .ldih .. | .muli ..
  | .lds .. | .sts .. | .lda .. | .stl .. | .fence | .fenceAcq | .fenceRel | .cflush .. | .b .. | .bc .. | .bz .. | .call .. | .ret .. | .jr ..
  | .loop .. | .loopx .. | .lcrd .. | .lcrdTrips .. | .stage .. | .stageSet .. | .rotb .. | .tkwait .. | .tkpost .. | .tkset .. | .tkrd ..
  | .mbrd .. | .mbwr .. | .binit .. | .barv .. | .bwait .. | .bdrop .. | .binval .. | .btime .. | .csrrd .. | .csrwr .. | .ptcrd .. | .trap ..
  | .tret | .yield | .endK | .halt | .evpost .. | .brk .. | .ctxsave .. | .ctxsavePark .. | .ctxload .. | .ctxloadUnpark .. | .ctxmap ..
  | .preempt .. | .preemptY .. | .resume .. | .resumeM .. | .resumeSkip .. | .resumeEnd .. | .atadd .. | .atmax .. | .atmin .. | .atxchg ..
  | .atcas .. | .atincnz .. | .atdec .. | .pgpin .. | .pgunpin .. | .pgunpinEv .. | .slabfwSt .. | .slabfwMw .. | .slabfwEnd .. | .tlbinvVa ..
  | .tlbinvCtx .. | .tlbinvSlab .. | .tlbinvAll .. => some .ce
  | .vadd .. | .vsub .. | .vmul .. | .vfma .. | .vfms .. | .vfnma .. | .vmin .. | .vmax .. | .vabs .. | .vneg .. | .vcmp .. | .vsel .. | .vclamp ..
  | .vand .. | .vor .. | .vxor .. | .vnot .. | .vshl .. | .vshr .. | .vsar .. | .vadds .. | .vsubs .. | .vmulh .. | .vcmul .. | .vcmac ..
  | .vcmulj .. | .vcmacj .. | .vconj .. | .vcabs2 .. | .vshape .. | .vmov .. | .vbcastMailbox .. | .vbcastElem .. | .vbcastRow .. | .vbcastCol ..
  | .viota .. | .vtrans .. | .vld .. | .vst .. | .vldr .. | .vstr .. | .vmskCopy .. | .vmskNot .. | .vmskNz .. | .vmskCols .. | .vmskRows ..
  | .vmskAnd .. | .vmskOr .. | .vmcnt .. | .vtox .. | .vexp2 .. | .vexp .. | .vlog2 .. | .vln .. | .vrcp .. | .vrsq .. | .vsqrt .. | .vsigm ..
  | .vsoftp .. | .vtanh .. | .vdiv .. | .vreds .. | .vredm .. | .vredmIdx .. | .vredn .. | .vrednIdx .. | .vscans .. | .vkey .. | .vhist ..
  | .vpermb .. | .vbitg .. | .vbits .. | .vshuf .. | .vcomp .. | .vexpd .. | .vcvt .. | .vpack .. | .vunpk .. | .vsrnd .. | .vqnt .. => some .ve
  | .mm .. | .mmc .. | .mmt .. | .aczero .. | .acdrain .. | .acsmx .. | .acscale .. | .acnorm .. | .acmov .. => some .me
  | .scdr .. | .scdc .. | .scgk .. | .scch .. | .scout .. | .scmode .. => some .se
  | .krin .. | .krout .. | .ksnap .. | .kfork .. | .krollC .. | .krollP .. | .krollS .. | .kcommit .. | .kattach .. | .kdetach .. | .kstatSlot ..
  | .kstatCask .. | .kwait .. => some .ke
  | .xld .. | .xldAcq .. | .xldr .. | .xgath .. | .xcpy .. | .xfenceXl | .xmsgrx .. => some .xl
  | .xst .. | .xstRing .. | .xsta .. | .xscat .. | .xhring .. | .xfenceXs | .xmsgtx .. | .xstrel .. | .ctri .. | .chist .. | .cmaxi .. | .csum ..
  | .cbcast .. | .cwait .. => some .xs
  | _ => none

end Sys2Proof

namespace Sys2Proof.Machine

/-- Executed in `s`, the instruction completes with the state `t` (and is marked so). -/
def Completes (i : Instr) (s t : State) : Prop := exec i s = .next (t.finish .done)

/-- Executed in `s`, the instruction has the whole effect `s[d] := v` and completes. -/
def Puts (i : Instr) (s : State) (d : Nat) (v : Word) : Prop := Completes i s (s.putS d v)

/-- Executed in `s`, the instruction traps before it issues with record `t`, and nothing else changes. -/
def Traps (i : Instr) (s : State) (t : Trap) : Prop := exec i s = .next (s.finish (.trap t))

/-- Executed in `s`, the instruction does not issue yet, and nothing changes. -/
def Waits (i : Instr) (s : State) : Prop := exec i s = .next (s.finish .wait)

/-- The event `i` happens in `s` and leaves `t`. -/
def Leaves (i : Instr) (s t : State) : Prop := exec i s = .next t

/-- The state that a completed access of `n` sectors leaves (01 R32): completed at once, or, with STRICT = 1 and sectors of TGT 0 memory, with its
effects made and its entry at the head of its stream until 2 µs + n ns have passed. -/
def State.padded (t : State) (n : Nat) : State :=
  let e := t.cur.ent
  if n = 0 ∨ t.strict t.cur.core = false then t.finish .done
  else (t.modCm (fun m => (m.issueWaits (engCode t.cur.eng) e (prefixWaits e.pfx)).setHead (engCode t.cur.eng)
    { e with issued := true, skip := true, t0 := t.ptc, pad := t.ptc + 2000 + n, clk := 0 })).finish .idle

/-- Executed in `s`, the instruction has the effect `t` and completes, under STRICT when its `n` sectors are due. -/
def CompletesPadded (i : Instr) (s t : State) (n : Nat) : Prop := exec i s = .next (t.padded n)

/-- The state that an instruction with its effects made and the strict time `d` leaves (01 R32): completed, or, with STRICT = 1, with its entry at the head of
its stream until that time. -/
def State.paddedBy (t : State) (d : Nat × Nat) : State :=
  let e := t.cur.ent
  if d = (0, 0) ∨ t.strict t.cur.core = false then t.finish .done
  else (t.modCm (fun m => (m.issueWaits (engCode t.cur.eng) e (prefixWaits e.pfx)).setHead (engCode t.cur.eng)
    { t.padEntry d e with issued := true, skip := true })).finish .idle

/-- `t` with the instruction being executed issued, its waits taken, at the head of its stream, where it runs on. -/
def State.atHead (t : State) : State :=
  let e := t.cur.ent
  (t.modCm (fun m => (m.issueWaits (engCode t.cur.eng) e (prefixWaits e.pfx)).setHead (engCode t.cur.eng) { e with issued := true })).finish .idle

/-- Executed in `s`, the instruction has the effect `t` so far, has issued, and runs on at the head of its stream. -/
def RunsOn (i : Instr) (s t : State) : Prop := exec i s = .next t.atHead

/-- The register that an instruction of the CE may write whose whole effect is to write a scalar register. -/
def scalarDest (i : Instr) : Option Nat :=
  match i with
  | .add d .. | .sub d .. | .and d .. | .or d .. | .xor d .. | .shl d .. | .shr d .. | .sar d .. | .mul d .. | .mulh d .. | .mulhn d ..
  | .div d .. | .divn d .. | .rem d .. | .remn d .. | .min d .. | .max d .. | .minn d .. | .maxn d .. | .slt d .. | .sltn d .. | .seq d ..
  | .clz d .. | .popc d .. | .bext d .. | .bins d .. | .brev d .. | .addi d .. | .andi d .. | .ori d .. | .xori d .. | .shli d .. | .shri d ..
  | .sari d .. | .slti d .. | .ldi d .. | .ldiw d .. | .ldih d .. | .muli d .. | .lcrd d .. | .lcrdTrips d .. | .tkrd d .. | .mbrd d ..
  | .csrrd d .. | .ptcrd d => some d
  | _ => none

/-- The byte at a place as a CE load of core `c` would see it: in the L1, or past it (13 R331). -/
def State.seenByte (s : State) (c : Nat) (l : Loc) : Byte :=
  match s.l1Line c l with
  | some x => x.data.getD (l.pa % 512) 0
  | none => (s.devRead c l 1).headD 0

/-- HBM, host memory and CXL memory are in canonical form. -/
def State.memWf (s : State) : Prop := s.hbm.wf = true ∧ s.hostMem.wf = true ∧ s.cxlMem.wf = true

/-- Every byte of memory at home reads in `t` as it does in `s`, under every key. -/
def SameHome (s t : State) : Prop := ∀ (l : Loc) (n : Nat), t.homeByte l n = s.homeByte l n

/-- The part of the state that belongs to no core is the same. -/
def SameBeyondCores (s t : State) : Prop := { t with cores := s.cores, cur := s.cur } = s

/-- Unit `u` of row `i` is in the shape, for units of type `t`, and the mask admits it as the instruction reads the mask (07 R168). -/
def State.governs (s : State) (t : Ty) (mk i u : Nat) : Bool :=
  decide (i < s.cm.rows) && decide (u < s.cm.cols / t.step) && maskBit (s.maskIn mk) t i u

/-- Executed in `s`, the instruction raises the exceptions `E` and has written `val i u` into each unit `u`, of `w` bits, of row `i` of tile field
`d` where that is a value, and no other bit of a tile and nothing else of the machine; or, an enabled exception among them, it traps with nothing
written (02 R41); `s0` is `s` with the records of errors in what was read. -/
def TileWrite (x : Instr) (s s0 : State) (d w : Nat) (val : Nat → Nat → Option Nat) (E : Nat) : Prop :=
  let en := enabledExc (s0.precise s0.cur.core) s0.cm.fpmode E
  (en ≠ 0 → exec x s = .next (s0.finish (.trapIssued { cause := excCause en, exc := E }))) ∧
  (en = 0 → ∃ tiles : Tab (BitVec 1024), Completes x s (s0.modCm (fun m => ({ m with tiles := tiles } : Member).setFlags E)) ∧
    ∀ p i n : Nat, p < 32 → i < 32 → n < 1024 →
      (tgetD tiles (32 * p + i) 0).getLsbD n = (match (if p = s.tileNo d then val i (n / w) else none) with
        | some v => v.testBit (n % w)
        | none => (tgetD s.cm.tiles (32 * p + i) 0).getLsbD n))

/-- `TileWrite` for an instruction that reads the shape's rows of the sources `ops` and the mask `mk`. -/
def TileResult (x : Instr) (s : State) (d w : Nat) (ops : List (Nat × Nat)) (mk : Nat) (val : Nat → Nat → Option Nat) (E : Nat) : Prop :=
  TileWrite x s (s.noteRow ops [mk]) d w val E

/-- As `TileWrite`, unit by unit: where `dom` holds the unit takes the value of `f`, and together the units raise the exceptions of `f`. -/
def ElementwiseOn (x : Instr) (s s0 : State) (d w : Nat) (dom : Nat → Nat → Bool) (f : Nat → Nat → Nat × Nat) : Prop :=
  ∃ E : Nat, (∀ n, E.testBit n = true ↔ ∃ i u, dom i u = true ∧ (f i u).2.testBit n = true) ∧
    TileWrite x s s0 d w (fun i u => if dom i u = true then some (f i u).1 else none) E

/-- `ElementwiseOn` for an instruction that reads the shape's rows of the sources `ops` and the mask `mk`. -/
def Elementwise (x : Instr) (s : State) (d w mk : Nat) (ops : List (Nat × Nat)) (dom : Nat → Nat → Bool) (f : Nat → Nat → Nat × Nat) : Prop :=
  ElementwiseOn x s (s.noteRow ops [mk]) d w dom f

/-- Executed in `s`, the instruction has replaced mask `d` by the mask whose bit (i, j) is `f i j` in the shape and 0 elsewhere, and nothing else. -/
def MaskResult (x : Instr) (s : State) (d : Nat) (ops : List (Nat × Nat)) (mks : List Nat) (f : Nat → Nat → Bool) : Prop :=
  ∃ w : BitVec 1024, Completes x s ((s.noteRow ops mks).modCm (fun m => { m with masks := tset m.masks d w })) ∧
    ∀ i j : Nat, i < 32 → j < 32 → w.getLsbD (32 * i + j) = (decide (i < s.cm.rows) && decide (j < s.cm.cols) && f i j)

/-- Executed in `s`, an accumulator function raises the exceptions `E` and has written each of `words` (a byte offset in the core's accumulator SRAM and
an FP32 word) and each of `runs` (a scratch address and bytes), its rings are `rings`, and nothing else has changed since `s1`; or, an enabled exception
among them, it traps with nothing written; or a word of an armed barrier pair is refused and it traps as completed (10 R257, 14 R343). -/
def AccResult (x : Instr) (s s1 : State) (words : List (Nat × Nat)) (E : Nat) (rings : Tab Ring) (runs : List (Nat × List Byte)) : Prop :=
  let c := s.cur.core
  let en := enabledExc (s.precise c) s.cm.fpmode E
  (en ≠ 0 → exec x s = .next (s1.finish (.trapIssued { cause := excCause en, exc := E }))) ∧
  (en = 0 → ∃ u, u.mem c = ({ s.mem c with rings := rings } : Member).setFlags E ∧
    (∀ w ∈ words, (s.seat c).isArmed w.1 4 = false → u.accNat c w.1 4 = w.2 % 2 ^ 32) ∧
    (∀ o, (∀ w ∈ words, o < w.1 ∨ w.1 + 4 ≤ o) → mget (u.seat c).acc o = mget (s.seat c).acc o) ∧
    (∀ r ∈ runs, ∀ o, o < r.2.length → u.sbyte c (r.1 + o) = r.2.getD o 0) ∧
    (∀ a, (∀ r ∈ runs, a < r.1 ∨ r.1 + r.2.length ≤ a) → u.sbyte c a = s.sbyte c a) ∧
    (∀ k, k ≠ c → u.core k = s.core k) ∧ SameBeyondCores s u ∧
    ((∀ w ∈ words, (s.seat c).isArmed w.1 4 = false) → Completes x s u) ∧
    ((∃ w ∈ words, (s.seat c).isArmed w.1 4 = true) → exec x s = .next (u.finish (.trapDone { cause := 0x80 }))))

end Sys2Proof.Machine
end

