-- ==== Sys2Proof/Certificates/Slice0/Obligations.lean ====
section
/-! DEFINITION. The statements for the provers, in the order of OBLIGATIONS.json. -/

open Sys2Proof Sys2Proof.Machine

/-- Words that the manual writes out (LDI, LOOP, LDS, ADD, ADDI, STS, END, VADD, VMUL and the XFENCE of the XS), and one word of each other engine put
together from the formats of R76 to R78, decode to the instruction they stand for; and an unassigned opcode, a lane too many and a reserved bit are
each refused by name. (R75, R76, R77, R78, R84, R85, R86, R87) -/
def Obligations.DecodesWordsOfTheManual : Prop :=
  decode .ce [0x50100000] = .ok (.ldi 2 0) ∧
  decode .ce [0x90000002] = .ok (.loop 0 0 2) ∧
  decode .ce [0x60202800] = .ok (.lds 4 1 2 0) ∧
  decode .ce [0x02104200] = .ok (.add 2 2 4) ∧
  decode .ce [0x40082004] = .ok (.addi 1 1 4) ∧
  decode .ce [0x62102800] = .ok (.sts 2 1 2 0) ∧
  decode .ce [0xCC000000] = .ok .endK ∧
  decode .ve [0x02408800] = .ok (.vadd 4 1 2 0 0 0) ∧
  decode .ve [0x06521000] = .ok (.vmul 5 4 4 0 0 0) ∧
  decode .xs [0x08000000] = .ok .xfenceXs ∧
  decode .me [0x10000000, 0x00043808] = .ok (.aczero 0 1 7 1) ∧
  decode .se [0x0A000041] = .ok (.scmode 65) ∧
  decode .xl [0x00104100] = .ok (.xld 2 2 2) ∧
  decode .ke [0x12080180] = .ok (.kwait 1 3) ∧
  decode .ce [0xFE000000] = .error .illegalOp ∧
  decode .ce [0x02104200, 0] = .error .illegalLane ∧
  decode .ce [0x02104201] = .error .reservedField

/-- For every well-formed instruction of the CE, with every operand at every value its encoding admits, the decoder of its engine reads from its encoding
exactly that instruction: no bit of a field is dropped. (R74, R75, R83, R84, R88) -/
def Obligations.RoundTripControlEngine : Prop :=
  ∀ (g : Eng) (i : Instr), g = .ce → engineOf i = some g → wellFormed i = true → decode g (encode i) = .ok i

/-- For every well-formed instruction of the VE, with every operand at every value its encoding admits, the decoder of its engine reads from its encoding
exactly that instruction: no bit of a field is dropped. (R74, R76, R80, R83, R85, R88) -/
def Obligations.RoundTripVectorEngine : Prop :=
  ∀ (g : Eng) (i : Instr), g = .ve → engineOf i = some g → wellFormed i = true → decode g (encode i) = .ok i

/-- For every well-formed instruction of the ME, SE, XL, XS and KE, with every operand at every value its encoding admits, the decoder of its engine reads
from its encoding exactly that instruction: no bit of a field is dropped. (R74, R77, R78, R83, R86, R87, R88) -/
def Obligations.RoundTripOtherEngines : Prop :=
  ∀ (g : Eng) (i : Instr), g = .me ∨ g = .se ∨ g = .xl ∨ g = .xs ∨ g = .ke → engineOf i = some g → wellFormed i = true → decode g (encode i) = .ok i

/-- Lanes that the decoder of an engine accepts are the encoding of the well-formed instruction it reads, and that instruction is one of that engine; an
opcode the engine does not assign is illegalOp, else a number of lanes other than the opcode's is illegalLane, else lanes that are no encoding are
reservedField. (R74, R83, R88) -/
def Obligations.DecodeAcceptsOnlyEncodings : Prop :=
  (∀ (g : Eng) (ls : List Lane) (i : Instr), decode g ls = .ok i → engineOf i = some g ∧ wellFormed i = true ∧ encode i = ls) ∧
  (∀ (g : Eng) (l : Lane) (r : List Lane), opLanes g (l.toNat / 2 ^ 25) = none → decode g (l :: r) = .error .illegalOp) ∧
  (∀ (g : Eng) (l : Lane) (r : List Lane) (n : Nat), opLanes g (l.toNat / 2 ^ 25) = some n → r.length + 1 ≠ n →
    decode g (l :: r) = .error .illegalLane) ∧
  (∀ (g : Eng) (l : Lane) (r : List Lane), opLanes g (l.toNat / 2 ^ 25) = some (r.length + 1) →
    (∀ i, engineOf i = some g → wellFormed i = true → encode i ≠ l :: r) → decode g (l :: r) = .error .reservedField)

/-- When the next turn is the issue of engine g on core c, the core may issue, and the head of the stream decodes to a well-formed instruction i that
passes checks 1 to 4 of R88, is not squashed, is free of hazards, finds its token waits covered, is not passed over and begins no push or pop that a
lower nibble code could begin, the step is exec of i, those that it passes over being senior from then on, followed by what becomes of its queue entry
and tokens (settle) and the end of the turn. An engine that has seen no CSRWR to FPMODE or SCMODE since its last token wait runs it under the modes as
they stand; after such a CSRWR it may, as R29 leaves open, run one that waits for no token under the modes of before, and these change places with the
new ones for the length of the instruction, the sticky flags staying (which it does is a free value; that any token wait settles it is the model's
reading, log entry 58). Turns and the agenda are the model's own (log entry 1). (R29, R70, R72, R73, R88, R138, R162, R219) -/
def Obligations.StepRunsTheDecodedInstruction : Prop :=
  ∀ (s : State) (rest : List Turn) (y : Turn) (c : Nat) (g : Eng) (e : Entry) (i : Instr),
    s.agenda = y :: rest → y.act = .issue c g →
    let s1 := ({ s with agenda := rest } : State).open y
    let ws := waitsOf e i
    let k := engCode g
    s1.mayIssue c = true → (s1.mem c).headOf k = some e → e.issued = false →
    decode g e.lanes = .ok i →
    (privileged g (opOf (e.lanes.headD 0).toNat) = true → isSeq c = true) →
    (∀ p, e.pfx = some p → p.toNat < 2 ^ 28) →
    (e.stamp.pred = true ∨ (∃ n, i = .stage n) ∨ (∃ a n, i = .stageSet a n) ∨ ∃ a n, i = .rotb a n) →
    s1.hazard c k e = false → (s1.mem c).covered ws = true → has (s1.losers exec c ws) k = false → s1.ringTaken exec c k = false →
    let s2 := s1.makeSenior c (s1.passedBy exec c k ws)
    let r := s2.samplesOld c k e i ws
    (has (s2.mem c).stale k = false → r = (false, s2)) ∧
    (has (s2.mem c).stale k = true → ws ≠ [] → r.1 = false ∧ has (r.2.mem c).stale k = false ∧ (r.2.mem c).fpmode = (s2.mem c).fpmode ∧
      (r.2.mem c).scmode = (s2.mem c).scmode) ∧
    (r.1 = false → step s = endTurn (match exec i (r.2.setCur c g e) with
      | .next t => .next (t.settle ws)
      | .fault r => .fault r
      | .refused r => .refused r)) ∧
    (r.1 = true →
      let m := (r.2.modMem c Member.swapMode).mem c
      m.scmode = (s2.mem c).oldMode.2 ∧ m.fpmode % 2 ^ 8 = (s2.mem c).oldMode.1 % 2 ^ 8 ∧ m.fpmode / 2 ^ 14 = (s2.mem c).oldMode.1 / 2 ^ 14 ∧
      m.fpmode / 2 ^ 8 % 2 ^ 6 = (s2.mem c).fpmode / 2 ^ 8 % 2 ^ 6 ∧
      step s = endTurn (match exec i ((r.2.modMem c Member.swapMode).setCur c g e) with
        | .next t => .next ((t.modMem c Member.swapMode).settle ws)
        | .fault r => .fault r
        | .refused r => .refused r))

/-- When the next turn is an event (a row of the table with no words), the step lets the turn's nanoseconds pass and is exec of that event; a trap
delivery happens only once the engines of its core have drained, and a matrix slice or a scan step only while no engine with a lower nibble code could
begin the push or pop that it would begin. (R94, R219, R388) -/
def Obligations.StepPerformsTheEvent : Prop :=
  (∀ (s : State) (rest : List Turn) (y : Turn) (i : Instr),
    s.agenda = y :: rest → y.act = .event i → engineOf i = none → (∀ c, i ≠ .trapDelivery c ∧ i ≠ .mmSlice c ∧ i ≠ .scanStep c) →
    step s = endTurn (exec i (({ s with agenda := rest } : State).open y))) ∧
  (∀ (s : State) (rest : List Turn) (y : Turn) (c : Nat),
    s.agenda = y :: rest → y.act = .event (.trapDelivery c) →
    let s1 := ({ s with agenda := rest } : State).open y
    (s1.drained exec c = true → step s = endTurn (exec (.trapDelivery c) s1)) ∧
    (s1.drained exec c = false → step s = endTurn (.next s1))) ∧
  (∀ (s : State) (rest : List Turn) (y : Turn) (c k : Nat) (i : Instr),
    s.agenda = y :: rest → y.act = .event i → (i = .mmSlice c ∧ k = 3) ∨ (i = .scanStep c ∧ k = 4) →
    let s1 := ({ s with agenda := rest } : State).open y
    (s1.ringTaken exec c k = false → step s = endTurn (exec i s1)) ∧ (s1.ringTaken exec c k = true → step s = endTurn (.next s1)))

/-- A head that fails check 1, 2, 3 or 4 of R88 stops its engine with cause 0x01, 0x02, 0x04 or 0x03, the first check that fails giving the cause, its
entry staying at the head with no token taken and no other register changed; and a well-formed head dealt with its predicate 0 is squashed: it leaves
its queue, takes its prefix's waits and makes its post, and does nothing else but that the engines that it passes over become senior; passed over
itself, it stays. (R70, R73, R88, R89, R138) -/
def Obligations.StepTrapsAndSquashes : Prop :=
  ∀ (s : State) (rest : List Turn) (y : Turn) (c : Nat) (g : Eng) (e : Entry),
    s.agenda = y :: rest → y.act = .issue c g →
    let s1 := ({ s with agenda := rest } : State).open y
    let lost := s1.losers exec c (prefixWaits e.pfx)
    let k := engCode g
    let priv := privileged g (opOf (e.lanes.headD 0).toNat) && !isSeq c
    let stops : Nat → Prop := fun cause =>
      step s = endTurn (.next (s1.modMem c (fun m => { m with stuck := m.stuck ++ [(k, { cause := cause })] })))
    s1.mayIssue c = true → (s1.mem c).headOf k = some e → e.issued = false →
    (decode g e.lanes = .error .illegalOp → stops 0x01) ∧
    (decode g e.lanes = .error .illegalLane → stops 0x02) ∧
    (decode g e.lanes ≠ .error .illegalOp → decode g e.lanes ≠ .error .illegalLane → priv = true → stops 0x04) ∧
    (decode g e.lanes = .error .reservedField → priv = false → stops 0x03) ∧
    (∀ i p, decode g e.lanes = .ok i → priv = false → e.pfx = some p → 2 ^ 28 ≤ p.toNat → stops 0x03) ∧
    (∀ i, decode g e.lanes = .ok i → priv = false → (∀ p, e.pfx = some p → p.toNat < 2 ^ 28) → e.stamp.pred = false →
      (∀ n, i ≠ .stage n) → (∀ a n, i ≠ .stageSet a n) → (∀ a n, i ≠ .rotb a n) →
      (s1.mem c).covered (prefixWaits e.pfx) = true →
      (has lost k = false →
        step s = endTurn (.next ((s1.makeSenior c (s1.passedBy exec c k (prefixWaits e.pfx))).modMem c (fun m => ((m.issueWaits k e (prefixWaits e.pfx)).pop k).postPrefix k e.pfx)))) ∧
      (has lost k = true → step s = endTurn (.next s1)))

/-- Taking covered waits lowers each token by the number of enabled waits that name it and leaves the others; a post raises a token that stands below 63
by one and is held, the counts unchanged, while it stands at 63; and HELD_POST then makes the oldest held post of its engine once its token is below
63, and until then changes nothing. (R70, R71) -/
def Obligations.TokensCountAndPost : Prop :=
  (∀ (m : Member) (ws : List Nat) (n : Nat), m.covered ws = true → (m.takeWaits ws).tok n + countWaits ws n = m.tok n) ∧
  (∀ (m : Member) (g n : Nat), m.tok n < 63 →
    (m.post g n).tok n = m.tok n + 1 ∧ (∀ k, k ≠ n → (m.post g n).tok k = m.tok k) ∧ (m.post g n).held = m.held) ∧
  (∀ (m : Member) (g n : Nat), 63 ≤ m.tok n →
    (m.post g n).k = m.k ∧ tgetD (m.post g n).held g [] = tgetD m.held g [] ++ [n]) ∧
  (∀ (s : State) (c g n : Nat) (r : List Nat), tgetD (s.mem c).held g [] = n :: r →
    ((s.mem c).tok n < 63 → ∃ t, Leaves (.heldPost c g) s t ∧ tgetD (t.mem c).held g [] = r ∧ (t.mem c).tok n = (s.mem c).tok n + 1 ∧
      (∀ k, k ≠ n → (t.mem c).tok k = (s.mem c).tok k) ∧ ∀ d, d ≠ c → t.core d = s.core d) ∧
    (63 ≤ (s.mem c).tok n → Leaves (.heldPost c g) s s))

/-- After bring-up the PTC is 0, every C-die is JOINED, every queue is DISABLED, every context is FREE, PHASE is 2, PWRCAP holds CAP 2800 and REQ 1, the
trellis links and the host link are UP with TRAINS 0, every core is free, and nothing is listed in HBM; and a member that starts afresh reads FPMODE
0, SCMODE 1, VSHAPE 0x1FF8000, KSTEP and CSTEP 0, RRB 0 and g 0xFF. (The power point 1 and the contents of host and CXL memory are the model's
choices: log entries 4 and 6.) (R488, R489, R11, R413) -/
def Obligations.ResetState : Prop :=
  State.reset.ptc = 0 ∧ State.reset.tri.phase = 2 ∧ State.reset.power.cap = 2800 ∧ State.reset.power.req = 1 ∧
  (∀ d, (State.reset.die d).state = .joined) ∧ (∀ q, (State.reset.queue q).state = .disabled) ∧
  (∀ c, (State.reset.ctx c).state = .free) ∧ (∀ c, (State.reset.core c).status = .free) ∧
  (∀ l, l < 16 ∨ l = 32 → (State.reset.link l).state = .up ∧ (State.reset.link l).trains = 0) ∧ State.reset.hbm = [] ∧ State.reset.hostUp = true ∧
  ({} : Member).fpmode = 0 ∧ ({} : Member).scmode = 1 ∧ ({} : Member).vshape = 0x1FF8000 ∧ ({} : Member).kstep = 0 ∧ ({} : Member).cstep = 0 ∧
  ({} : Member).fetch.rrb = 0 ∧ ({} : Member).fetch.g = 0xFF ∧ ∀ n, ({} : Member).rs n = 0

/-- HBM, host memory and CXL memory are in canonical form at reset: addresses strictly rising, and no entry equal to what an unlisted address holds. (What
an unlisted byte of host and CXL memory reads as is the model's choice: log entry 6.) (R3, R309) -/
def Obligations.MemoryCanonicalAtReset : Prop :=
  State.reset.memWf

/-- From every state whose HBM, host memory and CXL memory are in canonical form, a step that gives a next state gives one in which they are: so equal
memories are equal data, whatever instruction or event the step performs. (R3, R309, R329) -/
def Obligations.MemoryStaysCanonical : Prop :=
  ∀ s t : State, s.memWf → step s = .next t → t.memWf

/-- In canonical memories, a byte written at home reads back under the same key, in HBM, host memory and CXL memory alike; bytes at other addresses of its
target that are read under the key of the write read as before, as do all bytes of the other targets; and a 16-byte block of HBM that another key last
wrote reads, under this key, as ciphertext of free value. (R3, R309) -/
def Obligations.MemoryReadsBackWhatIsWritten : Prop :=
  (∀ (s : State) (l : Loc) (n : Nat) (b : Byte), s.memWf → (s.homePut l n b).homeByte l n = b) ∧
  (∀ (s : State) (l : Loc) (n k : Nat) (b : Byte), s.memWf → k ≠ n → (s.homePut l n b).homeByte l k = s.homeByte l k) ∧
  (∀ (s : State) (l l' : Loc) (n k : Nat) (b : Byte), l.tgt ≤ 2 → l'.tgt ≤ 2 → l'.tgt ≠ l.tgt →
    (s.homePut l n b).homeByte l' k = s.homeByte l' k) ∧
  (∀ (s : State) (l l' : Loc) (n k : Nat) (b : Byte), s.memWf → l.tgt = 0 → l'.tgt = 0 → (l'.pa + k) / 16 ≠ (l.pa + n) / 16 →
    (s.homePut l n b).homeByte l' k = s.homeByte l' k) ∧
  (∀ (s : State) (blk k key : Nat), tget s.hbmKey blk = some k → k ≠ key →
    s.hbmBlock key blk = foreign k key blk (mnat s.hbm (16 * blk) 16))

/-- A read of s0 gives zero in every state and after every write; a write to s0 leaves the member as it was; a write to another scalar register reads back
and leaves every other one. (03 R79) -/
def Obligations.ScalarZeroReadsZero : Prop :=
  (∀ m : Member, m.rs 0 = 0) ∧ (∀ (m : Member) (v : Word), m.putS 0 v = m) ∧
  (∀ (m : Member) (n : Nat) (v : Word), n ≠ 0 → (m.putS n v).rs n = v) ∧
  (∀ (m : Member) (n k : Nat) (v : Word), k ≠ n → (m.putS n v).rs k = m.rs k) ∧
  (∀ (s : State) (n k : Nat) (v : Word), (s.putS n v).rs k = if k = n ∧ n ≠ 0 then v else s.rs k)

/-- Each register-register operation, and NOP, completes in every state: s[d] takes the value of the table of R120 and nothing else changes. DIV and REM
by zero give all ones and A; of the most negative number by -1 they give that number and 0; CLZ, POPC and BREV are stated by bits. (R120, R152) -/
def Obligations.AluThreeRegister : Prop :=
  ∀ (s : State) (d a b : Nat),
    let A := s.rs a
    let B := s.rs b
    let sh := B.toNat % 64
    Completes .nop s s ∧
    Puts (.add d a b) s d (A + B) ∧ Puts (.sub d a b) s d (A - B) ∧
    Puts (.and d a b) s d (A &&& B) ∧ Puts (.or d a b) s d (A ||| B) ∧ Puts (.xor d a b) s d (A ^^^ B) ∧
    Puts (.shl d a b) s d (A <<< sh) ∧ Puts (.shr d a b) s d (A >>> sh) ∧ Puts (.sar d a b) s d (A.sshiftRight sh) ∧
    Puts (.mul d a b) s d (BitVec.ofInt 64 (A.toInt * B.toInt)) ∧
    Puts (.mulh d a b) s d (BitVec.ofInt 64 (A.toInt * B.toInt / 2 ^ 64)) ∧
    Puts (.mulhn d a b) s d (BitVec.ofNat 64 (A.toNat * B.toNat / 2 ^ 64)) ∧
    Puts (.div d a b) s d (if B = 0 then 0xFFFFFFFFFFFFFFFF else BitVec.ofInt 64 (A.toInt.tdiv B.toInt)) ∧
    Puts (.divn d a b) s d (if B = 0 then 0xFFFFFFFFFFFFFFFF else BitVec.ofNat 64 (A.toNat / B.toNat)) ∧
    Puts (.rem d a b) s d (if B = 0 then A else BitVec.ofInt 64 (A.toInt.tmod B.toInt)) ∧
    Puts (.remn d a b) s d (if B = 0 then A else BitVec.ofNat 64 (A.toNat % B.toNat)) ∧
    (A.toInt = -2 ^ 63 → B.toInt = -1 → Puts (.div d a b) s d A ∧ Puts (.rem d a b) s d 0) ∧
    Puts (.min d a b) s d (if A.toInt < B.toInt then A else B) ∧ Puts (.max d a b) s d (if A.toInt < B.toInt then B else A) ∧
    Puts (.minn d a b) s d (if A.toNat < B.toNat then A else B) ∧ Puts (.maxn d a b) s d (if A.toNat < B.toNat then B else A) ∧
    Puts (.slt d a b) s d (if A.toInt < B.toInt then 1 else 0) ∧ Puts (.sltn d a b) s d (if A.toNat < B.toNat then 1 else 0) ∧
    Puts (.seq d a b) s d (if A = B then 1 else 0) ∧
    (∃ n, n ≤ 64 ∧ Puts (.clz d a) s d (BitVec.ofNat 64 n) ∧ (∀ i, 64 ≤ n + i → A.getLsbD i = false) ∧
      (n < 64 → A.getLsbD (63 - n) = true)) ∧
    Puts (.popc d a) s d (BitVec.ofNat 64 ((List.range 64).countP (fun i => A.getLsbD i))) ∧
    (∃ r : Word, Puts (.brev d a) s d r ∧ ∀ i, i < 64 → r.getLsbD i = A.getLsbD (63 - i))

/-- Each immediate form completes in every state with every immediate its field admits: s[d] takes the value of the table of R121, with imm13 and imm32
sign-extended there, and nothing else changes; and a shift form whose imm13 is 64 to 8191 is refused as RESERVED_FIELD. (R121) -/
def Obligations.AluImmediate : Prop :=
  (∀ (s : State) (d a im : Nat),
    let A := s.rs a
    let I : Word := (BitVec.ofNat 13 im).signExtend 64
    (im < 8192 →
      Puts (.addi d a im) s d (A + I) ∧ Puts (.andi d a im) s d (A &&& I) ∧ Puts (.ori d a im) s d (A ||| I) ∧
      Puts (.xori d a im) s d (A ^^^ I) ∧ Puts (.slti d a im) s d (if A.toInt < I.toInt then 1 else 0) ∧
      Puts (.ldi d im) s d I ∧ Puts (.muli d a im) s d (A * I)) ∧
    (im < 64 → Puts (.shli d a im) s d (A <<< im) ∧ Puts (.shri d a im) s d (A >>> im) ∧ Puts (.sari d a im) s d (A.sshiftRight im)) ∧
    (im < 2 ^ 32 → Puts (.ldiw d im) s d ((BitVec.ofNat 32 im).signExtend 64) ∧
      Puts (.ldih d a im) s d (BitVec.ofNat 64 (im * 2 ^ 32 + A.toNat % 2 ^ 32)))) ∧
  (∀ d a n op : Nat, d < 64 → a < 64 → 64 ≤ n → n < 8192 → op = 0x24 ∨ op = 0x25 ∨ op = 0x26 →
    decode .ce [BitVec.ofNat 32 (op * 2 ^ 25 + d * 2 ^ 19 + a * 2 ^ 13 + n)] = .error .reservedField)

/-- BEXT and BINS have opcodes 0x19 and 0x1A in format CA with fn[5:0] = len - 1, and a word with fn[6] set is refused as RESERVED_FIELD. With p =
s[b][5:0], BEXT completes with s[d] holding bits p to p + len - 1 of A, zeros above them and for bits above bit 63; BINS completes with bits p to p +
len - 1 of s[d] taken from the low bits of A, cut at bit 63, and every other bit of s[d] as it was. (R122) -/
def Obligations.BitFields : Prop :=
  ∀ (s : State) (d a b l : Nat), d < 64 → a < 64 → b < 64 → l < 64 →
    let p := (s.rs b).toNat % 64
    encode (.bext d a b l) = [BitVec.ofNat 32 (0x19 * 2 ^ 25 + d * 2 ^ 19 + a * 2 ^ 13 + b * 2 ^ 7 + l)] ∧
    encode (.bins d a b l) = [BitVec.ofNat 32 (0x1A * 2 ^ 25 + d * 2 ^ 19 + a * 2 ^ 13 + b * 2 ^ 7 + l)] ∧
    decode .ce [BitVec.ofNat 32 (0x19 * 2 ^ 25 + d * 2 ^ 19 + a * 2 ^ 13 + b * 2 ^ 7 + 64 + l)] = .error .reservedField ∧
    decode .ce [BitVec.ofNat 32 (0x1A * 2 ^ 25 + d * 2 ^ 19 + a * 2 ^ 13 + b * 2 ^ 7 + 64 + l)] = .error .reservedField ∧
    (∃ r : Word, Puts (.bext d a b l) s d r ∧ ∀ i, i < 64 → r.getLsbD i = (decide (i ≤ l) && (s.rs a).getLsbD (p + i))) ∧
    (∃ r : Word, Puts (.bins d a b l) s d r ∧
      ∀ i, i < 64 → r.getLsbD i = if p ≤ i ∧ i ≤ p + l then (s.rs a).getLsbD (i - p) else (s.rs d).getLsbD i)

/-- An arithmetic, immediate, LCRD, TKRD, MBRD, CSRRD or PTCRD instruction that gives a next state changes at most its destination scalar register (none
when d is 0 or CSRRD traps): every other scalar register, every flag and other register of the member, every other core, every byte of memory at home
and as read through the core's port, and everything that belongs to no core stay as they were. A CSRRD that traps changes no register at all. (R79,
R120, R121, R122, R134, R141, R142, R143, R145) -/
def Obligations.ScalarInstructionsFrame : Prop :=
  ∀ (s t : State) (i : Instr) (d : Nat), scalarDest i = some d → exec i s = .next t →
    let c := s.cur.core
    (∀ n, n ≠ d → t.rs n = s.rs n) ∧ (d = 0 → t.rs 0 = s.rs 0) ∧
    (∀ n u, i = .csrrd d n → t.cur.status = .trap u → ∀ k, t.rs k = s.rs k) ∧
    (t.mem c = { s.mem c with s := (t.mem c).s }) ∧
    (t.core c = { s.core c with seat := { s.seat c with mem := t.mem c } }) ∧
    (∀ k, k ≠ c → t.core k = s.core k) ∧
    SameHome s t ∧ (∀ k l n, t.devRead k l n = s.devRead k l n) ∧ SameBeyondCores s t ∧
    t.cur.core = s.cur.core ∧ t.cur.eng = s.cur.eng ∧ t.cur.ent = s.cur.ent

/-- LDS, STS, LDA and STL of 2^k bytes whose effective address lies below 2^56, is a multiple of the size and translates complete. LDS puts the bytes that
the L1 gives, LDA those that the acquire read gives, zero-extended for sz 0 to 3 and sign-extended for 4 to 6, into s[d] (zeros and an error record on
an uncorrectable error); STS writes the low bytes of s[d] through the L1, STL by a release write. An access to host or CXL memory under STRICT counts
STRICTMISS, a place that does not answer leaves an error record. Under STRICT = 1 the completion is due at the time that R32 gives (which sectors each
access counts, and that the instruction stands at its head until then, is the model's reading: log entries 28 and 50). (R123, R124, R32) -/
def Obligations.LoadsAndStoresComplete : Prop :=
  ∀ (s s1 : State) (d a z im : Nat) (l : Loc),
    let k := z % 4
    let ea := s.effAddr a im k
    let s2 := if l.tgt = 0 then s1 else s1.strictMiss s.cur.core
    let c := s2.cur.core
    let x := s2.xctx c
    ea < 2 ^ 56 → ea % 2 ^ k = 0 →
    (s.translate s.cur.core (s.xctx s.cur.core) ea .read true = (.ok l, s1) →
      let r := s2.l1Read c l (2 ^ k)
      let q := s2.acquireRead c l (2 ^ k)
      (r.2.memHit true l = none → CompletesPadded (.lds d a z im) s
        ((r.2.noteUnreachable r.2.cur.core (r.2.xctx r.2.cur.core) ea l).putS d (loadWord z r.1)) (s2.missSectors l)) ∧
      (∀ code, r.2.memHit true l = some code → CompletesPadded (.lds d a z im) s
        ((r.2.memError r.2.cur.core (r.2.xctx r.2.cur.core) code l ea 0).putS d 0) (s2.missSectors l)) ∧
      (q.2.memHit true l = none → CompletesPadded (.lda d a z im) s
        ((q.2.noteUnreachable q.2.cur.core (q.2.xctx q.2.cur.core) ea l).putS d (loadWord z q.1)) (if l.tgt = 0 then 1 else 0)) ∧
      (∀ code, q.2.memHit true l = some code → CompletesPadded (.lda d a z im) s
        ((q.2.memError q.2.cur.core (q.2.xctx q.2.cur.core) code l ea 0).putS d 0) (if l.tgt = 0 then 1 else 0))) ∧
    (s.translate s.cur.core (s.xctx s.cur.core) ea .write true = (.ok l, s1) →
      CompletesPadded (.sts d a z im) s ((s2.noteUnreachable c x ea l).l1Write c l (leBytes (2 ^ k) (s2.rn d))) (s2.missSectors l) ∧
      CompletesPadded (.stl d a z im) s ((s2.noteUnreachable c x ea l).releaseWrite c l (leBytes (2 ^ k) (s2.rn d)))
        (s2.dirtySectors + (if l.tgt = 0 then 1 else 0)))

/-- The effective address of a load or store is (s[a] + SignExt(imm10) x size) mod 2^64. In the order of R123: at or above 2^56 it traps ADDR_RANGE; not a
multiple of the size, it traps ALIGN; and a translation that faults gives its own trap, with nothing read or written. CFLUSH, whose address is s[a] +
SignExt(imm13), checks range and translation as a read and no alignment. A loaded value is the little-endian value of its bytes, sign-extended from
their top bit for sz 4 to 6. (R123, R26) -/
def Obligations.LoadStoreAddressAndTraps : Prop :=
  (∀ (s : State) (a im k : Nat), im < 1024 → k < 4 →
    s.effAddr a im k = (s.rs a + (BitVec.ofNat 10 im).signExtend 64 * BitVec.ofNat 64 (2 ^ k)).toNat) ∧
  (∀ (s : State) (d a z im : Nat), 2 ^ 56 ≤ s.effAddr a im (z % 4) →
    let t : Trap := { cause := 0x10, taddr := s.effAddr a im (z % 4) }
    Traps (.lds d a z im) s t ∧ Traps (.sts d a z im) s t ∧ Traps (.lda d a z im) s t ∧ Traps (.stl d a z im) s t) ∧
  (∀ (s : State) (d a z im : Nat), s.effAddr a im (z % 4) < 2 ^ 56 → s.effAddr a im (z % 4) % 2 ^ (z % 4) ≠ 0 →
    let t : Trap := { cause := 0x13, taddr := s.effAddr a im (z % 4) }
    Traps (.lds d a z im) s t ∧ Traps (.sts d a z im) s t ∧ Traps (.lda d a z im) s t ∧ Traps (.stl d a z im) s t) ∧
  (∀ (s s1 : State) (d a z im : Nat) (t : Trap), s.effAddr a im (z % 4) < 2 ^ 56 → s.effAddr a im (z % 4) % 2 ^ (z % 4) = 0 →
    let tr := fun k => s.translate s.cur.core (s.xctx s.cur.core) (s.effAddr a im (z % 4)) k true
    (tr .read = (.error t, s1) → exec (.lds d a z im) s = .next (s1.finish (.trap t)) ∧ exec (.lda d a z im) s = .next (s1.finish (.trap t))) ∧
    (tr .write = (.error t, s1) → exec (.sts d a z im) s = .next (s1.finish (.trap t)) ∧ exec (.stl d a z im) s = .next (s1.finish (.trap t)))) ∧
  (∀ (s s1 : State) (a im : Nat) (t : Trap), im < 8192 →
    let ea := (s.rs a + (BitVec.ofNat 13 im).signExtend 64).toNat
    (2 ^ 56 ≤ ea → Traps (.cflush a im) s { cause := 0x10, taddr := ea }) ∧
    (ea < 2 ^ 56 → s.translate s.cur.core (s.xctx s.cur.core) ea .read true = (.error t, s1) →
      exec (.cflush a im) s = .next (s1.finish (.trap t)))) ∧
  (∀ bs : List Byte, loadWord 3 bs = BitVec.ofNat 64 (leNat bs)) ∧
  (∀ b0 b1 b2 b3 : Byte,
    loadWord 0 [b0] = b0.zeroExtend 64 ∧ loadWord 4 [b0] = b0.signExtend 64 ∧
    loadWord 1 [b0, b1] = (b1 ++ b0).zeroExtend 64 ∧ loadWord 5 [b0, b1] = (b1 ++ b0).signExtend 64 ∧
    loadWord 2 [b0, b1, b2, b3] = (b3 ++ (b2 ++ (b1 ++ b0))).zeroExtend 64 ∧
    loadWord 6 [b0, b1, b2, b3] = (b3 ++ (b2 ++ (b1 ++ b0))).signExtend 64)

/-- A store through the L1 of bytes that lie in one line, with the line present or room for it: a load of the stored bytes then gives them; every other
byte that the core reads, through the L1 or past it, under the stored place's key, reads as before; the line is dirty and its address stands in the
dirty-line FIFO; no byte at home changes, and no other core. (R123, R330, R331) -/
def Obligations.StoreThroughTheL1 : Prop :=
  ∀ (s : State) (c : Nat) (l : Loc) (bs : List Byte),
    l.pa % 512 + bs.length ≤ 512 → bs ≠ [] → (∀ x ∈ (s.core c).l1, x.data.length = 512 ∧ x.loc.pa % 512 = 0) →
    ((s.l1Line c l).isSome = true ∨ (s.core c).l1.length < 128) →
    let t := s.l1Write c l bs
    (t.l1Read c l bs.length).1 = bs ∧ (t.l1Read c l bs.length).2 = t ∧
    (∀ l' : Loc, ¬(l'.tgt = l.tgt ∧ l'.key = l.key ∧ l.pa ≤ l'.pa ∧ l'.pa < l.pa + bs.length) → t.seenByte c l' = s.seenByte c l') ∧
    (∃ x, t.l1Line c l = some x ∧ x.dirty ≠ []) ∧ l.line ∈ (t.core c).fifo ∧
    SameHome s t ∧ (∀ k, k ≠ c → t.core k = s.core k)

/-- FENCE, FENCE.acq, FENCE.rel, and CFLUSH of an address that translates, complete: FENCE releases at SYSTEM scope and then acquires, the other two do
one part each, and CFLUSH evicts the line that holds its address, completing under STRICT when the sectors that it writes back are due, or changes
nothing when there is none. A release at SYSTEM scope leaves no write-back of its core's L1 at the memory port or at the ordering point of its die
(other engines' writes may stay: log entry 15); an acquire leaves in the L1 exactly the dirty lines; an evicted line is no longer there, and its dirty
bytes stand at the memory port. (R124, R125, R126, R330) -/
def Obligations.FencesAndFlushes : Prop :=
  (∀ s : State, CompletesPadded .fence s ((s.release s.cur.core true).acquire s.cur.core)
      s.dirtySectors ∧
    CompletesPadded .fenceRel s (s.release s.cur.core true) s.dirtySectors ∧
    Completes .fenceAcq s (s.acquire s.cur.core)) ∧
  (∀ (s s1 : State) (a im : Nat) (l : Loc), im < 8192 →
    let ea := (s.rs a + (BitVec.ofNat 13 im).signExtend 64).toNat
    ea < 2 ^ 56 → s.translate s.cur.core (s.xctx s.cur.core) ea .read true = (.ok l, s1) →
    let s2 := if l.tgt = 0 then s1 else s1.strictMiss s.cur.core
    (∀ x, s2.l1Line s2.cur.core l = some x → CompletesPadded (.cflush a im) s (s2.evictLine s2.cur.core x)
      (if l.tgt = 0 then (x.writebacks s2.cur.core).length else 0)) ∧
    (s2.l1Line s2.cur.core l = none → Completes (.cflush a im) s s2)) ∧
  (∀ (s : State) (c : Nat), ∀ w ∈ ((s.release c true).core c).outq ++ ((s.release c true).die (dieOf c)).ordq, w.core = c → w.ce = false) ∧
  (∀ (s : State) (c : Nat) (x : L1Line), x ∈ ((s.acquire c).core c).l1 ↔ x ∈ (s.core c).l1 ∧ x.dirty ≠ []) ∧
  (∀ (s : State) (c : Nat) (l : Loc) (x : L1Line), s.l1Line c l = some x → x.loc.pa % 512 = 0 →
    (s.evictLine c x).l1Line c l = none ∧
    (x.dirty ≠ [] → ((s.evictLine c x).core c).outq = (s.core c).outq ++ x.writebacks c))

/-- With PC the line of the instruction: BC and BZ complete, going to PC + off10 when the condition holds and on past their line when it does not; B and
CALL, which fetch follows when it deals their line, complete with no further transfer (executed again after their target trapped, they transfer), CALL
leaving PC + 32 in s[d]; RET and JR to the address of a line complete by going there. A target line outside the text traps FETCH_RANGE, one of CLASS 0
traps ILLEGAL_TARGET, and a RET or JR to an address that is not a multiple of 32 traps ILLEGAL_TARGET, also outside the text (R129 does not order the
two causes: the model's choice, log entry 30), else to one outside the text FETCH_RANGE, after issue. A transfer leaves fetch at its target, untagged;
BC, BZ, B and JR pop the loops whose body the target leaves. (R82, R91, R92, R128, R129, R133) -/
def Obligations.BranchesCompare : Prop :=
  (∀ (s : State) (a b c o : Nat),
    let A := s.rs a
    let holds : Word → Word → Prop := fun A B => match c with
      | 0 => A = B | 1 => A ≠ B | 2 => A.toInt < B.toInt | 3 => B.toInt ≤ A.toInt | 4 => A.toNat < B.toNat | _ => B.toNat ≤ A.toNat
    let t : Int := (s.cur.ent.line : Int) + (BitVec.ofNat 10 o).toInt
    let go := s.modCm (fun m => (m.goTo t.toNat true).unwait)
    let on := s.modCm (fun m => (m.advance s.cur.ent.line).unwait)
    o < 1024 →
    (holds A (s.rs b) → s.targetCheck s.cur.core t = none → Completes (.bc a b c o) s go) ∧
    (holds A 0 → s.targetCheck s.cur.core t = none → Completes (.bz a c o) s go) ∧
    (¬ holds A (s.rs b) → Completes (.bc a b c o) s on) ∧ (¬ holds A 0 → Completes (.bz a c o) s on) ∧
    (∀ cause, s.targetCheck s.cur.core t = some cause →
      (holds A (s.rs b) → exec (.bc a b c o) s = .next (s.finish (.trapIssued { cause := cause }))) ∧
      (holds A 0 → exec (.bz a c o) s = .next (s.finish (.trapIssued { cause := cause }))))) ∧
  (∀ (s : State) (d o : Nat), o < 2 ^ 19 →
    let t : Int := (s.cur.ent.line : Int) + (BitVec.ofNat 19 o).toInt
    let link : Word := BitVec.ofNat 64 (s.cm.lineAddr s.cur.ent.line + 32)
    let again := s.cm.fetch.waitCE = true ∧ s.cm.fetch.next = s.cur.ent.line
    (s.targetCheck s.cur.core t = none → ¬ again → Completes (.b o) s s ∧ Puts (.call d o) s d link) ∧
    (s.targetCheck s.cur.core t = none → again → Completes (.b o) s (s.modCm (fun m => (m.goTo t.toNat true).unwait)) ∧
      Completes (.call d o) s ((s.putS d link).modCm (fun m => (m.goTo t.toNat false).unwait))) ∧
    (∀ cause, s.targetCheck s.cur.core t = some cause →
      exec (.b o) s = .next (s.finish (.trapIssued { cause := cause })) ∧ exec (.call d o) s = .next (s.finish (.trapIssued { cause := cause })))) ∧
  (∀ (s : State) (a n : Nat), (s.rs a).toNat % 32 = 0 → (s.rs a).toNat = s.cm.lineAddr n → s.targetCheck s.cur.core n = none →
    Completes (.ret a) s (s.modCm (fun m => (m.goTo n false).unwait)) ∧ Completes (.jr a) s (s.modCm (fun m => (m.goTo n true).unwait))) ∧
  (∀ (s : State) (a : Nat), (s.rs a).toNat % 32 ≠ 0 →
    exec (.ret a) s = .next (s.finish (.trapIssued { cause := 0x05 })) ∧ exec (.jr a) s = .next (s.finish (.trapIssued { cause := 0x05 }))) ∧
  (∀ (s : State) (a : Nat), (s.rs a).toNat % 32 = 0 → (s.rs a).toNat < s.cm.lineAddr 0 ∨ s.cm.lineAddr s.cm.kern.textn ≤ (s.rs a).toNat →
    exec (.ret a) s = .next (s.finish (.trapIssued { cause := 0x06 })) ∧ exec (.jr a) s = .next (s.finish (.trapIssued { cause := 0x06 }))) ∧
  (∀ (s : State) (c n : Nat),
    ((s.mem c).kern.textn ≤ n → s.targetCheck c n = some 0x06) ∧
    (n < (s.mem c).kern.textn → ((s.core c).line n).headD 0 &&& 0xF = 0 → s.targetCheck c n = some 0x05) ∧
    (n < (s.mem c).kern.textn → ((s.core c).line n).headD 0 &&& 0xF ≠ 0 → s.targetCheck c n = none)) ∧
  (∀ (m : Member) (t : Nat) (pops : Bool),
    (m.goTo t pops).fetch.next = t ∧ (m.goTo t pops).fetch.tag = none ∧ (m.goTo t pops).lc = m.lc ∧
    (pops = false → (m.goTo t pops).fetch.loops = m.fetch.loops) ∧
    (pops = true → ∃ out, m.fetch.loops = out ++ (m.goTo t pops).fetch.loops ∧ (∀ p ∈ out, t < p.first ∨ p.last < t) ∧
      ∀ p, (m.goTo t pops).fetch.loops.head? = some p → p.first ≤ t ∧ t ≤ p.last))

/-- LOOP and LOOPX of a TEMPORAL level that is greater than every level on the stack, not inside a pipelined loop, with a body of at least one line inside
the text and (LOOP) a count below 2^32, complete: from iteration I to E they skip the body when I > E, leaving trips 0, and otherwise push the level
with LC = I; else they trap LOOP_STATE or FETCH_RANGE with no effect. Fetch passing the last body line of the innermost loop goes back to the first
with LC one higher while LC is below the last run, and otherwise pops the level, after which the loop around it takes its own back edge when that line
is its last too. Before each run j of a pipelined loop of S stages, g_k is 1 exactly for k < S with I + k <= j <= E + k, and after each run, the last
included, RRB falls by one modulo 16; other loops leave both. LCRD gives LC of its level as dealt, its trips form the trips or COUNT; STAGE completes
with no effect of the CE, its set form sets g, and ROTB sets RRB, for the lines after them: fetch goes on past their line once the last of them has
executed. (R130, R131, R132, R134, R136, R137, R139) -/
def Obligations.HardwareLoops : Prop :=
  (∀ (s : State) (l a o I N : Nat) (x : LoopEnt) (i : Instr),
    (i = .loop l a o ∧ I = 0 ∧ N = (if a = 0 then x.count else (s.rs a).toNat) ∧ N < 2 ^ 32) ∨
      (i = .loopx l a o ∧ I = (if a = 0 then 0 else (s.rs a).toNat) ∧ N = x.count) →
    s.cm.kern.loops[l]? = some x → x.kind = 0 → (∀ p ∈ s.cm.fetch.loops, p.lvl < l) → (∀ p, s.cm.fetch.loops.head? = some p → p.stages = 0) →
    2 ≤ o →
    let line := s.cur.ent.line
    (s.cm.kern.textn < line + o → Traps i s { cause := 0x06 }) ∧
    (line + o ≤ s.cm.kern.textn → N ≤ I → ∃ t, exec i s = .next t ∧ t.cur.status = .done ∧ t.cm.fetch.next = line + o ∧
      t.cm.fetch.loops = s.cm.fetch.loops ∧ t.cm.lc = s.cm.lc ∧ tgetD t.cm.trips l 0 = 0) ∧
    (line + o ≤ s.cm.kern.textn → I < N → ∃ t, exec i s = .next t ∧ t.cur.status = .done ∧ t.cm.fetch.next = line + 1 ∧
      t.cm.fetch.loops =
        { lvl := l, i := I, e := N - 1, first := line + 1, last := line + o - 1, stages := if x.pipe then x.stages + 1 else 0 } :: s.cm.fetch.loops ∧
      tgetD t.cm.lc l 0 = BitVec.ofNat 64 I ∧ tgetD t.cm.trips l 0 = N - I ∧ t.cm.fetch.rrb = s.cm.fetch.rrb ∧
      (x.pipe = false → t.cm.fetch.g = s.cm.fetch.g) ∧ (x.pipe = true → t.cm.fetch.g = 1))) ∧
  (∀ (s : State) (l a o : Nat),
    (∀ x, s.cm.kern.loops[l]? = some x → x.kind ≠ 0) ∨ (∃ p ∈ s.cm.fetch.loops, l ≤ p.lvl) ∨
      (∃ p, s.cm.fetch.loops.head? = some p ∧ p.stages ≠ 0) ∨ o < 2 →
    Traps (.loop l a o) s { cause := 0x42 } ∧ Traps (.loopx l a o) s { cause := 0x42 }) ∧
  (∀ (s : State) (l a o : Nat), a ≠ 0 → 2 ^ 32 ≤ (s.rs a).toNat → Traps (.loop l a o) s { cause := 0x42 }) ∧
  (∀ (m : Member) (p : Loop) (r : List Loop), m.fetch.loops = p :: r →
    (m.lcOf p.lvl < p.lastRun → (m.advance p.last).fetch.next = p.first ∧ (m.advance p.last).fetch.loops = p :: r ∧
      tgetD (m.advance p.last).lc p.lvl 0 = BitVec.ofNat 64 (m.lcOf p.lvl + 1)) ∧
    (p.lastRun ≤ m.lcOf p.lvl → r = [] → (m.advance p.last).fetch.next = p.last + 1 ∧ (m.advance p.last).fetch.loops = []) ∧
    (∀ n, n ≠ p.last → (m.advance n).fetch.next = n + 1 ∧ (m.advance n).fetch.loops = p :: r ∧ (m.advance n).fetch.g = m.fetch.g ∧
      (m.advance n).fetch.rrb = m.fetch.rrb) ∧
    p.lastRun = (if p.stages = 0 then p.e else p.e + p.stages - 1) ∧
    (m.lcOf p.lvl < p.lastRun →
      (p.stages = 0 → (m.advance p.last).fetch.g = m.fetch.g ∧ (m.advance p.last).fetch.rrb = m.fetch.rrb) ∧
      (p.stages ≠ 0 → (m.advance p.last).fetch.rrb = (m.fetch.rrb + 15) % 16 ∧
        ∀ k, (m.advance p.last).fetch.g.testBit k =
          decide (k < 8 ∧ k < p.stages ∧ p.i + k ≤ m.lcOf p.lvl + 1 ∧ m.lcOf p.lvl + 1 ≤ p.e + k))) ∧
    (p.lastRun ≤ m.lcOf p.lvl → ∀ n, n = p.last → (r = [] ∨ ∃ q t, r = q :: t ∧ q.last ≠ n) →
      (m.advance n).fetch.next = n + 1 ∧ (m.advance n).fetch.loops = r ∧ (m.advance n).fetch.g = m.fetch.g ∧
      (m.advance n).fetch.rrb = (if p.stages = 0 then m.fetch.rrb else (m.fetch.rrb + 15) % 16)) ∧
    (p.lastRun ≤ m.lcOf p.lvl → ∀ q t, r = q :: t → q.last = p.last → q.stages = 0 → m.lcOf q.lvl < q.lastRun →
      (m.advance p.last).fetch.next = q.first ∧ (m.advance p.last).fetch.loops = r ∧
      tgetD (m.advance p.last).lc q.lvl 0 = BitVec.ofNat 64 (m.lcOf q.lvl + 1) ∧ (m.advance p.last).fetch.g = m.fetch.g ∧
      (m.advance p.last).fetch.rrb = (if p.stages = 0 then m.fetch.rrb else (m.fetch.rrb + 15) % 16))) ∧
  (∀ (s : State) (d l : Nat),
    (∀ x, s.cm.kern.loops[l]? = some x →
      Puts (.lcrd d l) s d (s.stamp.lcOf l) ∧
      Puts (.lcrdTrips d l) s d (if x.kind = 0 then BitVec.ofNat 64 (tgetD s.cm.trips l 0) else BitVec.ofNat 64 x.count)) ∧
    (s.cm.kern.loops[l]? = none → Puts (.lcrd d l) s d 0 ∧ Puts (.lcrdTrips d l) s d 0)) ∧
  (∀ (s : State) (a n : Nat),
    let on := fun f => s.modCm (fun m => ({ m with fetch := f m.fetch } : Member).setMade)
    Completes (.stage n) s s ∧
    Completes (.stageSet a n) s (on (fun f => { f with g := (s.rs a).toNat % 256 })) ∧
    Completes (.rotb a n) s (on (fun f => { f with rrb := ((s.rs a).toNat + n) % 16 }))) ∧
  (∀ m : Member,
    (m.fetch.past = none ∨ 2 ≤ m.fetch.sets → m.setMade = { m with fetch := { m.fetch with sets := m.fetch.sets - 1 } }) ∧
    (∀ n, m.fetch.past = some n → m.fetch.sets ≤ 1 →
      m.setMade = ({ m with fetch := { m.fetch with sets := m.fetch.sets - 1, past := none } } : Member).advance n))

/-- TKWAIT completes with no effect of its own (its wait is taken at issue); TKPOST makes one post of its token by the CE, after the waits and post of its
own issue; TKSET of a value up to 63 sets the token, after the waits and post of its own issue, and of a greater one traps TOKEN_RANGE with the value
as its address; TKRD reads the token; MBRD and MBWR copy a whole mailbox from or to a scalar register; PTCRD reads the PTC. (R141, R142, R145) -/
def Obligations.TokensMailboxesAndTime : Prop :=
  ∀ (s : State) (d a k x : Nat),
    Completes (.tkwait k) s s ∧
    exec (.tkpost k) s = .next ((s.complete (prefixWaits s.cur.ent.pfx)).modCm (fun m => m.post 1 k)) ∧
    ((s.rs a).toNat ≤ 63 → ∃ t, exec (.tkset a k) s = .next t ∧
      t = (s.complete (prefixWaits s.cur.ent.pfx)).modCm (fun m => { m with k := tset m.k k (s.rs a).toNat }) ∧
      (t.mem s.cur.core).tok k = (s.rs a).toNat) ∧
    (63 < (s.rs a).toNat → Traps (.tkset a k) s { cause := 0x15, taddr := (s.rs a).toNat }) ∧
    Puts (.tkrd d k) s d (BitVec.ofNat 64 (s.cm.tok k)) ∧
    Puts (.mbrd d x) s d (tgetD s.cm.x x 0) ∧
    Completes (.mbwr a x) s (s.modCm (fun m => { m with x := tset m.x x (s.rs a) })) ∧
    Puts (.ptcrd d) s d (BitVec.ofNat 64 s.ptc)

/-- A member's CSRRD or CSRWR of a register marked privileged (0x100 to 0x3FF) traps PRIVILEGED and changes nothing; on a sequencer a number there that is
no register, and on either a number outside the table, traps RESERVED_FIELD. (R12, R143) -/
def Obligations.PrivilegedRegistersTrap : Prop :=
  ∀ (s : State) (d a n : Nat),
    (isSeq s.cur.core = false → 0x100 ≤ n → n < 0x400 → Traps (.csrrd d n) s { cause := 0x04 } ∧ Traps (.csrwr a n) s { cause := 0x04 }) ∧
    (isSeq s.cur.core = true → 0x100 ≤ n → n < 0x400 →
      ¬ (n = 0x100 ∨ n = 0x101 ∨ n = 0x102 ∨ n = 0x120 ∨ (0x110 ≤ n ∧ n ≤ 0x11F)) →
      Traps (.csrrd d n) s { cause := 0x03 } ∧ Traps (.csrwr a n) s { cause := 0x03 }) ∧
    (n < 0x100 ∨ 0x400 ≤ n → ¬ (n ≤ 6 ∨ (8 ≤ n ∧ n ≤ 0x14) ∨ n = 0x20) →
      Traps (.csrrd d n) s { cause := 0x03 } ∧ Traps (.csrwr a n) s { cause := 0x03 })

/-- CSRRD of each member register, and on a sequencer of each privileged one, completes with its value. CSRWR of a value without reserved bits completes:
of FPMODE it sets RM, SATF, FZ and EN and clears the flags where 1 is written, of SCMODE, FADE, CTXCFG, SEQCTX, STAIL and PWRCAP it sets the register
(of FPMODE and SCMODE the old values stay on record for the engines that may still sample them, R29: log entry 58), and of a read-only register it
changes nothing; a reserved bit, also of a read-only register, and a reserved rounding mode or rate trap RESERVED_FIELD, and a SEQCTX that names a
FREE context or the supervisor traps CTX_OPERAND. (R9, R10, R29, R40, R143, R144, R157, R289, R290, R379, R490) -/
def Obligations.SystemRegisters : Prop :=
  (∀ (s : State) (d : Nat),
    let m := s.cm
    let q := (s.core s.cur.core).seqctx
    let rd := fun n (v : Nat) => Puts (.csrrd d n) s d (BitVec.ofNat 64 v)
    rd 0x000 m.fpmode ∧ rd 0x001 m.trapcause ∧ rd 0x002 m.traplane ∧ rd 0x003 m.trapline ∧
    rd 0x004 (b2n s.stamp.tag.isSome * 2 ^ 15 + s.stamp.tag.getD 0 % 8 * 2 ^ 12 + s.stamp.rrb * 2 ^ 8 + s.stamp.g) ∧
    rd 0x005 ((s.group m.group).d * (s.group m.group).c * 2 ^ 32 + s.cur.core % 64 * 2 ^ 24 + dieOf s.cur.core * 2 ^ 16 + m.rank) ∧
    rd 0x006 m.strictmiss ∧
    (∀ l, l < 8 → rd (8 + l) (if l < m.kern.loops.length then (s.stamp.lcs.getD l 0).toNat else 0)) ∧
    rd 0x010 m.vshape ∧ rd 0x011 m.scmode ∧ rd 0x012 m.kstep ∧ rd 0x013 m.cstep ∧ rd 0x014 (s.seat s.cur.core).fade ∧ rd 0x020 s.ptc ∧
    (isSeq s.cur.core = true →
      rd 0x100 (s.ctx q).cfg ∧ rd 0x101 q ∧ rd 0x102 ((s.ctx q).rdy % 256 * 2 ^ 32 + (s.ctx q).cause * 2 ^ 16 + (s.ctx q).state.code) ∧
      rd 0x120 s.pwrcap ∧ ∀ p, p < 16 → rd (0x110 + p) (s.link (16 + p)).stail)) ∧
  (∀ (s : State) (a : Nat),
    let v := (s.rs a).toNat
    let wr := fun n t => Completes (.csrwr a n) s t
    (bits v 63 22 = 0 → bits v 15 14 = 0 → bits v 7 5 = 0 → v % 8 ≤ 4 →
      ∃ f, wr 0x000 (s.modCm (fun m => { m with fpmode := f, oldMode := (m.fpmode, m.scmode), stale := [2, 3, 4] })) ∧ bits f 21 16 = bits v 21 16 ∧ bits f 4 0 = bits v 4 0 ∧
        ∀ i, i < 6 → bit f (8 + i) = (bit s.cm.fpmode (8 + i) && !bit v (8 + i))) ∧
    (bits v 63 11 = 0 → bits v 5 2 = 0 → bits v 10 6 ≤ 4 → wr 0x011 (s.modCm (fun m => { m with scmode := v, oldMode := (m.fpmode, m.scmode), stale := [2, 3, 4] }))) ∧
    (v < 2 ^ 32 → wr 0x014 (s.modSeat s.cur.core (fun x => { x with fade := v })) ∧ wr 0x006 s) ∧
    wr 0x003 s ∧ wr 0x020 s ∧ (∀ l, l < 8 → wr (8 + l) s) ∧
    (bits v 63 22 ≠ 0 ∨ bits v 15 14 ≠ 0 ∨ bits v 7 5 ≠ 0 ∨ 4 < v % 8 → Traps (.csrwr a 0x000) s { cause := 0x03 }) ∧
    (bits v 63 11 ≠ 0 ∨ bits v 5 2 ≠ 0 ∨ 4 < bits v 10 6 → Traps (.csrwr a 0x011) s { cause := 0x03 }) ∧
    (let bad := fun n => Traps (.csrwr a n) s { cause := 0x03 }
     let ro := fun n (fs : List (Nat × Nat)) => ((∀ f ∈ fs, bits v f.1 f.2 = 0) → wr n s) ∧ ((∃ f ∈ fs, bits v f.1 f.2 ≠ 0) → bad n)
     ro 0x001 [(63, 48), (41, 38), (15, 8)] ∧ ro 0x002 [(63, 9), (3, 3)] ∧ ro 0x004 [(63, 16)] ∧
     ro 0x005 [(63, 42), (31, 30), (23, 19), (15, 10)] ∧ ro 0x006 [(63, 32)] ∧ ro 0x010 [(63, 25), (9, 0)] ∧ ro 0x012 [(63, 16), (14, 10)] ∧
     ro 0x013 [(63, 16), (14, 7)] ∧ (2 ^ 32 ≤ v → bad 0x014) ∧
     (isSeq s.cur.core = true → ro 0x102 [(63, 40), (31, 24), (15, 4)] ∧ (8 ≤ v → bad 0x100) ∧ (256 ≤ v → bad 0x101) ∧
       (∀ p, p < 16 → 2 ^ 32 ≤ v → bad (0x110 + p)) ∧ (bits v 63 48 ≠ 0 ∨ bits v 31 27 ≠ 0 ∨ bits v 23 21 ≠ 0 ∨ bit v 17 = true → bad 0x120))) ∧
    (isSeq s.cur.core = true →
      (v < 8 → wr 0x100 (s.modCtx (s.core s.cur.core).seqctx (fun x => { x with cfg := v }))) ∧
      (v < 256 → (s.ctx v).state ≠ .free → (s.ctx v).kind = 0 → wr 0x101 (s.modCore s.cur.core (fun x => { x with seqctx := v }))) ∧
      (v < 256 → (s.ctx v).state = .free ∨ (s.ctx v).kind ≠ 0 → Traps (.csrwr a 0x101) s { cause := 0xA5 }) ∧
      (∀ p, p < 16 → v < 2 ^ 32 → wr (0x110 + p) (s.modLink (16 + p) (fun l => { l with stail := v }))) ∧
      (bits v 63 48 = 0 → bits v 31 27 = 0 → bits v 23 21 = 0 → bit v 17 = false → wr 0x120 (s.writePwrcap v))))

/-- TRAP, BRK and HALT stop their engine with causes SOFTWARE, BREAKPOINT and HALTED, counting as completed; HALT and END in a handler, and TRET outside
one, trap HANDLER_STATE. YIELD waits for what other engines were dealt before it, then takes a pending stop of its context, and is a NOP otherwise and
in a handler. END waits for everything the member has begun, then releases at SYSTEM scope, arrive-drops its barriers and retires the member. TRET
waits for what the handler dealt up to it and for nothing older, then restores queues and fetch, clears HND, lets the trapped instruction go on and
leaves to be delivered what else had trapped and counts as completed. EVPOST appends its entry when the event ring has room, and else waits unissued.
That BRK counts as completed as TRAP does, that END waits for collectives not yet delivered (log entry 30) and that TRET drops what was dealt after it
(log entry 16) are the model's reading. (R146, R147, R148, R149, R150, R151, R390, R394) -/
def Obligations.SystemInstructions : Prop :=
  ∀ (s : State) (a b n : Nat),
    let c := s.cur.core
    let w := prefixWaits s.cur.ent.pfx
    exec (.trap n) s = .next (s.finish (.trapDone { cause := 0x90, code := n })) ∧
    exec (.brk n) s = .next (s.finish (.trapDone { cause := 0x91, code := n })) ∧
    (s.cm.aside = none → exec .halt s = .next (s.finish (.trapDone { cause := 0x92 }))) ∧
    (s.cm.aside ≠ none → Traps .halt s { cause := 0x07 } ∧ Traps .endK s { cause := 0x07 } ∧ Completes .yield s s) ∧
    (s.cm.aside = none → Traps .tret s { cause := 0x07 }) ∧
    (s.cm.aside = none → s.pendingBefore c s.cur.ent.seqNo = true → Waits .yield s) ∧
    (s.cm.aside = none → s.pendingBefore c s.cur.ent.seqNo = false →
      ((s.ctx (s.ctxOn c)).stop ≠ none → isSeq c = false → Completes .yield s (s.modCm (fun m => { m with yielded := true }))) ∧
      ((s.ctx (s.ctxOn c)).stop = none ∨ isSeq c = true → Completes .yield s s)) ∧
    (s.cm.aside = none → s.pendingBefore c s.cm.nextSeq = true ∨ (s.core c).port ≠ none ∨ (∃ p ∈ s.cm.chans, p.2.delivered ≠ p.2.issued) →
      Waits .endK s) ∧
    (s.cm.aside = none → s.pendingBefore c s.cm.nextSeq = false → (s.core c).port = none → (∀ p ∈ s.cm.chans, p.2.delivered = p.2.issued) →
      exec .endK s = .next (((s.release c true).arriveDrops c).retire c false)) ∧
    (∀ x, s.cm.aside = some x → s.pendingIn c x.seq0 (s.cur.ent.seqNo + 1) = true ∨ (s.core c).port ≠ none → Waits .tret s) ∧
    (∀ x, s.cm.aside = some x → s.pendingIn c x.seq0 (s.cur.ent.seqNo + 1) = false → (s.core c).port = none →
      ∃ t, exec .tret s = .next t ∧ t.cm.aside = none ∧ bit t.cm.trapcause 47 = false ∧
        t.cm.stuck = ({ s.cm with queues := x.queues, stuck := x.stuck } : Member).unheard x.eng ∧ t.cm.fetchTrap = none ∧
        t.cm.status = .running ∧ t.cm.k = (s.complete w).cm.k ∧ t.cm.s = s.cm.s ∧ t.cm.tiles = s.cm.tiles ∧
        (x.eng = 0 → t.cm.queues = x.queues ∧ t.cm.fetch = x.fetch) ∧
        (∀ e r, x.eng ≠ 0 → tgetD x.queues x.eng [] = e :: r → e.issued = false → t.cm.queues = x.queues ∧ t.cm.fetch = x.fetch)) ∧
    ((s.ctx (s.eventCtx c)).waiting = [] → s.ringRoom (s.eventCtx c) eventRing 1 = true →
      Completes (.evpost a b) s (s.appendEntries (s.eventCtx c) eventRing [eventBytes 0 ((s.rs b).toNat % 65536) c 0 s.ptc (s.rs a).toNat])) ∧
    ((s.ctx (s.eventCtx c)).waiting ≠ [] ∨ s.ringRoom (s.eventCtx c) eventRing 1 = false → Waits (.evpost a b) s)

/-- TRAP_DELIVERY to a running member takes the fetch trap if there is one, else the trap that was raised first (an order that is the model's reading, log
entry 30). TRAPCAUSE takes the cause with CODE, EXC, WKIND, WLVL and HND, TRAPLINE the address of the line, TRAPLANE the lane, engine, prefix and
issued marks. If the cause is eligible (classes 1, 3, 4 or SOFTWARE), the kernel has a handler whose mask admits its class, the member is not in its
handler and the core is no sequencer, then queues, traps not yet delivered and fetch are set aside, a waiting BWAIT gives up its place at the port and
fetch goes on at line HL with empty queues, an empty loop stack, RRB 0, g 0xFF, untagged, HND 1, and scalar registers, tokens, mailboxes, tiles and
all other cores stay. Otherwise the member halts. (R388, R389, R390, R398, R94, R96) -/
def Obligations.TrapDelivery : Prop :=
  (∀ (s : State) (c cause line : Nat), (s.mem c).fetchTrap = some (cause, line) →
    s.pendingTrap c = some (0, line, { cause := cause }, none)) ∧
  (∀ (s : State) (c g : Nat) (t : Trap) (r : List (Nat × Trap)) (e : Entry) (q : List Entry),
    (s.mem c).fetchTrap = none → (s.mem c).stuck = (g, t) :: r → t.copy = 0 → (s.mem c).q g = e :: q →
    s.pendingTrap c = some (g, e.line, t, some e)) ∧
  (∀ (s : State) (c g line : Nat) (t : Trap) (e : Option Entry), (s.mem c).status = .running → s.pendingTrap c = some (g, line, t, e) →
    let m := s.mem c
    let hnd := b2n m.aside.isSome
    let cause := t.cause + t.code % 2 ^ 16 * 2 ^ 16 + t.exc % 64 * 2 ^ 32 + t.wkind % 4 * 2 ^ 42 + t.wlvl % 8 * 2 ^ 44 + hnd * 2 ^ 47
    let s1 := s.modMem c (fun m => { m with trapcause := cause, trapline := m.lineAddr line, traplane := trapLane g e })
    let handled := fun hl => m.kern.hl = some hl ∧
      (t.cause / 16 = 1 ∨ t.cause / 16 = 3 ∨ t.cause / 16 = 4 ∨ t.cause = 0x90) ∧ bit m.kern.hmask (t.cause / 16) = true ∧ m.aside = none ∧ isSeq c = false
    (∀ hl, handled hl → ∃ u, Leaves (.trapDelivery c) s u ∧
      (u.mem c).aside = some { queues := m.queues, stuck := m.stuck, fetch := m.fetch, eng := g, cause := t.cause, seq0 := m.nextSeq } ∧
      (u.core c).bwait = none ∧
      (u.mem c).queues = [] ∧ (u.mem c).stuck = [] ∧ (u.mem c).fetchTrap = none ∧ (u.mem c).fetch = { next := hl } ∧
      (u.mem c).trapcause = setBits cause 47 47 1 ∧ (u.mem c).trapline = m.lineAddr line ∧ (u.mem c).traplane = trapLane g e ∧
      (u.mem c).s = m.s ∧ (u.mem c).k = m.k ∧ (u.mem c).x = m.x ∧ (u.mem c).tiles = m.tiles ∧ (u.mem c).fpmode = m.fpmode ∧
      (u.mem c).status = .running ∧ (∀ k, k ≠ c → u.core k = s.core k) ∧ SameHome s u) ∧
    ((∀ hl, ¬ handled hl) → Leaves (.trapDelivery c) s (s1.haltMember c g line t e))) ∧
  (∀ (s : State) (c : Nat), s.pendingTrap c = none → Leaves (.trapDelivery c) s s)

/-- On a sequencer, an operand that names no context with a core on its die traps CTX_OPERAND. PREEMPT and PREEMPT.y of a context that neither runs nor
stops complete with STATE; else they start or join a stop, at once or at YIELDs, and stay issued at the head until the stop puts its status there,
with which they complete; a stop at YIELDs at once holds every core that stands still. RESUME completes with STATE unless every core of the arc here
is loaded with the context, and else the die becomes ready; when the last die is, and the context is BOUND or SAVED, it runs. RESUME.m, RESUME.skip
and RESUME.end complete with STATE unless the core that s[b] names holds a halted member of the context, and else let it go on, skip, or retire; s[b]
above 63 traps CTX_OPERAND. The member that RESUME.end retires first breaks the barriers that count it and has its writes performed. CTXMAP of an
entry that follows R341 writes it into the map and starts the invalidation whose end completes it; any other entry traps BARRIER_OPERAND. That the
member forms act on a held or loaded core as on a running one, that a core takes CTXCFG at RESUME, and that CTXMAP checks ADDR only when V = 1 are the
model's reading (log entry 32). (R393, R394, R396, R397, R383) -/
def Obligations.PreemptAndResume : Prop :=
  (∀ (s : State) (d a b : Nat), s.ctxArg a 256 = none → s.cur.ent.issued = false →
    Traps (.preempt d a) s { cause := 0xA5 } ∧ Traps (.preemptY d a) s { cause := 0xA5 } ∧ Traps (.resume d a) s { cause := 0xA5 } ∧
    Traps (.resumeM d a b) s { cause := 0xA5 } ∧ Traps (.resumeSkip d a b) s { cause := 0xA5 } ∧ Traps (.resumeEnd d a b) s { cause := 0xA5 }) ∧
  (∀ (s : State) (d a x : Nat), s.ctxArg a 256 = some x → s.cur.ent.issued = false →
    ((s.ctx x).state ≠ .running → (s.ctx x).stop = none → Puts (.preempt d a) s d 3 ∧ Puts (.preemptY d a) s d 3) ∧
    ((s.ctx x).state = .running ∨ (s.ctx x).stop ≠ none →
      RunsOn (.preempt d a) s (s.beginStop x { atOnce := true, waiters := [dieOf s.cur.core] }) ∧
      RunsOn (.preemptY d a) s { (s.beginStop x { atOnce := false, waiters := [dieOf s.cur.core] }).holdStill x with cur := s.cur })) ∧
  (∀ (s : State) (d a : Nat), s.cur.ent.issued = true →
    (s.cur.ent.opv = [] → RunsOn (.preempt d a) s s ∧ RunsOn (.preemptY d a) s s) ∧
    (∀ v r, s.cur.ent.opv = v :: r → Puts (.preempt d a) s d (BitVec.ofNat 64 v) ∧ Puts (.preemptY d a) s d (BitVec.ofNat 64 v))) ∧
  (∀ (s : State) (d a x : Nat), s.ctxArg a 256 = some x →
    let die := dieOf s.cur.core
    let cs := s.coresHere x die
    let s2 := (cs.foldl (fun s c => s.modCore c (fun y => { y with cfg := (s.ctx x).cfg })) s).modCtx x
      (fun c => { c with rdy := c.rdy ||| 2 ^ ((die + 8 - c.ad) % 8) })
    let go := (∀ c ∈ s2.arcCores x, bit (s2.ctx x).rdy ((dieOf c + 8 - (s2.ctx x).ad) % 8) = true) ∧
      ((s2.ctx x).state = .bound ∨ (s2.ctx x).state = .saved)
    ((∃ c ∈ cs, s.stands c x .loaded = false) → Puts (.resume d a) s d 3) ∧
    ((∀ c ∈ cs, s.stands c x .loaded = true) → go → Completes (.resume d a) s ((s2.runCtx x).putS d 0)) ∧
    ((∀ c ∈ cs, s.stands c x .loaded = true) → ¬ go → Completes (.resume d a) s (s2.putS d 0))) ∧
  (∀ (s : State) (d a b x : Nat), s.ctxArg a 256 = some x →
    let c := dieOf s.cur.core * 64 + (s.rs b).toNat
    let there := s.hasCtx c x = true ∧ (s.seat c).present = true ∧ (s.mem c).isHalted = true
    (64 ≤ (s.rs b).toNat → Traps (.resumeM d a b) s { cause := 0xA5 } ∧ Traps (.resumeSkip d a b) s { cause := 0xA5 } ∧
      Traps (.resumeEnd d a b) s { cause := 0xA5 }) ∧
    ((s.rs b).toNat < 64 → ¬ there → Puts (.resumeM d a b) s d 3 ∧ Puts (.resumeSkip d a b) s d 3 ∧ Puts (.resumeEnd d a b) s d 3) ∧
    ((s.rs b).toNat < 64 → there →
      Completes (.resumeM d a b) s ((s.goOn c false).putS d 0) ∧ Completes (.resumeSkip d a b) s ((s.goOn c true).putS d 0) ∧
      Completes (.resumeEnd d a b) s ((((s.breakBarriers c 0x92).release c true).retire c true).putS d 0))) ∧
  (∀ (s : State) (d a b : Nat), s.cur.ent.issued = false →
    (s.ctxArg a 65536 = none → Traps (.ctxmap d a b) s { cause := 0xA5 }) ∧
    (∀ x, s.ctxArg a 65536 = some x →
      let v := (s.rs b).toNat
      let ok := v < 2 ^ 33 ∧ (bit v 32 = true → bit v 31 = false ∧ bits v 21 20 = 0 ∧ v % 16 = 0)
      let n := (s.rs a).toNat / 256
      let l : Loc := { tgt := 0, pa := (s.ctx x).cdesc + 0x100 + 8 * n, key := s.key0, scope := 3 }
      (¬ ok → Traps (.ctxmap d a b) s { cause := 0x82 }) ∧
      (ok → RunsOn (.ctxmap d a b) s ((s.systemWrite s.cur.core l (leBytes 8 v)).invalidate
        { core := s.cur.core, kind := 4, ctx := x, arg := n, after := 1 })))) ∧
  (∀ (s : State) (d a b i : Nat) (v : Inval), s.cur.ent.issued = true → s.invalOf s.cur.core = some (i, v) →
    (v.acked = 255 → Completes (.ctxmap d a b) s (({ s with invals := tdel s.invals i } : State).putS d 0)) ∧
    (v.acked ≠ 255 → RunsOn (.ctxmap d a b) s s))

/-- On a sequencer, for a context with a core on its die: CTXSAVE completes with IDLE when no core here holds the context, BUSY when frame k of a holding
one is not EMPTY, STATE with the context FAULTED when an extension page fails, and else every holding core's image goes into its frame k and the core
becomes free. CTXLOAD completes with BUSY when a core here is not free, STATE for a FAULTED or DESTROYING context, a parked image or another context's
frame, STATE with the context FAULTED when an image does not verify, and else every core loads its image, or a state with every block ZERO and no
member. The park forms move images between frames and park places. Saving keeps everything the context had on the core, of the cask store and its
slots the context's own, and loading the frame gives the member back as it was. The image as the state it records and free CONTROL bytes (log entry
33), the extension's bytes and that CTXLOAD verifies them (log entry 34), and SAVED and PARKED at the last image (log entry 32) are the model's
choices. (R378, R382, R384, R385, R386, R395) -/
def Obligations.ContextImages : Prop :=
  (∀ (s : State) (d a k : Nat), s.ctxArg a 256 = none → Traps (.ctxsave d a k) s { cause := 0xA5 } ∧ Traps (.ctxsavePark d a k) s { cause := 0xA5 } ∧
    Traps (.ctxload d a k) s { cause := 0xA5 } ∧ Traps (.ctxloadUnpark d a k) s { cause := 0xA5 }) ∧
  (∀ (s : State) (d a k x : Nat), s.ctxArg a 256 = some x → k < 2 →
    let here := s.coresHere x (dieOf s.cur.core)
    let hold := here.filter (fun c => s.stands c x .holding)
    let framed := here.filter (fun c => (s.frame c k).any (fun m => m.ctx == x))
    let parked := here.filter (fun c => (tget (s.ctx x).parked (s.seatNo x c)).isSome)
    let images := here.filter (fun c => (s.frame c k).isSome)
    (hold = [] → Puts (.ctxsave d a k) s d 1) ∧
    (hold ≠ [] → (∃ c ∈ hold, (s.frame c k).isSome = true) → Puts (.ctxsave d a k) s d 2) ∧
    (∀ s1, hold ≠ [] → (∀ c ∈ hold, s.frame c k = none) →
      (s.extPages x hold .write false = (none, s1) → Completes (.ctxsave d a k) s ((s1.faultCtx x 0xB3).putS d 3)) ∧
      (∀ ps, s.extPages x hold .write false = (some ps, s1) →
        Completes (.ctxsave d a k) s ((((ps.foldl (fun s p => s.saveCore x k p.1 p.2) s1).savedNow x).refreshKernels).putS d 0))) ∧
    (framed = [] → Puts (.ctxsavePark d a k) s d 1) ∧
    (∀ s1, framed ≠ [] →
      (s.parkPages x framed .write = (none, s1) → Completes (.ctxsavePark d a k) s (s1.putS d 3)) ∧
      (∀ ps, s.parkPages x framed .write = (some ps, s1) →
        let struck := ∃ p ∈ ps, controlHit (s1.frameHits p.1 k) = true
        (struck → Completes (.ctxsavePark d a k) s (((ps.foldl (fun s p => s.noteFrame x p.1 k) s1).faultCtx x 0xB3).putS d 3)) ∧
        (¬ struck → Completes (.ctxsavePark d a k) s
          (((ps.foldl (fun s p => s.parkCore x k p.1 p.2) (here.foldl (fun s c => s.flushDeparted c x) s1)).modCtx x
            (fun c => { c with state := if c.state = .saved then .parked else c.state })).putS d 0)))) ∧
    ((∃ c ∈ here, (s.core c).status ≠ .free) → Puts (.ctxload d a k) s d 2) ∧
    ((∀ c ∈ here, (s.core c).status = .free) →
      ((s.ctx x).state = .faulted ∨ (s.ctx x).state = .destroying ∨ parked ≠ [] ∨ (∃ c ∈ here, ∃ m, s.frame c k = some m ∧ m.ctx ≠ x) →
        Puts (.ctxload d a k) s d 3) ∧
      ((s.ctx x).state ≠ .faulted → (s.ctx x).state ≠ .destroying → parked = [] → (∀ c ∈ here, ∀ m, s.frame c k = some m → m.ctx = x) → ∀ s1,
        (s.extPages x images .read true = (none, s1) → Completes (.ctxload d a k) s ((s1.faultCtx x 0xB3).putS d 3)) ∧
        (∀ es, s.extPages x images .read true = (some es, s1) →
          let good := ∀ e ∈ es, (∀ m, s1.frame e.1 k = some m →
            s1.verifies x (s1.seatNo x e.1) m.mac (controlBytes m.num) (s1.readPages e.2) = true) ∧
            controlHit (s1.frameHits e.1 k) = false ∧ s1.pagesHit e.2 = false
          (good → Completes (.ctxload d a k) s ((here.foldl (fun s c => s.loadCore x k c) s1).putS d 0)) ∧
          (¬ good → Completes (.ctxload d a k) s (((images.foldl (fun s c => s.noteFrame x c k) s1).faultCtx x 0xB3).putS d 3))))) ∧
    (parked = [] → Puts (.ctxloadUnpark d a k) s d 1) ∧
    (parked ≠ [] → (∃ c ∈ parked, (s.frame c k).isSome = true) → Puts (.ctxloadUnpark d a k) s d 2) ∧
    (∀ s1, parked ≠ [] → (∀ c ∈ parked, s.frame c k = none) →
      (s.parkPages x parked .read = (none, s1) → Completes (.ctxloadUnpark d a k) s (s1.putS d 3)) ∧
      (∀ ps, s.parkPages x parked .read = (some ps, s1) → ∀ s2,
        (s1.extPages x parked .read true = (none, s2) → Completes (.ctxloadUnpark d a k) s ((s2.faultCtx x 0xB3).putS d 3)) ∧
        (∀ es, s1.extPages x parked .read true = (some es, s2) →
          let imgs := s2.readParked x ps es
          ((∀ p ∈ imgs.1, p.2.2 = true) → Completes (.ctxloadUnpark d a k) s
            (((imgs.1.foldl (fun s p => s.unparkCore x k p) imgs.2).modCtx x
              (fun c => { c with state := if c.state = .parked ∧ c.parked = [] then .saved else c.state })).putS d 0)) ∧
          ((∃ p ∈ imgs.1, p.2.2 = false) → Completes (.ctxloadUnpark d a k) s ((imgs.2.faultCtx x 0xB3).putS d 3)))))) ∧
  (∀ (s : State) (x k c : Nat) (ls : List Loc), k < 2 → c < 512 →
    let t := s.saveCore x k c ls
    (t.core c).status = .free ∧ (∃ m, t.frame c k = some m ∧ m.ctx = x ∧ m.seat = (s.seat c).imaged x) ∧ (s.seat c).mem = ((s.seat c).imaged x).mem ∧
    ((s.seat c).imaged x).acc = (s.seat c).acc ∧
    (∀ p ∈ (s.seat c).slots, p ∈ ((s.seat c).imaged x).slots ↔ p.2.ctx = x) ∧
    (∀ b, b ≠ c → b ≠ s.cur.core → t.core b = s.core b) ∧ (t.core c).scratch = (s.core c).scratch) ∧
  (∀ (s : State) (x k c : Nat) (m : Image), s.frame c k = some m → s.frameHits c k = [] → ((s.die (dieOf c)).frames.map (·.1)).Pairwise (· < ·) →
    let t := s.loadCore x k c
    (t.core c).status = .loaded ∧ (t.core c).ctx = x ∧ t.frame c k = none ∧ t.mem c = m.seat.mem ∧ (t.seat c).present = m.seat.present ∧
    (t.seat c).live = m.seat.live ∧ (t.seat c).armed = m.seat.armed ∧ (t.seat c).copies = m.seat.copies ∧ ∀ b, b ≠ c → t.core b = s.core b)

/-- On a sequencer: each TLBINV form with operands within its limits drops what it covers from every translation cache and stays issued until the eighth
die has acknowledged, then completing with the dies that acknowledged by entering reset in s[d]; an operand out of its limit traps PAGE_OPERAND. Each
SLABFW form changes the descriptor in HBM as R323 states, drops it from the slab caches and completes with 0 when the eighth die has acknowledged; a
descriptor that is not in the state its form needs, or whose place is not found (its number not below SLABN, a failing walk, a page not in HBM),
completes with STATE (3) (log entry 21); and an operand out of its limit traps. PGPIN completes with 2 when no context runs on the core, 1 when it
holds 40 pages, the named one among them or not (log entry 42), and 0 when the page is PINNED and HELD; until then it runs on. PGUNPIN drops the hold
and completes with 0; its ev form then evicts a PINNED page and runs on until it is written back, or completes at once when the page is not there;
where no context runs PGUNPIN and its ev form complete with 0. That, what TADDR holds of a PAGE_OPERAND trap, and that an address of TLBINV.va with
bits [63:56] set traps it, are the model's choices (log entry 56). (R314, R316, R323, R324, R325) -/
def Obligations.PrivilegedPageInstructions : Prop :=
  (∀ (s : State) (d a b : Nat), s.cur.ent.issued = false →
    let A := (s.rs a).toNat
    let X := (s.rs b).toNat
    let made := X < 256 ∧ (s.ctx X).state ≠ .free
    let go := fun (i : Instr) kind x arg => RunsOn i s (s.invalidate { core := s.cur.core, kind := kind, ctx := x, arg := arg })
    (made → A < 2 ^ 56 → go (.tlbinvVa d a b) 0 X A) ∧ (¬ (made ∧ A < 2 ^ 56) → Traps (.tlbinvVa d a b) s { cause := 0x27, taddr := A }) ∧
    (made → go (.tlbinvCtx d b) 1 X 0) ∧ (¬ made → Traps (.tlbinvCtx d b) s { cause := 0x27, taddr := 0 }) ∧
    (made → A < 4096 → go (.tlbinvSlab d a b) 2 X A) ∧ (¬ (made ∧ A < 4096) → Traps (.tlbinvSlab d a b) s { cause := 0x27, taddr := A }) ∧
    go (.tlbinvAll d) 3 0 0) ∧
  (∀ (s : State) (d a b j : Nat) (v : Inval) (i : Instr), s.cur.ent.issued = true → s.invalOf s.cur.core = some (j, v) →
    (i ∈ [.tlbinvVa d a b, .tlbinvCtx d b, .tlbinvSlab d a b, .tlbinvAll d] →
      (v.acked = 255 → Completes i s (({ s with invals := tdel s.invals j } : State).putS d (BitVec.ofNat 64 v.resets))) ∧
      (v.acked ≠ 255 → RunsOn i s s)) ∧
    (i ∈ [.slabfwSt d a b, .slabfwMw d a b, .slabfwEnd d a] →
      (v.acked = 255 → Completes i s (({ s with invals := tdel s.invals j } : State).putS d 0)) ∧ (v.acked ≠ 255 → RunsOn i s s))) ∧
  (∀ (s s1 : State) (d a b : Nat) (l : Loc), s.cur.ent.issued = false →
    let A := (s.rs a).toNat
    let B := (s.rs b).toNat
    let x := A / 4096
    let made := A < 2 ^ 20 ∧ (s.ctx x).state ≠ .free
    let r := s1.descRead s.cur.core x ((s.ctx x).slabt + 32 * (A % 4096)) l
    let D := r.1
    let wr := fun (i : Instr) (D' : Nat) => RunsOn i s ((r.2.systemWrite s.cur.core l (leBytes 32 D')).invalidate
      { core := s.cur.core, kind := 2, ctx := x, arg := A % 4096, after := 1 })
    let st := slabKind D = 1 ∧ slabFwd D = false ∧ slabLcap D < 30
    let mw := slabFwd D = true ∧ bits D 191 160 ≤ B ∧ B ≤ 2 ^ slabLcap D / 2
    let en := slabFwd D = true ∧ bits D 191 160 = 2 ^ slabLcap D / 2
    (¬ made → Traps (.slabfwSt d a b) s { cause := 0x27, taddr := A } ∧ Traps (.slabfwMw d a b) s { cause := 0x27, taddr := A } ∧
      Traps (.slabfwEnd d a) s { cause := 0x27, taddr := A }) ∧
    (B % 64 ≠ 0 → Traps (.slabfwSt d a b) s { cause := 0x27, taddr := A }) ∧
    (made → s.slabPlace s.cur.core x (A % 4096) = (some l, s1) →
      (B % 64 = 0 → st → ∃ D', wr (.slabfwSt d a b) D' ∧ bits D' 63 0 = B ∧ bits D' 127 64 = bits D 63 0 ∧ bits D' 159 128 = bits D 159 128 ∧
        bits D' 191 160 = 0 ∧ slabLcap D' = slabLcap D + 1 ∧ slabFwd D' = true ∧ slabKind D' = slabKind D) ∧
      (B % 64 = 0 → ¬ st → Completes (.slabfwSt d a b) s (r.2.putS d 3)) ∧
      (mw → wr (.slabfwMw d a b) (setBits D 191 160 B)) ∧ (¬ mw → Completes (.slabfwMw d a b) s (r.2.putS d 3)) ∧
      (en → wr (.slabfwEnd d a) (setBits D 204 204 0)) ∧ (¬ en → Completes (.slabfwEnd d a) s (r.2.putS d 3)))) ∧
  (∀ (s s1 : State) (d a b : Nat), s.cur.ent.issued = false → (s.rs a).toNat < 2 ^ 20 → (s.ctx ((s.rs a).toNat / 4096)).state ≠ .free →
    s.slabPlace s.cur.core ((s.rs a).toNat / 4096) ((s.rs a).toNat % 4096) = (none, s1) →
    ((s.rs b).toNat % 64 = 0 → Completes (.slabfwSt d a b) s (s1.putS d 3)) ∧ Completes (.slabfwMw d a b) s (s1.putS d 3) ∧
    Completes (.slabfwEnd d a) s (s1.putS d 3)) ∧
  (∀ (s s1 : State) (c x n : Nat) (r : Option Loc), s.slabPlace c x n = (r, s1) →
    ((s.ctx x).slabn ≤ n → r = none) ∧ (∀ l, r = some l → l.tgt = 0)) ∧
  (∀ (s : State) (d a b : Nat), s.cur.ent.issued = false → 512 ≤ s.cur.core →
    let w := (s.cur.core - 512) * 64 + (s.rs a).toNat
    let page := (s.rs b).toNat
    let bad : Trap := { cause := 0x27, taddr := (s.rs a).toNat }
    let pinned := s.modCore w (fun x => x.pinPage page s.ptc)
    (¬ ((s.rs a).toNat < 64 ∧ page < 256) → Traps (.pgpin d a b) s bad ∧ Traps (.pgunpin d a b) s bad ∧ Traps (.pgunpinEv d a b) s bad) ∧
    ((s.rs a).toNat < 64 → page < 256 →
      ((s.core w).status ≠ .running → Puts (.pgpin d a b) s d 2 ∧ Puts (.pgunpin d a b) s d 0 ∧ Puts (.pgunpinEv d a b) s d 0) ∧
      ((s.core w).status = .running →
        (40 ≤ (s.core w).heldPages → Puts (.pgpin d a b) s d 1) ∧
        ((s.core w).heldPages < 40 →
          ((pinned.core w).pinnedHeld page = true → Completes (.pgpin d a b) s (pinned.putS d 0)) ∧
          ((pinned.core w).pinnedHeld page = false →
            RunsOn (.pgpin d a b) s (pinned.modEnt (fun e => { e with opv := [s.ctxOn w, w, page] })))) ∧
        Completes (.pgunpin d a b) s ((s.modCore w (fun x => x.unpinPage page)).putS d 0) ∧
        ((s.core w).spage page = none → Completes (.pgunpinEv d a b) s ((s.modCore w (fun x => x.unpinPage page)).putS d 0)) ∧
        (∀ k p, (s.core w).spage page = some (k, p) → p.state = .pinned → ((s.core w).pages.map (·.1)).Pairwise (· < ·) →
          let pending := page ∈ ((s.modCore w (fun x => x.unpinPage page)).core w).pendingPages
          let due := if p.dirty = [] then 0 else s.ptc + 2000 + p.dirty.length
          (pending → RunsOn (.pgunpinEv d a b) s ((s.modCore w (fun x => x.unpinPage page)).modEnt (fun e => { e with opv := [0, w, page] }))) ∧
          (¬ pending → ∃ t, RunsOn (.pgunpinEv d a b) s t ∧
            tget (t.core w).pages k = some { p with held := false, pin := false, state := .writingBack, due := due }))))) ∧
  (∀ (v : Inval) (s : State) (c : Nat) (t : TlbEnt), t ∈ ((s.invalidate v).core c).tlb → t ∈ (s.core c).tlb ∧
    (v.kind = 0 → ¬ (t.ctx = v.ctx ∧ t.va = v.arg / 2 ^ (12 + 9 * t.lvl))) ∧ (v.kind = 1 → t.ctx ≠ v.ctx) ∧ v.kind ≠ 3)

/-- An atomic whose s[a] lies below 2^32, names a place under R27 and is a multiple of the width is presented to the owning port when the core's place is
free (its operands read at issue), and waits unissued while it is not; else it traps ACC_RANGE, the cause of R27, or ALIGN. When the port has
answered, PORT_REPLY frees the place, writes the old value, extended by its type, into the register that the instruction names (.n32 and .f32
zero-extended, .i32 sign-extended) and makes the post; when the port refused, the CE stops at the instruction, marked issued, with the port's cause.
Under STRICT the reply is not before its time, which is 640 clocks after issue at the own port, 1.5 us on the die and 3 us beyond it, and later it
counts STRICTMISS. When padding ends, and what lateness counts (a clock's tolerance), are the model's reading (log entry 50). (R262, R264, R265, R266,
R27, R32) -/
def Obligations.AtomicsIssueAndReply : Prop :=
  (∀ (s : State) (d a b c t : Nat), t < 5 →
    let A := (s.rs a).toNat
    let place := s.accPlace s.cur.core (s.xctx s.cur.core) A
    let free := (s.core s.cur.core).port = none ∧ (s.core s.cur.core).bwait = none
    let B := (s.rs b).toNat
    let all : (Instr → Nat → Nat → Nat → Prop) → Prop := fun P =>
      P (.atadd d a b t) 0x70 B 0 ∧ P (.atmax d a b t) 0x71 B 0 ∧ P (.atmin d a b t) 0x72 B 0 ∧ P (.atxchg d a b t) 0x73 B 0 ∧
      P (.atcas d a b t c) 0x74 B (s.rs c).toNat ∧ P (.atincnz d a t) 0x75 0 0 ∧ P (.atdec d a t) 0x76 0 0
    (∀ w off, A < 2 ^ 32 → place = .ok (w, off) → A % (atomicWidth t / 8) = 0 → free → all (fun i op x y =>
      exec i s = .next ((s.modCore s.cur.core (fun k => { k with port := some { owner := w, off := off, addr := A, op := .atomic op t x y, ent := { s.padEntry (portDelay s.cur.core w) s.cur.ent with issued := true } } })).finish .gone))) ∧
    (∀ w off, A < 2 ^ 32 → place = .ok (w, off) → A % (atomicWidth t / 8) = 0 → ¬ free → all (fun i _ _ _ => Waits i s)) ∧
    (2 ^ 32 ≤ A → all (fun i _ _ _ => Traps i s { cause := 0x12, taddr := A })) ∧
    (∀ cause, A < 2 ^ 32 → place = .error cause → all (fun i _ _ _ => Traps i s { cause := cause, taddr := A })) ∧
    (∀ w off, A < 2 ^ 32 → place = .ok (w, off) → A % (atomicWidth t / 8) ≠ 0 → all (fun i _ _ _ => Traps i s { cause := 0x13, taddr := A }))) ∧
  (∀ (s : State) (c : Nat) (r : PortReq), (s.core c).port = some r → r.done = true → r.isBwait = false →
    let d := bits ((r.ent.lanes.headD 0).toNat) 24 19
    (s.padOver c r.ent = none → Leaves (.portReply c) s s) ∧
    (∀ s1, s.padOver c r.ent = some s1 →
    let s2 := s1.modCore c (fun x => { x with port := none })
    (r.trap = 0 →
      (∀ op t b k, r.op = .atomic op t b k → Leaves (.portReply c) s (s2.modMem c (fun m =>
        (m.putS d (if t = 1 then (BitVec.ofNat 32 r.result).signExtend 64 else BitVec.ofNat 64 r.result)).postPrefix 1 r.ent.pfx))) ∧
      (∀ v u, r.op = .binit v u → Leaves (.portReply c) s (s2.modMem c (fun m =>
        (m.putS (bits ((r.ent.lanes.headD 0).toNat) 18 13) (BitVec.ofNat 64 r.result)).postPrefix 1 r.ent.pfx))) ∧
      (r.op = .barv ∨ r.op = .bdrop ∨ r.op = .binval ∨ (∃ v, r.op = .btime v) →
        Leaves (.portReply c) s (s2.modMem c (fun m => m.postPrefix 1 r.ent.pfx)))) ∧
    (r.trap ≠ 0 → Leaves (.portReply c) s (s2.modMem c (fun m =>
      (m.setQ 1 (r.ent :: m.q 1)).stop 1 { cause := r.trap, taddr := if r.trap / 16 = 1 then r.off else 0 }))))) ∧
  (∀ (s : State) (c : Nat) (e : Entry),
    (s.strict c = false ∨ (e.pad = 0 ∧ e.clk = 0) → s.padOver c e = some s) ∧
    (s.strict c = true → e.pad ≠ 0 ∨ e.clk ≠ 0 →
      (s.ptc < e.pad ∨ s.power.mclk < e.clk → s.padOver c e = none) ∧
      (e.pad ≤ s.ptc → e.clk ≤ s.power.mclk → s.padOver c e =
        some (if e.pad < s.ptc ∧ (e.clk = 0 ∨ e.clk + clockMhz s.power.point ≤ s.power.mclk) then s.strictMiss c else s)))) ∧
  (∀ (s : State) (c w : Nat) (e : Entry), w ≠ c →
    s.padEntry (portDelay c c) e = { e with t0 := s.ptc, pad := 0, clk := s.power.mclk + 640000 } ∧
    s.padEntry (portDelay c w) e = { e with t0 := s.ptc, pad := s.ptc + (if dieOf w = dieOf c then 1500 else 3000), clk := 0 }) ∧
  (∀ (d a b t c : Nat), d < 64 → a < 64 → b < 64 → t < 5 → c < 64 →
    ∀ i ∈ [Instr.atadd d a b t, .atmax d a b t, .atmin d a b t, .atxchg d a b t, .atcas d a b t c, .atincnz d a t, .atdec d a t],
      bits (((encode i).headD 0).toNat) 24 19 = d)

/-- PORT_OPERATION of an atomic on a word that is no armed barrier word replaces that word by the value of R263 and answers with the old one, in one step;
every other byte of the accumulator SRAM, every other part of the owning core and every core but those two stay. On integer types the new word is the
sum mod 2^w, the larger, the smaller, B, C when W = B, one more while unmarked and below 2^(w-1) - 1, one less while unmarked and not zero. On an
armed barrier word the port refuses with BARRIER_STORE and nothing changes there; a port whose die does not answer performs nothing and answers 0.
(R243, R244, R246, R263, R264, R343, R409) -/
def Obligations.PortPerformsAtomics : Prop :=
  (∀ (s : State) (c op t b k : Nat) (r : PortReq), (s.core c).port = some r → r.done = false → r.op = .atomic op t b k →
    (s.seat r.owner).acc.wf = true → t < 5 →
    let n := atomicWidth t / 8
    let old := s.accNat r.owner r.off n
    (s.reaches (dieOf c) (dieOf r.owner) = true → (s.seat r.owner).isArmed r.off n = false → s.accHit r.owner r.off n = false → ∃ u, Leaves (.portOperation c) s u ∧
      u.accNat r.owner r.off n = atomicNew op t old b k % 2 ^ atomicWidth t ∧
      (∀ o, o < r.off ∨ r.off + n ≤ o → mget (u.seat r.owner).acc o = mget (s.seat r.owner).acc o) ∧
      (u.core c).port = some { r with done := true, result := old, trap := 0 } ∧
      (∀ x, u.mem x = s.mem x) ∧ (∀ x, (u.seat x).armed = (s.seat x).armed) ∧ (∀ x, x ≠ c → x ≠ r.owner → u.core x = s.core x) ∧ SameBeyondCores s u) ∧
    (s.reaches (dieOf c) (dieOf r.owner) = false → ∃ u, Leaves (.portOperation c) s u ∧ (∀ x, (u.seat x).acc = (s.seat x).acc) ∧
      (u.core c).port = some { r with done := true, result := 0, trap := 0 }) ∧
    (s.reaches (dieOf c) (dieOf r.owner) = true → (s.seat r.owner).isArmed r.off n = true → ∃ u, Leaves (.portOperation c) s u ∧ (∀ x, u.seat x = s.seat x) ∧
      (u.core c).port = some { r with done := true, result := 0, trap := 0x80 })) ∧
  (∀ (t w b c : Nat), t < 5 → t ≠ 2 → w < 2 ^ atomicWidth t → b < 2 ^ 64 →
    let W := atomicWidth t
    let B := b % 2 ^ W
    let less := fun x y : Nat => if t = 1 ∨ t = 4 then toSigned W x < toSigned W y else x < y
    let marked := 2 ^ (W - 1) ≤ w
    atomicNew 0x70 t w b c = (w + B) % 2 ^ W ∧
    (less w B → atomicNew 0x71 t w b c = B ∧ atomicNew 0x72 t w b c = w) ∧ (¬ less w B → atomicNew 0x71 t w b c = w) ∧
    (less B w → atomicNew 0x72 t w b c = B) ∧
    atomicNew 0x73 t w b c = B ∧
    (w = B → atomicNew 0x74 t w b c = c % 2 ^ W) ∧ (w ≠ B → atomicNew 0x74 t w b c = w) ∧
    (¬ marked → w < 2 ^ (W - 1) - 1 → atomicNew 0x75 t w b c = w + 1) ∧ (marked ∨ w = 2 ^ (W - 1) - 1 → atomicNew 0x75 t w b c = w) ∧
    (¬ marked → w ≠ 0 → atomicNew 0x76 t w b c = w - 1) ∧ (marked ∨ w = 0 → atomicNew 0x76 t w b c = w))

/-- A barrier instruction whose map entry is valid and names a pair is presented to the owning port when the core's place is free and waits while it is
not; BARV and BDROP first release at SYSTEM scope; BWAIT presents its request while it stays unissued, and again where another BWAIT stands
registered. A map entry with V = 0 or a reserved bit traps BARRIER_MAP, an address that fails R27 its cause, an OFFSET that is no multiple of 16
ALIGN, and a BINIT operand against R348 BARRIER_OPERAND. With its outcome BWAIT completes: it writes (G << 16) | (CAUSE << 8) | status into s[d] and
acquires; while it waits it stays unissued. Under STRICT an answer that stood at the port returns when a port operation's time is over, and the
sectors that BARV and BDROP write back count (the longer of the two times: the model's reading, log entry 25). BWAIT_NOTIFICATION hands a registered
BWAIT its outcome. (R341, R347, R348, R349, R350) -/
def Obligations.BarrierInstructionsIssue : Prop :=
  (∀ (s s1 : State) (d a n x e w off : Nat), s.barrierCtx = .ok x → s.mapEntry (dieOf s.cur.core) x n = (e, s1) →
    s1.barrierPlace s.cur.core x e = .ok (w, off) →
    let c := s.cur.core
    let free := (s1.core s1.cur.core).port = none ∧ (s1.core s1.cur.core).bwait = none
    let put := fun (t : State) (sectors : Nat) (op : PortOp) =>
      ((t.modCore t.cur.core (fun k => { k with port := some { owner := w, off := off, addr := t.accAddr t.cur.core (t.barCtx t.cur.core) w off, op := op, ent := { t.padEntry (strictDelay t.cur.core w sectors) t.cur.ent with issued := true }, bar := n } })).finish .gone)
    let v := (s1.rs a).toNat
    let waits := fun i => exec i s = .next (s1.finish .wait)
    (free → s1.binitOk v = true → exec (.binit a n) s = .next (put s1 0 (.binit v 0))) ∧
    (s1.binitOk v = false → exec (.binit a n) s = .next (s1.finish (.trap { cause := 0x82 }))) ∧
    (free →
      exec (.barv n) s = .next (put (s1.release s1.cur.core true) s1.dirtySectors .barv) ∧
      exec (.bdrop n) s = .next (put (s1.release s1.cur.core true) s1.dirtySectors .bdrop)) ∧
    (free → exec (.binval n) s = .next (put s1 0 .binval) ∧ exec (.btime a n) s = .next (put s1 0 (.btime v))) ∧
    (¬ free → (s1.binitOk v = true → waits (.binit a n)) ∧ waits (.barv n) ∧ waits (.bdrop n) ∧ waits (.binval n) ∧ waits (.btime a n)) ∧
    ((s.core c).port = none → (∀ r, (s.core c).bwait = some r → r.bar ≠ n) →
      let r := s1.cm.bar n
      exec (.bwait d n) s = .next ((s1.modCore c (fun k => { k with bwait := none, port := some { owner := w, off := off, addr := s1.accAddr c (s1.barCtx c) w off, op := .bwait (if r.a = true ∨ r.c = true then some r.g else none) (r.a && r.l), ent := s1.padEntry (portDelay c w) s1.cur.ent, bar := n } })).finish .wait))) ∧
  (∀ (s s1 : State) (d a n x e cause : Nat), s.barrierCtx = .ok x → s.mapEntry (dieOf s.cur.core) x n = (e, s1) →
    s1.barrierPlace s.cur.core x e = .error cause →
    let t := s1.finish (.trap { cause := cause, taddr := if cause / 16 = 1 then e % 2 ^ 32 else 0 })
    exec (.binit a n) s = .next t ∧ exec (.barv n) s = .next t ∧ exec (.bdrop n) s = .next t ∧ exec (.binval n) s = .next t ∧ exec (.btime a n) s = .next t ∧
    ((s.core s.cur.core).port = none → (∀ r, (s.core s.cur.core).bwait = some r → r.bar ≠ n) → exec (.bwait d n) s = .next t)) ∧
  (∀ (s : State) (d a n cause : Nat), s.barrierCtx = .error cause → (s.core s.cur.core).port = none → (∀ r, (s.core s.cur.core).bwait = some r → r.bar ≠ n) →
    let t : Trap := { cause := cause }
    Traps (.binit a n) s t ∧ Traps (.barv n) s t ∧ Traps (.bdrop n) s t ∧ Traps (.binval n) s t ∧ Traps (.btime a n) s t ∧ Traps (.bwait d n) s t) ∧
  (∀ (s : State) (c x e : Nat), c < 512 →
    (bit e 32 = false ∨ 2 ^ 33 ≤ e ∨ bit e 31 = true → s.barrierPlace c x e = .error 0x81) ∧
    (bit e 32 = true → e < 2 ^ 33 → bit e 31 = false →
      (∀ cause, s.accPlace c x (e % 2 ^ 32) = .error cause → s.barrierPlace c x e = .error cause) ∧
      (∀ w off, s.accPlace c x (e % 2 ^ 32) = .ok (w, off) → s.barrierPlace c x e = if off % 16 = 0 then .ok (w, off) else .error 0x13))) ∧
  (∀ (s : State) (v : Nat), isSeq s.cur.core = false →
    let u := if bit v 17 then (s.groupCores s.cur.core).length else 0
    s.binitOk v = true ↔ bits v 63 20 = 0 ∧ bit v 16 = false ∧ 1 ≤ v % 65536 + u ∧ v % 65536 + u ≤ 65535) ∧
  (∀ (s : State) (d n : Nat) (r : PortReq) (g : Option Nat) (late : Bool), (s.core s.cur.core).port = some r → r.op = .bwait g late →
    let c := s.cur.core
    (r.done = false → Waits (.bwait d n) s) ∧
    (r.done = true → s.padOver c r.ent = none → Waits (.bwait d n) s) ∧
    (∀ s0, r.done = true → s.padOver c r.ent = some s0 →
      let s1 := s0.modCore c (fun x => { x with port := none })
      (r.trap = 0 → Completes (.bwait d n) s ((s1.acquire c).putS d (BitVec.ofNat 64 r.result))) ∧
      (r.trap ≠ 0 → exec (.bwait d n) s = .next (s1.finish (.trapIssued { cause := r.trap }))))) ∧
  (∀ (s : State) (d n : Nat) (r : BWaitReg), (s.core s.cur.core).port = none → (s.core s.cur.core).bwait = some r → r.bar = n → Waits (.bwait d n) s) ∧
  (∀ (s : State) (c v t : Nat) (r : BWaitReg), (s.core c).bwait = some r → r.result = some (v, t) → s.strict c = false →
    Leaves (.bwaitNotification c) s (s.modCore c (fun x => { x with bwait := none, port := some { owner := r.owner, off := r.off, op := .bwait (some r.gen) r.late, ent := {}, bar := r.bar, done := true, result := v } })))

/-- On BCTL: BINIT of an ARMED pair answers BUSY and leaves it, and of any other pair arms the next generation with PREV the outcome left behind, nothing
arrived, SHORT, DROPS and CAUSE 0. An arrival at an ARMED pair adds one to ARRIVED and completes it when its TMODE condition holds, with SHORT when
fewer arrived than expected; at a COMPLETE pair it is late and, as at a BROKEN or DEAD one, counts in DROPS up to 127; at a FREE one it is refused.
BWAIT finds its generation ARMED and waits, COMPLETE (LATE, OK or SHORT), BROKEN or DEAD with CAUSE, followed by the next generation (PREV), or STALE.
On a pair that answers and that no error strikes, PORT_OPERATION applies these to the pair and writes the member's record whatever STATE it finds;
BINVAL keeps all of BCTL but STATE and CAUSE, which becomes 0 (log entry 31), disarms the pair and gives its waiters CAUSE 0; BARRIER_DEADLINE
completes an ARMED pair whose condition PTC meets. (R342, R344, R345, R346, R348, R349, R350, R351) -/
def Obligations.BarrierPairAtThePort : Prop :=
  (∀ b v e : Nat, b < 2 ^ 64 → e < 2 ^ 16 →
    (bState b = 1 → bInit b v e = none) ∧
    (bState b ≠ 1 → ∃ b', bInit b v e = some b' ∧ bState b' = 1 ∧ bMode b' = bits v 19 18 ∧ bGen b' = (bGen b + 1) % 256 ∧ bExpect b' = e ∧
      bArrived b' = 0 ∧ bShort b' = false ∧ bDrops b' = 0 ∧ bCause b' = 0 ∧
      bPrev b' = (if bState b = 2 then (if bShort b then 1 else 0) else if bState b = 3 then 3 else if bState b = 4 then 4 else 5))) ∧
  (∀ b dead t : Nat, b < 2 ^ 64 →
    let met := fun (n : Nat) => (bMode b = 0 ∧ bExpect b ≤ n) ∨ (bMode b = 1 ∧ bExpect b ≤ n ∧ dead ≤ t) ∨
      (bMode b = 2 ∧ (bExpect b ≤ n ∨ dead ≤ t)) ∨ (bMode b = 3 ∧ dead ≤ t)
    let b' := (bArrive b dead t).1
    (bState b = 1 → bArrived b < 65535 → (bArrive b dead t).2 = (false, false) ∧ bArrived b' = bArrived b + 1 ∧ bGen b' = bGen b ∧
      bExpect b' = bExpect b ∧ bDrops b' = bDrops b ∧
      (met (bArrived b + 1) → bState b' = 2 ∧ (bShort b' = true ↔ bArrived b + 1 < bExpect b)) ∧ (¬ met (bArrived b + 1) → bState b' = 1)) ∧
    (bState b = 2 ∨ bState b = 3 ∨ bState b = 4 → (bArrive b dead t).2 = (decide (bState b = 2), false) ∧
      b' / 128 = b / 128 ∧ bDrops b' = min (bDrops b + 1) 127) ∧
    (bState b = 0 ∨ 4 < bState b → bArrive b dead t = (b, false, true)) ∧
    (bState b = 1 → met (bArrived b) → bState (bSettle b dead t) = 2) ∧ (¬ (bState b = 1 ∧ met (bArrived b)) → bSettle b dead t = b)) ∧
  (∀ (b g : Nat) (late : Bool), b < 2 ^ 64 →
    (bGen b = g → bState b = 1 → bwaitOutcome b g late = none) ∧
    (bGen b = g → bState b = 2 → bwaitOutcome b g late = some (some (if late then 2 else if bShort b then 1 else 0, bCause b))) ∧
    (bGen b = g → bState b = 3 ∨ bState b = 4 → bwaitOutcome b g late = some (some (bState b, bCause b))) ∧
    (bGen b = g → bState b = 0 ∨ 4 < bState b → bwaitOutcome b g late = some none) ∧
    (bGen b = (g + 1) % 256 → g < 256 → bwaitOutcome b g late = some (some (bPrev b, 0))) ∧
    (bGen b ≠ g → bGen b ≠ (g + 1) % 256 → bwaitOutcome b g late = some (some (5, 0))) ∧ bwaitWord g 4 0 = g * 2 ^ 16 + 4) ∧
  (∀ (s : State) (c : Nat) (r : PortReq), (s.core c).port = some r → r.done = false → s.accHit r.owner r.off 16 = false → s.reaches (dieOf c) (dieOf r.owner) = true →
    (s.seat r.owner).acc.wf = true → r.off % 16 = 0 → r.off + 16 ≤ 2 ^ 20 →
    let b := s.bctl r.owner r.off
    let dead := s.bdead r.owner r.off
    let answered := fun (u : State) (v trap : Nat) => (u.core c).port = some { r with done := true, result := v, trap := trap }
    (∀ v z, r.op = .binit v z → bit v 17 = false → v % 65536 < 2 ^ 16 →
      (bState b = 1 → ∃ u, Leaves (.portOperation c) s u ∧ answered u 1 0 ∧ ∀ x, u.seat x = s.seat x) ∧
      (bState b ≠ 1 → ∃ u, Leaves (.portOperation c) s u ∧ answered u 0 0 ∧ bInit b v (v % 65536) = some (u.bctl r.owner r.off) ∧
        u.bdead r.owner r.off = 2 ^ 64 - 1 ∧ r.off ∈ (u.seat r.owner).armed)) ∧
    (r.op = .barv → ∃ u, Leaves (.portOperation c) s u ∧ (u.mem c).bar r.bar = { c := false, a := true, l := (bArrive b dead s.ptc).2.1, g := bGen b } ∧
      ((bArrive b dead s.ptc).2.2 = false → answered u 0 0 ∧ u.bctl r.owner r.off = (bArrive b dead s.ptc).1) ∧
      ((bArrive b dead s.ptc).2.2 = true → answered u 0 0x83 ∧ u.bctl r.owner r.off = b)) ∧
    (r.op = .bdrop → ∃ u, Leaves (.portOperation c) s u ∧ ((u.mem c).bar r.bar).c = false ∧ ((u.mem c).bar r.bar).a = false ∧
      ((bArrive b dead s.ptc).2.2 = false → answered u 0 0 ∧ u.bctl r.owner r.off = (bArrive b dead s.ptc).1) ∧
      ((bArrive b dead s.ptc).2.2 = true → answered u 0 0x83 ∧ u.bctl r.owner r.off = b)) ∧
    (∀ g late, r.op = .bwait (some g) late →
      (bwaitOutcome b g late = none → ∃ u, Leaves (.portOperation c) s u ∧ (u.core c).port = none ∧
        (u.core c).bwait = some { owner := r.owner, off := r.off, gen := g, late := late, bar := r.bar }) ∧
      (bwaitOutcome b g late = some none → ∃ u, Leaves (.portOperation c) s u ∧ answered u 0 0x83) ∧
      (∀ st cause, bwaitOutcome b g late = some (some (st, cause)) →
        ∃ u, Leaves (.portOperation c) s u ∧ answered u (g * 65536 + cause * 256 + st) 0)) ∧
    (r.op = .binval → ∃ u, Leaves (.portOperation c) s u ∧ answered u 0 0 ∧ bCause (u.bctl r.owner r.off) = 0 ∧
      u.bctl r.owner r.off % 2 ^ 48 = b % 2 ^ 48 ∧ bits (u.bctl r.owner r.off) 60 56 = bits b 60 56 ∧ r.off ∉ (u.seat r.owner).armed ∧
      (∀ x w, (s.core x).bwait = some w → w.owner = r.owner → w.off = r.off → w.result = none → bState b = 1 → w.gen = bGen b →
        (u.core x).bwait = some { w with result := some (w.gen * 65536 + 4, s.ptc) }))) ∧
  (∀ (s : State) (c off : Nat), (s.seat c).acc.wf = true →
    (off ∈ (s.seat c).armed → s.accHit c off 16 = false → ∃ u, Leaves (.barrierDeadline c off) s u ∧ u.bctl c off = bSettle (s.bctl c off) (s.bdead c off) s.ptc % 2 ^ 64) ∧
    (off ∉ (s.seat c).armed → Leaves (.barrierDeadline c off) s s))

/-- At a port whose die answers, on a pair that no uncorrectable error strikes: PORT_OPERATION of a BINVAL makes the barrier DEAD whatever its state,
keeping GEN, and gives every BWAIT registered there for its generation the status DEAD; an arrival at a DEAD barrier is discarded and counted in
DROPS, and a BINIT arms it again, while a BINIT of an ARMED one is BUSY and changes nothing. PORT_OPERATION of a BTIME on an ARMED barrier sets
DEADLINE to the operand and then completes the barrier when its condition holds, so that a passed deadline completes a BY or ON barrier, and one of
TMODE 0 only keeps the deadline; on any other state it traps BARRIER_STATE, the barrier unchanged. (R351, R352) -/
def Obligations.BinvalAndBtime : Prop :=
  (∀ (s : State) (c : Nat) (r : PortReq), (s.core c).port = some r → r.done = false → r.op = .binval → s.accHit r.owner r.off 16 = false →
    s.reaches (dieOf c) (dieOf r.owner) = true → (s.seat r.owner).acc.wf = true →
    ∃ u, Leaves (.portOperation c) s u ∧ (u.core c).port = some { r with done := true, result := 0, trap := 0 } ∧
      bState (u.bctl r.owner r.off) = 4 ∧ bGen (u.bctl r.owner r.off) = bGen (s.bctl r.owner r.off) ∧
      (∀ x w, (s.core x).bwait = some w → w.owner = r.owner → w.off = r.off → w.result = none → bState (s.bctl r.owner r.off) = 1 →
        w.gen = bGen (s.bctl r.owner r.off) →
        ∃ v, (u.core x).bwait = some { w with result := some (v, s.ptc) } ∧ v / 65536 = w.gen ∧ v % 256 = 4)) ∧
  (∀ b dead t : Nat, b < 2 ^ 64 → bState b = 4 → (bArrive b dead t).2 = (false, false) ∧ bState (bArrive b dead t).1 = 4 ∧
    bDrops (bArrive b dead t).1 = min (bDrops b + 1) 127) ∧
  (∀ b v e : Nat, b < 2 ^ 64 → e < 2 ^ 16 → (bState b = 4 → ∃ b', bInit b v e = some b' ∧ bState b' = 1) ∧ (bState b = 1 → bInit b v e = none)) ∧
  (∀ (s : State) (c v : Nat) (r : PortReq), (s.core c).port = some r → r.done = false → r.op = .btime v → s.accHit r.owner r.off 16 = false →
    s.reaches (dieOf c) (dieOf r.owner) = true →
    (s.seat r.owner).acc.wf = true → v < 2 ^ 64 →
    let b := s.bctl r.owner r.off
    (bState b = 1 → ∃ u, Leaves (.portOperation c) s u ∧ (u.core c).port = some { r with done := true, result := 0, trap := 0 } ∧
      u.bdead r.owner r.off = v ∧ u.bctl r.owner r.off = bSettle b v s.ptc ∧
      (v ≤ s.ptc → bMode b = 2 ∨ bMode b = 3 → bState (u.bctl r.owner r.off) = 2) ∧
      (bMode b = 0 → bArrived b < bExpect b → u.bctl r.owner r.off = b)) ∧
    (bState b ≠ 1 → ∃ u, Leaves (.portOperation c) s u ∧ (u.core c).port = some { r with done := true, result := 0, trap := 0x83 } ∧ ∀ x, u.seat x = s.seat x))

/-- Each element-wise arithmetic, logical, shift and complex instruction, on a shape whose type its class admits, writes the value of its element function
into every unit of tile d that is in the shape and that mask m admits, sources read before anything is written; all other bits of all tiles and all
other state stay, FLAGS takes the exceptions together, and an enabled exception traps with nothing written. A type outside the class traps TILE_TYPE.
(R168, R172, R175, R176, R177, R178, R179, R180, R183) -/
def Obligations.VectorArithmetic : Prop :=
  ∀ (s : State) (d a b c p q u m : Nat),
    let t := s.cm.ty
    let A := fun i k => unitAt (s.src a p i) t.uw k
    let B := fun i k => unitAt (s.src b q i) t.uw k
    let C := fun i k => unitAt (s.src c u i) t.uw k
    let one : (Ty → Bool) → Instr → (Ty → Nat → Nat × Nat) → Prop := fun ok x f =>
      (ok t = true → Elementwise x s d t.uw m [(a, p)] (s.governs t m) (fun i k => f t (A i k))) ∧ (ok t = false → Traps x s { cause := 0x40 })
    let two : (Ty → Bool) → Instr → (Ty → Nat → Nat → Nat × Nat) → Prop := fun ok x f =>
      (ok t = true → Elementwise x s d t.uw m [(a, p), (b, q)] (s.governs t m) (fun i k => f t (A i k) (B i k))) ∧
      (ok t = false → Traps x s { cause := 0x40 })
    let three : (Ty → Bool) → Instr → (Ty → Nat → Nat → Nat → Nat × Nat) → Prop := fun ok x f =>
      (ok t = true → Elementwise x s d t.uw m [(a, p), (b, q), (c, u)] (s.governs t m) (fun i k => f t (A i k) (B i k) (C i k))) ∧
      (ok t = false → Traps x s { cause := 0x40 })
    let md := s.md
    two okFIC (.vadd d a b p q m) (addElem md false) ∧ two okFIC (.vsub d a b p q m) (addElem md true) ∧
    two okFI (.vmul d a b p q m) (mulElem md) ∧
    three okFI (.vfma d a b p q m c u) (fmaElem md false false) ∧ three okFI (.vfms d a b p q m c u) (fmaElem md false true) ∧
    three okFI (.vfnma d a b p q m c u) (fmaElem md true false) ∧
    two okFI (.vmin d a b p q m) (pickElem md.fz false) ∧ two okFI (.vmax d a b p q m) (pickElem md.fz true) ∧
    three okFI (.vclamp d a b p q m c u) (fun t x y z => pickElem md.fz false t (pickElem md.fz true t x y).1 z) ∧
    one okFI (.vabs d a p m) (absElem md.fz) ∧ one okFIC (.vneg d a p m) (negElem md.fz) ∧
    two okFIC (.vand d a b p q m) (fun _ x y => (x &&& y, 0)) ∧ two okFIC (.vor d a b p q m) (fun _ x y => (x ||| y, 0)) ∧
    two okFIC (.vxor d a b p q m) (fun _ x y => (x ^^^ y, 0)) ∧ one okFIC (.vnot d a p m) (fun t x => (2 ^ t.uw - 1 - x, 0)) ∧
    two okI (.vshl d a b p q m) (fun t x y => (x * 2 ^ (y % t.uw) % 2 ^ t.uw, 0)) ∧
    two okI (.vshr d a b p q m) (fun t x y => (x / 2 ^ (y % t.uw), 0)) ∧
    two okI (.vsar d a b p q m) (fun t x y => (ofSigned t.uw (toSigned t.uw x / (2 ^ (y % t.uw) : Nat)), 0)) ∧
    two okI (.vadds d a b p q m) (satElem false) ∧ two okI (.vsubs d a b p q m) (satElem true) ∧ two okI (.vmulh d a b p q m) mulhElem ∧
    two okC (.vcmul d a b p q m) (fun t x y => cmulElem md false t x y none) ∧
    three okC (.vcmac d a b p q m c u) (fun t x y z => cmulElem md false t x y (some z)) ∧
    two okC (.vcmulj d a b p q m) (fun t x y => cmulElem md true t x y none) ∧
    three okC (.vcmacj d a b p q m c u) (fun t x y z => cmulElem md true t x y (some z)) ∧
    one okC (.vconj d a p m) (conjElem md.fz) ∧ one okC (.vcabs2 d a p m) (cabs2Elem md)

/-- On integer elements the sum, difference, product and fused forms are the exact results modulo 2^w, saturating forms clamp and raise saturate only when
the exact result is out of range, the high product is the floor of the exact product over 2^w, and comparisons, minimum and maximum order by value. A
NaN operand of a sum or a product gives the canonical NaN without a flag, infinity minus infinity and zero times infinity give it with invalid; VMIN
and VMAX return the number when one operand is NaN and order -0 below +0; VNEG and VABS change the sign bit alone; a comparison with NaN holds for NE
and UN only. On finite operands the sum, the difference, the product and the fused forms are the rounding, once, of the exact result, with its flags;
an exact zero sum is -0 when every term is -0 or, rounding down, when not every term is +0. Of the lines of a reduction over integers, VREDM returns
the first greatest element. (R173, R174, R176, R177, R178, R180, R181, R202) -/
def Obligations.VectorElements : Prop :=
  (∀ (md : RMode) (fz sgn : Bool) (w a b c : Nat), 1 < w → a < 2 ^ w → b < 2 ^ w → c < 2 ^ w →
    let t : Ty := .int sgn w
    let V := intVal sgn w
    let N : Nat := 2 ^ w
    let clamp : Nat × Nat → Int → Prop := fun r v =>
      (intMin sgn w ≤ v → v ≤ intMax sgn w → V r.1 = v ∧ r.2 = 0) ∧ (intMax sgn w < v → V r.1 = intMax sgn w ∧ r.2 = fSaturate) ∧
      (v < intMin sgn w → V r.1 = intMin sgn w ∧ r.2 = fSaturate)
    addElem md false t a b = ((a + b) % N, 0) ∧ addElem md true t a b = ((N + a - b) % N, 0) ∧ mulElem md t a b = (a * b % N, 0) ∧
    fmaElem md false false t a b c = ((a * b + c) % N, 0) ∧ fmaElem md false true t a b c = ((a * b + N - c) % N, 0) ∧
    fmaElem md true false t a b c = ((N * N + c - a * b) % N, 0) ∧
    V (pickElem fz false t a b).1 = min (V a) (V b) ∧ V (pickElem fz true t a b).1 = max (V a) (V b) ∧
    absElem fz t a = (if V a < 0 then (N - a) % N else a, 0) ∧ negElem fz t a = ((N - a) % N, 0) ∧
    clamp (satElem false t a b) (V a + V b) ∧ clamp (satElem true t a b) (V a - V b) ∧
    mulhElem t a b = (((V a * V b) / (N : Int) % (N : Int)).toNat, 0) ∧
    (cmpElem fz 0 t a b = true ↔ V a = V b) ∧ (cmpElem fz 1 t a b = true ↔ V a ≠ V b) ∧ (cmpElem fz 2 t a b = true ↔ V a < V b) ∧
    (cmpElem fz 3 t a b = true ↔ V a ≤ V b) ∧ (cmpElem fz 4 t a b = true ↔ V b < V a) ∧ (cmpElem fz 5 t a b = true ↔ V b ≤ V a) ∧
    cmpElem fz 6 t a b = false ∧ cmpElem fz 7 t a b = true) ∧
  (∀ (md : RMode) (fz : Bool) (f : Fmt) (a b : Nat),
    let nan := fun x => f.decode x = .nan
    let t : Ty := .flt f
    (nan a ∨ nan b → addElem md false t a b = (f.cnan, 0) ∧ addElem md true t a b = (f.cnan, 0) ∧ mulElem md t a b = (f.cnan, 0) ∧
      ∀ cc, cmpElem fz cc t a b = (cc == 1 || cc == 6)) ∧
    (∀ n, f.decode a = .inf n → f.decode b = .inf n → addElem md true t a b = (f.cnan, fInvalid)) ∧
    (∀ n z, f.decode a = .inf n → f.decode b = .fin z → z.m = 0 → z.sticky = false → mulElem md t a b = (f.cnan, fInvalid) ∧
      mulElem md t b a = (f.cnan, fInvalid)) ∧
    (nan a → nan b → pickElem fz true t a b = (f.cnan, 0) ∧ pickElem fz false t a b = (f.cnan, 0)) ∧
    (nan a → ¬ nan b → ∀ gt, pickElem fz gt t a b = (f.flushBits fz b, 0) ∧ pickElem fz gt t b a = (f.flushBits fz b, 0)) ∧
    (nan a → absElem fz t a = (f.cnan, 0) ∧ negElem fz t a = (f.cnan, 0))) ∧
  (∀ (fz : Bool) (f : Fmt) (a : Nat), f ∈ [fmtF32, fmtBf16, fmtF16, fmtE4m3, fmtE5m2] → a < 2 ^ f.w → f.decode a ≠ .nan → (∀ x, f.decode a = .fin x → fz = false) →
    (absElem fz (.flt f) a).1 = a % 2 ^ (f.w - 1) ∧ (negElem fz (.flt f) a).1 = a ^^^ 2 ^ (f.w - 1)) ∧
  (∀ (fz : Bool) (f : Fmt), f ∈ [fmtF32, fmtBf16, fmtF16, fmtE4m3, fmtE5m2] →
    pickElem fz false (.flt f) (f.zeroBits false) (f.zeroBits true) = (f.zeroBits true, 0) ∧
    pickElem fz true (.flt f) (f.zeroBits true) (f.zeroBits false) = (f.zeroBits false, 0)) ∧
  (∀ (md : RMode) (f : Fmt) (a b c : Nat) (x y z : Ex), f.val md.fz a = .fin x → f.val md.fz b = .fin y → f.val md.fz c = .fin z →
    let t : Ty := .flt f
    let P : Ex := { neg := x.neg != y.neg, m := x.m * y.m, e := x.e + y.e }
    let exact := fun (r : Nat × Nat) (u v : Ex) (nu nv : Bool) => ∃ X : Ex, X.sticky = false ∧ r = f.round X md ∧
      (∀ q : Int, q ≤ X.e → q ≤ u.e → q ≤ v.e →
        X.units q = (if nu then -(u.units q) else u.units q) + (if nv then -(v.units q) else v.units q)) ∧
      (X.m = 0 → X.neg = (u.isZero && v.isZero && (u.neg != nu) && (v.neg != nv) ||
        md.rm == 2 && !(u.isZero && v.isZero && u.neg == nu && v.neg == nv)))
    (∀ sub, exact (addElem md sub t a b) x y false sub) ∧ mulElem md t a b = f.round P md ∧
    ∀ negP negC, exact (fmaElem md negP negC t a b c) P z negP negC) ∧
  (∀ (fz sgn : Bool) (w : Nat) (xs : List (Nat × Nat)) (i v : Nat), extreme true fz (.int sgn w) xs = some (i, v) →
    ∃ l r, xs = l ++ (i, v) :: r ∧ (∀ y ∈ l, intVal sgn w y.2 < intVal sgn w v) ∧ ∀ y ∈ r, intVal sgn w y.2 ≤ intVal sgn w v)

/-- Every value that a format represents rounds to its own bits without a flag, in every rounding mode and under deterministic stochastic rounding, unless
FZ flushes a subnormal; a NaN rounds to the canonical NaN. Rounding an exact magnitude to a grid gives, of the two neighbouring multiples, the lower
one toward zero, the nearer one to nearest with ties to even or away, and for a negative value under RDN, a positive one under RUP, the upper one; an
exact multiple stays. (R33, R34, R42, R43, R50) -/
def Obligations.Rounding : Prop :=
  (∀ (f : Fmt) (b : Nat) (md : RMode), f ∈ [fmtF32, fmtBf16, fmtF16, fmtE4m3, fmtE5m2] → b < 2 ^ f.w →
    (∀ x, f.decode b = .fin x → md.fz = false ∨ x.isZero = true ∨ f.emin ≤ x.lead → f.round x md = (b, 0)) ∧
    (∀ n, f.decode b = .inf n → f.roundV (.inf n) md = (b, 0)) ∧
    (f.decode b = .nan → f.roundV (f.decode b) md = (f.cnan, 0) ∧ f.decode f.cnan = .nan)) ∧
  (∀ (x : Ex) (q : Int) (md : RMode), x.sticky = false → x.e < q → md.dsr = none →
    let k := (q - x.e).toNat
    let n := (x.toGrid q md).1
    let lo := x.m / 2 ^ k
    let r := x.m % 2 ^ k
    (n = lo ∨ n = lo + 1) ∧ (r = 0 → n = lo) ∧ ((x.toGrid q md).2 = true ↔ r ≠ 0) ∧
    (md.rm = 0 → (2 * r < 2 ^ k → n = lo) ∧ (2 ^ k < 2 * r → n = lo + 1) ∧ (2 * r = 2 ^ k → n % 2 = 0)) ∧
    (md.rm = 1 → n = lo) ∧ (md.rm = 2 → r ≠ 0 → n = if x.neg then lo + 1 else lo) ∧ (md.rm = 3 → r ≠ 0 → n = if x.neg then lo else lo + 1) ∧
    (md.rm = 4 → (2 * r < 2 ^ k → n = lo) ∧ (2 ^ k ≤ 2 * r → n = lo + 1)))

/-- VSHAPE sets the shape, which rows, columns and type then read, unless the columns do not fit its type (TILE_SHAPE). VMOV, VTRANS, VIOTA, VSEL and the
VBCAST forms write the units they govern: the element itself, the transposed one, the index, the one that the selector names, and one mailbox,
element, row or column; an index outside the shape traps TILE_SHAPE. VCMP and the VMSK forms write a whole mask, 0 outside the shape. VMCNT counts the
bits of a mask in the shape into a mailbox, and VTOX copies an element there, sign-extended for .i types. Types outside the class of VSEL, VTRANS,
VIOTA, VBCAST, VCMP and VTOX trap TILE_TYPE. (R166, R167, R168, R181, R182, R184, R185, R186, R187, R188, R189) -/
def Obligations.VectorMovesAndMasks : Prop :=
  (∀ (s : State) (d a b p q m : Nat),
    let t := s.cm.ty
    let A := fun i k => unitAt (s.src a p i) t.uw k
    let B := fun i k => unitAt (s.src b q i) t.uw k
    let one : (Ty → Bool) → Instr → (Ty → Nat → Nat × Nat) → Prop := fun ok x f =>
      (ok t = true → Elementwise x s d t.uw m [(a, p)] (s.governs t m) (fun i k => f t (A i k))) ∧ (ok t = false → Traps x s { cause := 0x40 })
    let rows := s.cm.rows
    let cols := s.cm.cols
    let mk := s.maskIn m
    let bad := fun j => s.cm.cols ≤ j ∨ (t.isC = true ∧ j % 2 = 1)
    let fillOn : (Ty → Bool) → Instr → State → (Nat → Nat → Nat × Nat) → Prop := fun ok x s0 f =>
      (ok t = true → ElementwiseOn x s s0 d t.uw (s.governs t m) f) ∧ (ok t = false → Traps x s { cause := 0x40 })
    let fill : (Ty → Bool) → Instr → List (Nat × Nat) → (Nat → Nat → Nat × Nat) → Prop := fun ok x ops f => fillOn ok x (s.noteRow ops [m]) f
    let row := fun i => (s.noteRows [s.rowOf a p i]).noteRow [] [m]
    one okAny (.vmov d a p m) (fun _ x => (x, 0)) ∧
    (okFI t = true → Elementwise (.vtrans d a p m) s d t.uw m [(a, p)] (fun i k => decide (k < rows) && decide (i < cols) && bit mk (32 * i + k))
      (fun i k => (A k i, 0))) ∧ (okFI t = false → Traps (.vtrans d a p m) s { cause := 0x40 }) ∧
    (okFIC t = true → Elementwise (.vsel d a b p q m) s d t.uw m [(a, p), (b, q)] (fun i k => decide (i < rows) && decide (k < cols / t.step))
      (fun i k => (if maskBit mk t i k then A i k else B i k, 0))) ∧ (okFIC t = false → Traps (.vsel d a b p q m) s { cause := 0x40 }) ∧
    (∀ k, fill okFI (.viota d k m) [] (fun i j =>
      let v := match k with | 0 => j | 1 => i | _ => i * cols + j
      match t with | .int sgn w => saturate sgn w v | .flt f => f.roundV (fvInt v) s.md | _ => (0, 0))) ∧
    (∀ n, fill okFIC (.vbcastMailbox d n m) [] (fun _ _ => ((tgetD s.cm.x n 0).toNat % 2 ^ t.uw, 0))) ∧
    (∀ j, (¬ bad j → fillOn okFIC (.vbcastElem d a j p m) (row 0) (fun _ _ => (A 0 (j / t.step), 0)) ∧
        fill okFIC (.vbcastCol d a j p m) [(a, p)] (fun i _ => (A i (j / t.step), 0))) ∧
      (bad j → Traps (.vbcastElem d a j p m) s { cause := if okFIC t then 0x41 else 0x40 } ∧
        Traps (.vbcastCol d a j p m) s { cause := if okFIC t then 0x41 else 0x40 })) ∧
    (∀ r, (r < rows → fillOn okFIC (.vbcastRow d a r p m) (row r) (fun _ k => (A r k, 0))) ∧
      (rows ≤ r → Traps (.vbcastRow d a r p m) s { cause := if okFIC t then 0x41 else 0x40 })) ∧
    (∀ cc, (okFI t = true → MaskResult (.vcmp d a b p q m cc) s d [(a, p), (b, q)] [m]
        (fun i j => bit mk (32 * i + j) && cmpElem s.md.fz cc t (A i j) (B i j))) ∧
      (okFI t = false → Traps (.vcmp d a b p q m cc) s { cause := 0x40 })) ∧
    MaskResult (.vmskCopy d m) s d [] [m] (fun i j => bit mk (32 * i + j)) ∧ MaskResult (.vmskNot d m) s d [] [m] (fun i j => !bit mk (32 * i + j)) ∧
    MaskResult (.vmskNz d a p m) s d [(a, p)] [m] (fun i j => bit mk (32 * i + j) && rawElem t (s.src a p i) j != 0) ∧
    (∀ n, MaskResult (.vmskCols d n m) s d [] [m] (fun i j => bit mk (32 * i + j) && decide (j < n + 1)) ∧
      MaskResult (.vmskRows d n m) s d [] [m] (fun i j => bit mk (32 * i + j) && decide (i < n + 1))) ∧
    MaskResult (.vmskAnd d b m) s d [] [m, b] (fun i j => bit mk (32 * i + j) && bit (s.maskIn b) (32 * i + j)) ∧
    MaskResult (.vmskOr d b m) s d [] [m, b] (fun i j => bit mk (32 * i + j) || bit (s.maskIn b) (32 * i + j)) ∧
    (let n := ((List.range rows).map (fun i => ((List.range cols).filter (fun j => bit mk (32 * i + j))).length)).sum
      ∀ x, Completes (.vmcnt m x) s ((s.noteRow [] [m]).modCm (fun y => { y with x := tset y.x x (BitVec.ofNat 64 n) }))) ∧
    (∀ j x, let w : Word := match t with | .int true n => BitVec.ofInt 64 (toSigned n (A 0 j)) | _ => BitVec.ofNat 64 (A 0 (j / t.step))
      (okFIC t = true → ¬ bad j → Completes (.vtox a j x p) s ((s.noteRows [s.rowOf a p 0]).modCm (fun y => { y with x := tset y.x x w }))) ∧
      (okFIC t = true → bad j → Traps (.vtox a j x p) s { cause := 0x41 }) ∧ (okFIC t = false → Traps (.vtox a j x p) s { cause := 0x40 }))) ∧
  (∀ (s : State) (r c t : Nat), r < 32 → c < 32 → t < 32 →
    let ty := tyOf t
    let fits := (ty.isC = true → (c + 1) % 2 = 0) ∧ (ty.isB = true → c + 1 = 16 ∨ c + 1 = 32)
    (¬ fits → Traps (.vshape r c t) s { cause := 0x41 }) ∧
    (fits → ∃ v, Completes (.vshape r c t) s (s.modCm (fun m => { m with vshape := v })) ∧
      ({ s.cm with vshape := v } : Member).rows = r + 1 ∧ ({ s.cm with vshape := v } : Member).cols = c + 1 ∧
      ({ s.cm with vshape := v } : Member).ty = ty))

/-- VLD, VST, VLDR and VSTR move the image of the shape, row i of which starts P bytes after row i - 1 and holds unit u in its bits from u*w on. VLD and
VST address it by mailbox, offset and, with the loop form, LC times a stride mailbox; a level outside the loop table traps LOOP_STATE, an image past
the scratch space SCRATCH_RANGE, a misaligned one ALIGN; an access to pages that are not pinned waits and starts their refill. VLD writes the governed
units of the tile; VST writes the governed units' bits and leaves every other bit of scratch; VLDR pops a slot into the tile and the tap chain; VSTR
pushes the image, zero where not governed and up to the slot's end. An unbound ring traps RING_UNBOUND, a slot smaller than the image RING_SLOT, and a
ring that cannot pop or push makes the instruction wait. (R169, R175, R191, R192, R193, R194, R219, R317) -/
def Obligations.TileImages : Prop :=
  (∀ (s : State) (v xa xs e l im m : Nat), im < 64 →
    let c := s.cur.core
    let t := s.cm.ty
    let P := imageP t s.cm.cols
    let n := s.cm.imageBytes
    let X := fun k => tgetD s.cm.x k 0
    let ea := (X xa + BitVec.ofInt 64 ((BitVec.ofNat 6 im).toInt * 64) + (if e = 1 then s.stamp.lcOf l * X xs else 0)).toNat
    let both : (Instr → Prop) → Prop := fun Q => Q (.vld v xa xs e l im m) ∧ Q (.vst v xa xs e l im m)
    let ranged := e = 1 → l < s.cm.kern.loops.length
    let s1 := s.modCore c (fun x => x.used (pagesOf ea n) s.ptc)
    (¬ ranged → both (fun x => Traps x s { cause := 0x42 })) ∧
    (ranged → 2 ^ 24 < ea + n → both (fun x => Traps x s { cause := 0x11, taddr := ea })) ∧
    (ranged → ea + n ≤ 2 ^ 24 → ea % 64 ≠ 0 → both (fun x => Traps x s { cause := 0x13, taddr := ea })) ∧
    (∀ s2, ranged → ea + n ≤ 2 ^ 24 → ea % 64 = 0 → s.present? c [(ea, n)] = some s2 → both (fun x => exec x s = .next (s2.finish .wait))) ∧
    (ranged → ea + n ≤ 2 ^ 24 → ea % 64 = 0 → s.present? c [(ea, n)] = none → s.ue = [] →
      (∃ tiles, Completes (.vld v xa xs e l im m) s (s1.modCm (fun y => { y with tiles := tiles })) ∧
        ∀ p i k, p < 32 → i < 32 → k < 1024 → (tgetD tiles (32 * p + i) 0).getLsbD k =
          if p = s.tileNo v ∧ s.governs t m i (k / t.uw) = true then (s.sbyte c (ea + i * P + k / 8)).getLsbD (k % 8)
          else (tgetD s.cm.tiles (32 * p + i) 0).getLsbD k) ∧
      ((s.core c).scratch.wf = true → ((s.core c).pages.map (·.1)).Pairwise (· < ·) →
        ∃ u, Completes (.vst v xa xs e l im m) s u ∧ u.mem c = s.mem c ∧ (∀ k, k ≠ c → u.core k = s.core k) ∧ SameHome s u ∧
          (∀ i o k, i < s.cm.rows → o < P → k < 8 → (u.sbyte c (ea + i * P + o)).getLsbD k =
            if s.governs t m i ((8 * o + k) / t.uw) = true then (tgetD s.cm.tiles (32 * s.tileNo v + i) 0).getLsbD (8 * o + k)
            else (s.sbyte c (ea + i * P + o)).getLsbD k) ∧
          ∀ b, b < ea ∨ ea + n ≤ b → u.sbyte c b = s.sbyte c b))) ∧
  (∀ (s : State) (d q m : Nat),
    let c := s.cur.core
    let t := s.cm.ty
    let P := imageP t s.cm.cols
    let n := s.cm.imageBytes
    (s.ring q = none → Traps (.vldr d q m) s { cause := 0x50 } ∧ Traps (.vstr d q m) s { cause := 0x50 }) ∧
    (∀ r, s.ring q = some r →
      let H := r.base + r.head % r.n * r.slotb
      let T := r.base + r.tail % r.n * r.slotb
      (r.slotb < n → Traps (.vldr d q m) s { cause := 0x51 } ∧ Traps (.vstr d q m) s { cause := 0x51 }) ∧
      (n ≤ r.slotb →
        (r.popBy ≠ 0 ∨ r.count = 0 → Waits (.vldr d q m) s) ∧ (r.pushBy ≠ 0 ∨ r.n < r.count + 1 → Waits (.vstr d q m) s) ∧
        (r.popBy = 0 → 1 ≤ r.count →
          (∀ s2, s.present? c [(H, n)] = some s2 → exec (.vldr d q m) s = .next (s2.finish .wait)) ∧
          (s.present? c [(H, n)] = none → s.ue = [] → (s.cm.taps.map (·.1)).Pairwise (· < ·) → ∃ tiles taps,
            Completes (.vldr d q m) s ((s.modCore c (fun x => x.used (pagesOf H n) s.ptc)).modCm (fun y =>
              { y with tiles := tiles, taps := taps, rings := tset y.rings q { r with head := (r.head + 1) % r.n, count := r.count - 1, popBy := 0, popN := 0 } })) ∧
            (∀ p i k, p < 32 → i < 32 → k < 1024 → (tgetD tiles (32 * p + i) 0).getLsbD k =
              if p = s.tileNo d ∧ s.governs t m i (k / t.uw) = true then (s.sbyte c (H + i * P + k / 8)).getLsbD (k % 8)
              else (tgetD s.cm.tiles (32 * p + i) 0).getLsbD k) ∧
            (∀ i k, i < 32 → k < 1024 → (tgetD taps (32 + i) 0).getLsbD k = (s.governs t 0 i (k / t.uw) && (s.sbyte c (H + i * P + k / 8)).getLsbD (k % 8))) ∧
            (∀ g i, 2 ≤ g → g < 8 → i < 32 → tgetD taps (32 * g + i) 0 = tgetD s.cm.taps (32 * (g - 1) + i) 0))) ∧
        (r.pushBy = 0 → r.count + 1 ≤ r.n →
          (∀ s2, s.present? c [(T, r.slotb)] = some s2 → exec (.vstr d q m) s = .next (s2.finish .wait)) ∧
          (s.present? c [(T, r.slotb)] = none → s.ue = [] → (s.core c).scratch.wf = true → ((s.core c).pages.map (·.1)).Pairwise (· < ·) →
            ∃ u, Completes (.vstr d q m) s u ∧
              u.mem c = { s.mem c with rings := tset (s.mem c).rings q { r with tail := (r.tail + 1) % r.n, count := r.count + 1, pushBy := 0, pushN := 0 } } ∧
              (∀ k, k ≠ c → u.core k = s.core k) ∧ SameHome s u ∧
              (∀ o k, o < r.slotb → k < 8 → (u.sbyte c (T + o)).getLsbD k =
                (decide (o < n) && s.governs t m (o / P) ((8 * (o % P) + k) / t.uw) && (tgetD s.cm.tiles (32 * s.tileNo d + o / P) 0).getLsbD (8 * (o % P) + k))) ∧
              ∀ b, b < T ∨ T + r.slotb ≤ b → u.sbyte c b = s.sbyte c b)))))

/-- The special functions, VDIV, VKEY, VBITG, VBITS, VSHUF and the conversions write their element function's value into every unit they govern, as the
arithmetic does; a pair of types outside a conversion's class traps TILE_TYPE, then columns that do not fit a complex or block type TILE_SHAPE. A
function of a NaN is NaN without a flag; the logarithm of a zero is minus infinity with divzero and of a negative number NaN with invalid; the
reciprocal of a zero is an infinity of its sign with divzero; the square root keeps a zero and of a negative number is NaN with invalid; the finite
values of the special functions elsewhere are not stated here. That VUNPK looks at the first mask bit of a block alone is the model's choice (log
entry 56). (R54, R198, R199, R204, R207, R208, R210, R211, R212, R213, R214, R215) -/
def Obligations.VectorFunctionsAndConversions : Prop :=
  (∀ (s : State) (d a b p q m : Nat),
    let t := s.cm.ty
    let A := fun i k => unitAt (s.src a p i) t.uw k
    let B := fun i k => unitAt (s.src b q i) t.uw k
    let one : (Ty → Bool) → Instr → (Ty → Nat → Nat × Nat) → Prop := fun ok x f =>
      (ok t = true → Elementwise x s d t.uw m [(a, p)] (s.governs t m) (fun i k => f t (A i k))) ∧ (ok t = false → Traps x s { cause := 0x40 })
    let two : (Ty → Bool) → Instr → (Ty → Nat → Nat → Nat × Nat) → Prop := fun ok x f =>
      (ok t = true → Elementwise x s d t.uw m [(a, p), (b, q)] (s.governs t m) (fun i k => f t (A i k) (B i k))) ∧
      (ok t = false → Traps x s { cause := 0x40 })
    let fn : Instr → (FV → FV × Nat) → Prop := fun x g => one okF x (fnElem s.md g)
    fn (.vexp2 d a p m) FV.exp2 ∧ fn (.vexp d a p m) FV.exp ∧ fn (.vlog2 d a p m) FV.log2 ∧ fn (.vln d a p m) FV.ln ∧ fn (.vrcp d a p m) FV.rcp ∧
    fn (.vrsq d a p m) FV.rsqrt ∧ fn (.vsqrt d a p m) FV.sqrt ∧ fn (.vsigm d a p m) (sigmoid32 s.md) ∧ fn (.vsoftp d a p m) (softplus32 s.md) ∧
    fn (.vtanh d a p m) (tanh32 s.md) ∧
    two okF (.vdiv d a b p q m) (divElem s.md) ∧ (∀ k, one okFI (.vkey d a k p m) (fun t x => (keyElem (k == 1) t x, 0))) ∧
    two okI (.vbitg d a b p q m) (fun t x y => (bitGather t.uw x y, 0)) ∧ two okI (.vbits d a b p q m) (fun t x y => (bitScatter t.uw x y, 0)) ∧
    (okFI t = true → Elementwise (.vshuf d a b p q m) s d t.uw m [(a, p), (b, q)] (s.governs t m) (fun i j =>
      let k := unitAt (s.src b q i) 8 j
      (if k < 128 ∧ k % 32 < s.cm.cols then A i (k % 32) else 0, 0))) ∧ (okFI t = false → Traps (.vshuf d a b p q m) s { cause := 0x40 })) ∧
  (∀ (s : State) (d a b p q m st dt rnd sx imm : Nat),
    let S := tyOf st
    let D := tyOf dt
    let c := s.conv rnd sx imm
    let el := fun o i j => unitAt (s.src (if o = 0 then a else b) (if o = 0 then p else q) i) S.ew j
    let check : Bool → Instr → Prop → Prop := fun ok x good =>
      (ok = false → Traps x s { cause := 0x40 }) ∧ (ok = true → s.cm.convShape S D = false → Traps x s { cause := 0x41 }) ∧
      (ok = true → s.cm.convShape S D = true → good)
    (∀ o, check ((okFI S && okFI D) || (S.isC && D.isC)) (.vcvt d a o p m st dt rnd sx imm)
      (Elementwise (.vcvt d a o p m st dt rnd sx imm) s d D.uw m [(a, p)] (s.governs D m) (fun i u =>
        let cv := fun j => cvtElem c.md (c.at i j) (o == 1) c.sig S.part D.part (el 0 i j)
        match D with | .cpx f => cPair f (cv (2 * u)) (cv (2 * u + 1)) | _ => cv u))) ∧
    check (S.isF && D.isB) (.vpack d a p m st dt rnd sx imm)
      (Elementwise (.vpack d a p m st dt rnd sx imm) s d D.uw m [(a, p)] (s.governs D m) (fun i k =>
        let r := s.packBlock a p i k S D c
        (r.1, r.2.foldl (fun e x => e ||| x) 0))) ∧
    check (S.isB && okFI D) (.vunpk d a p m st dt rnd sx imm)
      (Elementwise (.vunpk d a p m st dt rnd sx imm) s d D.uw m [(a, p)]
        (fun i j => decide (i < s.cm.rows) && decide (j < s.cm.cols) && bit (s.maskIn m) (32 * i + j / 16 * 16)) (fun i j =>
        let x := toF32 c.md ((blockElem S.bw (unitAt (s.src a p i) S.uw (j / 16)) (j % 16)).scale c.sig)
        let r := encodeElem D (x.1.flush c.md.fz) (c.at i j)
        (r.1, x.2 ||| r.2))) ∧
    check (st == 0 && okSrnd dt) (.vsrnd d a p m st dt rnd sx imm)
      (Elementwise (.vsrnd d a p m st dt rnd sx imm) s d 32 m [(a, p)] (s.governs (.flt fmtF32) m) (fun i j =>
        let z : FV × Nat :=
          if D.isB then
            let k := s.packBlock a p i (j / 16) S D c
            (blockElem D.bw k.1 (j % 16), k.2.getD (j % 16) 0)
          else
            let r := cvtElem c.md (c.at i j) true c.sig S D (el 0 i j)
            (decodeElem D r.1, r.2)
        let r := rnd32 (z.1.scale c.sig) c.md
        (r.1, z.2 ||| r.2))) ∧
    check (S.isF && okFI D) (.vqnt d a b p q m st dt rnd sx imm)
      (Elementwise (.vqnt d a b p q m st dt rnd sx imm) s d D.uw m [(a, p), (b, q)] (s.governs D m) (fun i j =>
        let z := FV.mul ((decodeElem S (el 0 i j)).flush c.md.fz) ((decodeElem S (el 1 i j)).flush c.md.fz)
        let r := encodeElem D (z.1.scale (-c.sig)) (c.at i j)
        (r.1, z.2 ||| r.2)))) ∧
  (∀ md : RMode, ∀ g ∈ [FV.exp2, FV.exp, FV.log2, FV.ln, FV.rcp, FV.rsqrt, FV.sqrt, sigmoid32 md, softplus32 md, tanh32 md], g .nan = (.nan, 0)) ∧
  (∀ x : Ex, x.isZero = true → FV.log2 (.fin x) = (.inf true, fDivzero) ∧ FV.ln (.fin x) = (.inf true, fDivzero) ∧
    FV.rcp (.fin x) = (.inf x.neg, fDivzero) ∧ FV.rsqrt (.fin x) = (.inf x.neg, fDivzero) ∧ FV.sqrt (.fin x) = (.fin x, 0)) ∧
  (∀ x : Ex, x.isZero = false → x.neg = true → FV.log2 (.fin x) = (.nan, fInvalid) ∧ FV.ln (.fin x) = (.nan, fInvalid) ∧
    FV.sqrt (.fin x) = (.nan, fInvalid) ∧ FV.rsqrt (.fin x) = (.nan, fInvalid)) ∧
  FV.exp2 (.inf true) = (.fin {}, 0) ∧ FV.exp2 (.inf false) = (.inf false, 0) ∧ FV.exp (.fin {}) = (.fin { m := 1 }, 0)

/-- VREDS, VREDM and VREDN give one result for each line, a row or with r = 1 a column, over its selected elements: written at the line's first position,
and for a complex type in both parts. VSCANS writes every position in the shape with the running sum of its line. VHIST writes the counts of the 256
digit values, added to the tile's with c = 1, into rows 0 to 7 of a tile for unsigned types of 8 bits and more; a digit outside the type is a reserved
field. VPERMB moves bytes in the rows whose first mask bit is 1. VCOMP packs the selected units of a row, or of the shape, and VEXPD spreads them;
what is left is zero, or kept. Nothing else of any tile and nothing else of the machine changes; types outside the class trap TILE_TYPE. (R200, R201,
R202, R203, R205, R206, R209) -/
def Obligations.VectorReductions : Prop :=
  (∀ (s : State) (d a dir p k : Nat),
    let t := s.cm.ty
    let rows := s.cm.rows
    let cols := s.cm.cols
    let line : Nat → Nat → List (Nat × Nat) := fun i u =>
      if dir = 0 then (List.range (cols / t.step)).map (fun n => (i, t.step * n + u)) else (List.range rows).map (fun n => (n, u))
    let chosen := fun i u => (line i u).filter (selected (s.maskIn k) t)
    let raw := fun (x : Nat × Nat) => unitAt (s.src a p x.1) t.ew x.2
    let first : Nat → Nat → Bool := fun i u => if dir = 0 then decide (i < rows) && decide (u < min t.step cols) else decide (i = 0) && decide (u < cols)
    let red : (Ty → Bool) → Instr → (List (Nat × Nat) → Nat × Nat) → Prop := fun ok x f =>
      (ok t = true → Elementwise x s d t.ew k [(a, p)] first (fun i u => f (chosen i u))) ∧ (ok t = false → Traps x s { cause := 0x40 })
    let ext := fun gt ps => extreme gt s.md.fz t (ps.map (fun (x : Nat × Nat) => (if dir = 0 then x.2 else x.1, raw x)))
    let val := fun gt ps => ((match ext gt ps with | some (_, v) => v | none => emptyRed gt t), (0 : Nat))
    let idx := fun gt ps => ((match ext gt ps with | some (n, _) => n | none => 2 ^ t.uw - 1), (0 : Nat))
    red okFIC (.vreds d a dir p k) (fun ps => sumLine s.md t (ps.map raw)) ∧
    red okRedm (.vredm d a dir p k) (val true) ∧ red okRedm (.vredn d a dir p k) (val false) ∧
    red okRedm (.vredmIdx d a dir p k) (idx true) ∧ red okRedm (.vrednIdx d a dir p k) (idx false) ∧
    (∀ e, let scan := fun (i j : Nat) => scanLine s.md t (e == 1) ((line i (if dir = 0 then j % t.step else j)).map (fun x => (selected (s.maskIn k) t x, raw x))) .empty
      (okFIC t = true → Elementwise (.vscans d a e dir p k) s d t.ew k [(a, p)]
        (fun i j => decide (i < rows) && decide (j < if dir = 0 then cols / t.step * t.step else cols))
        (fun i j => ((scan i j).1.getD (if dir = 0 then j / t.step else i) 0, (scan i j).2))) ∧
      (okFIC t = false → Traps (.vscans d a e dir p k) s { cause := 0x40 }))) ∧
  (∀ (s : State) (d a c k b p m : Nat),
    ((∀ w, s.cm.ty = .int false w → w = 4) → Traps (.vhist d a c k b p m) s { cause := 0x40 }) ∧
    (∀ w, s.cm.ty = .int false w → w ≠ 4 →
      (w / 8 ≤ b → Traps (.vhist d a c k b p m) s { cause := 0x03 }) ∧
      (b < w / 8 →
        let keys := ((s.cm.units (.int false w)).filter (fun x => bit (s.maskIn m) (32 * x.1 + x.2))).map (fun x => unitAt (s.src a p x.1) w x.2)
        let v := (tgetD s.cm.x k 0).toNat % 2 ^ w
        let f := (tgetD s.cm.x k 0).toNat / 2 ^ 32 % 2 ^ w
        let s0 := if c = 1 then s.noteRead 8 [(d, 0)] [] else s
        TileWrite (.vhist d a c k b p m) s (s0.noteRow [(a, p)] [m]) d 32 (fun i u => if i < 8 then
          some (((if c = 1 then unitAt (s.src d 0 i) 32 u else 0) +
            (keys.filter (fun x => (x &&& f) == (v &&& f) && x / 2 ^ (8 * b) % 256 == 32 * i + u)).length) % 2 ^ 32) else none) 0))) ∧
  (∀ (s : State) (d a b p q m : Nat), TileResult (.vpermb d a b p q m) s d 8 [(a, p), (b, q)] m (fun i u =>
    if i < s.cm.rows ∧ bit (s.maskIn m) (32 * i) = true then
      let n := unitAt (s.src b q i) 8 u
      some (if n < 128 then unitAt (s.src a p i) 8 n else 0)
    else none) 0) ∧
  (∀ (s : State) (d a keep lin p m : Nat),
    let t := s.cm.ty
    let n := s.cm.cols / t.step
    let seq : Nat → List (Nat × Nat) := fun i => if lin = 1 then s.cm.units t else (List.range n).map (fun u => (i, u))
    let pos := fun i u => if lin = 1 then i * n + u else u
    let adm := fun (x : Nat × Nat) => maskBit (s.maskIn m) t x.1 x.2
    let raw := fun (x : Nat × Nat) => unitAt (s.src a p x.1) t.uw x.2
    let rest : Option Nat := if keep = 1 then none else some 0
    (okFIC t = true →
      TileResult (.vcomp d a keep lin p m) s d t.uw [(a, p)] m (fun i u => if i < s.cm.rows ∧ u < n then
        (match ((seq i).filter adm)[pos i u]? with | some x => some (raw x) | none => rest) else none) 0 ∧
      TileResult (.vexpd d a keep lin p m) s d t.uw [(a, p)] m (fun i u => if i < s.cm.rows ∧ u < n then
        (if adm (i, u) = true then (((seq i)[(((seq i).take (pos i u)).filter adm).length]?).map raw) else rest) else none) 0) ∧
    (okFIC t = false → Traps (.vcomp d a keep lin p m) s { cause := 0x40 } ∧ Traps (.vexpd d a keep lin p m) s { cause := 0x40 }))

/-- An MM, MMC or MMT whose format-table entry exists and whose types, counts, rings, rectangle and block pass the checks of R253 issues: it stays at the
head of the stream, KSTEP reads busy, and it has sampled FPMODE, the types and the input scales. While the power controller gates the ME it waits; a
missing format-table entry traps FMT_RANGE with the index, a reserved type RESERVED_FIELD, and a failed check its cause, the first that fails: a type
the ME does not take MM_TYPE, counts MM_SHAPE, a ring RING_UNBOUND or RING_SLOT, a rectangle past the SRAM ACC_RANGE, a block that leaves the mesh or
holds a core without a member of the group MM_COOP. That equal rings give MM_SHAPE only where a core uses both is the model's reading (log entry 26).
(R247, R248, R250, R252, R253, R254) -/
def Obligations.MatrixProductsIssue : Prop :=
  (∀ (s : State) (qa qb md fi ta tb m n k acc cr cc : Nat),
    let o : MmOp := { qa := qa, qb := qb, md := md, fi := fi, ta := ta, tb := tb, m := m + 1, n := n + 1, k := k + 1, acc := acc }
    let fm := if fi = 1 then s.cm.kern.fmts[s.stamp.fidx]? else none
    let f : Nat × Nat × Nat × Nat := match fm with | some e => (e.ta, e.tb, e.sa, e.sb) | none => (ta, tb, 0, 0)
    let issues : Instr → MmOp → Prop := fun x p =>
      (fi = 1 → fm = none → Traps x s { cause := 0x14, taddr := s.stamp.fidx }) ∧
      ((fi = 1 → fm ≠ none) →
        (18 ≤ f.1 ∨ 18 ≤ f.2.1 ∨ (∃ e, fm = some e ∧ 18 ≤ e.td) → Traps x s { cause := 0x03 }) ∧
        (f.1 < 18 → f.2.1 < 18 → (∀ e, fm = some e → e.td < 18) →
          (∀ cause, s.mmCheck p f.1 f.2.1 = some cause → Traps x s { cause := cause }) ∧
          (s.mmCheck p f.1 f.2.1 = none →
            (s.power.gate = true → Waits x s) ∧
            (s.power.gate = false → exec x s =
              .next (((s.modEnt (fun e => { e with opv := [s.cm.fpmode, f.1, f.2.1, f.2.2.1, f.2.2.2] })).modCm (fun y => { y with kstep := 0x8000 })).finish .running)))))
    issues (.mm qa qb md fi ta tb m n k acc) o ∧ issues (.mmt qa qb md fi ta tb m n k acc) { o with trans := true } ∧
    issues (.mmc qa qb md fi ta tb m n k acc cr cc) { o with coop := true, r := cr + 1, c := cc + 1 }) ∧
  (∀ (s : State) (o : MmOp) (ta tb : Nat),
    let c := s.cur.core
    let typed := meType ta = true ∧ meType tb = true
    let shaped := o.mc ≤ 128 ∧ o.nc ≤ 160 ∧ o.k ≤ 8192 ∧ (o.trans = true → 15 ≤ tb → o.n % 16 = 0) ∧
      ¬ (o.usesA c = true ∧ o.usesB c = true ∧ o.qa = o.qb)
    let bBytes := if o.trans = true then 16 * imageP (tyOf tb) o.n else 64 * o.colsOf c
    let bound := (o.usesA c = true → s.ring o.qa ≠ none) ∧ (o.usesB c = true → s.ring o.qb ≠ none)
    let fits := (o.usesA c = true → ∀ r, s.ring o.qa = some r → 64 * o.rowsOf c ≤ r.slotb ∧ o.slices ≤ r.n) ∧
      (o.usesB c = true → ∀ r, s.ring o.qb = some r → bBytes ≤ r.slotb ∧ o.slices ≤ r.n)
    let inside := 0 < o.rowsOf c → 0 < o.colsOf c →
      o.acc * 64 + ((o.rowsOf c - 1) * (16 * cdiv o.nc 16) + o.colsOf c - 1) * 4 + 4 ≤ 0x100000
    let block := o.coop = true → ∃ l, o.block c = some l ∧ ∀ k ∈ l, (s.seat k).present = true ∧ (s.mem k).group = s.cm.group
    (¬ typed → s.mmCheck o ta tb = some 0x60) ∧ (typed → ¬ shaped → s.mmCheck o ta tb = some 0x61) ∧
    (typed → shaped → ¬ bound → s.mmCheck o ta tb = some 0x50) ∧ (typed → shaped → bound → ¬ fits → s.mmCheck o ta tb = some 0x51) ∧
    (typed → shaped → bound → fits → ¬ inside → s.mmCheck o ta tb = some 0x12) ∧
    (typed → shaped → bound → fits → inside → ¬ block → s.mmCheck o ta tb = some 0x62) ∧
    (typed → shaped → bound → fits → inside → block → s.mmCheck o ta tb = none))

/-- MM_SLICE of an MM or MMT whose array is powered and whose next slot of each ring is FILLED and pinned takes, for each word (i, j) of the rectangle,
the exact sum of the slice's products of row i of the A panel and column j of the B panel: modes 0 and 1 add it to the word, rounded once to nearest
even (the first slice of mode 0 overwrites); mode 2 does so in the partial array, and after the last slice the word takes the greater of the two. What
an error strikes reads as zero. KSTEP rises, and after the last slice the slots are popped, KSTEP is 0 and the instruction leaves its stream; FLAGS
takes the exceptions. An enabled exception stops the ME with nothing written and PROG the slice; a word of an armed barrier pair stays, the others are
written, and the ME traps BARRIER_STORE at the end of the slice. Of a co-operative block each core makes its own share so, from the panels of its
suppliers, once every core has issued; products that differ stop every core with MM_COOP before slice 0, and an enabled exception of one stops the
others with MM_COOP and its name. Without a product in progress, or before a slot is FILLED, the event changes nothing. (R56, R245, R246, R252, R253,
R254) -/
def Obligations.MatrixSlice : Prop :=
  (∀ (s : State) (c : Nat), s.mmBusy c = none → Leaves (.mmSlice c) s s) ∧
  (∀ (s : State) (c : Nat) (e : Entry) (o : MmOp) (ra rb : Ring), s.mmBusy c = some (e, o) → o.coop = false → o.md ≤ 2 →
    (s.core c).arrayOn = true → tget (s.mem c).rings o.qa = some ra → tget (s.mem c).rings o.qb = some rb → o.qa ≠ o.qb →
    let sl := bits (s.mem c).kstep 9 0
    let nb := if o.trans = true then 16 * imageP (tyOf (e.opv.getD 2 0)) o.n else 64 * o.n
    let filled := sl < ra.count ∧ (ra.popBy = 0 ∨ ra.popBy = 3) ∧ sl < rb.count ∧ (rb.popBy = 0 ∨ rb.popBy = 3)
    let a := (s.sreadUe c (ra.headAddr sl) (64 * o.m)).1
    let b := (s.sreadUe c (rb.headAddr sl) nb).1
    let W := s.mmWords o c sl e.opv a b
    let en := enabledExc (s.precise c) (e.opv.getD 0 0) W.2
    let at_ := fun i j => o.acc * 64 + (i * (16 * cdiv o.n 16) + j) * 4
    let rne : RMode := { modeOf (e.opv.getD 0 0) with rm := 0 }
    let AB := o.operands (modeOf (e.opv.getD 0 0)) e.opv sl a b c
    let t := fun i j => (sliceSum (AB.1.1.getD i []) (AB.2.1.getD j [])).1
    let sum := fun (first : Bool) (old : Nat) v => (rnd32 (if first then v else (sumFV false [f32 old, v]).1) rne).1
    let P := fun i j => sum (sl == 0) (tgetD (s.mem c).partialP (i * 160 + j) 0).toNat (t i j)
    let new := fun i j => if o.md = 2 then (portWord 2 (s.accWord c (at_ i j)) (P i j) modeRne).1
      else sum (o.md == 0 && sl == 0) (s.accWord c (at_ i j)) (t i j)
    let hits := fun i j (x : Bool) => i < o.m ∧ j < o.n ∧ (o.md < 2 ∨ sl + 1 = o.slices) ∧ (s.seat c).isArmed (at_ i j) 4 = x
    sl < o.slices → o.k ≤ 8192 → o.n ≤ 160 →
    (¬ filled → Leaves (.mmSlice c) s s) ∧
    (filled → s.unpinned c [(ra.headAddr sl, 64 * o.m)] = [] → s.unpinned c [(rb.headAddr sl, nb)] = [] →
      (en ≠ 0 → ∃ u, Leaves (.mmSlice c) s u ∧ (u.mem c).stuck = (s.mem c).stuck ++ [(3, { cause := excCause en, exc := W.2, prog := sl })] ∧
        (u.seat c).acc = (s.seat c).acc ∧ (u.mem c).kstep = (s.mem c).kstep ∧ (s.ue = [] → ∀ k, k ≠ c → u.core k = s.core k)) ∧
      (en = 0 → (s.seat c).acc.wf = true → ∃ u, Leaves (.mmSlice c) s u ∧
        (∀ i j, hits i j false → u.accNat c (at_ i j) 4 = new i j % 2 ^ 32) ∧
        (∀ x, (∀ i j, hits i j false → x < at_ i j ∨ at_ i j + 4 ≤ x) → mget (u.seat c).acc x = mget (s.seat c).acc x) ∧
        (o.md = 2 → sl + 1 < o.slices → ∀ i j, i < o.m → j < o.n → tgetD (u.mem c).partialP (i * 160 + j) 0 = BitVec.ofNat 32 (P i j)) ∧
        (u.mem c).fpmode = setBits (s.mem c).fpmode 13 8 (bits (s.mem c).fpmode 13 8 ||| W.2) ∧ (u.mem c).tiles = (s.mem c).tiles ∧
        (u.mem c).s = (s.mem c).s ∧ (s.ue = [] → (∀ k, k ≠ c → u.core k = s.core k) ∧ SameBeyondCores s u) ∧
        ((∃ i j, hits i j true) → (u.mem c).stuck = (s.mem c).stuck ++ [(3, { cause := 0x80, prog := sl + 1 })] ∧ (u.mem c).kstep = 0x8000 + sl + 1) ∧
        ((¬ ∃ i j, hits i j true) →
          (sl + 1 < o.slices → (u.mem c).kstep = 0x8000 + sl + 1 ∧ (u.mem c).q 3 = (s.mem c).q 3) ∧
          (sl + 1 = o.slices → (s.mem c).stuck = [] → (u.mem c).kstep = 0 ∧ (u.mem c).q 3 = ((s.mem c).q 3).tail ∧
            (∃ r, tget (u.mem c).rings o.qa = some r ∧ r.head = (ra.head + o.slices) % ra.n ∧ r.count = ra.count - o.slices ∧ r.popBy = 0) ∧
            ∃ r, tget (u.mem c).rings o.qb = some r ∧ r.head = (rb.head + o.slices) % rb.n ∧ r.count = rb.count - o.slices ∧ r.popBy = 0))))) ∧
  (∀ (s : State) (c : Nat) (e : Entry) (o : MmOp) (cores : List Nat), s.mmBusy c = some (e, o) → o.block c = some cores →
    let sl := bits (s.mem c).kstep 9 0
    let op := fun k => match s.mmBusy k with | some x => x.2 | none => o
    let ent := fun k => match s.mmBusy k with | some x => x.1 | none => e
    let all := ∀ k ∈ cores, ∃ x, s.mmBusy k = some x ∧ x.2.coop = o.coop
    let alike := ∀ j ∈ cores, ∀ k ∈ cores, (op j).sameAs (op k) (ent j).opv (ent k).opv = true
    let stops := fun (u : State) k (t : Trap) => (u.mem k).stuck = (s.mem k).stuck ++ [(3, t)] ∧ (u.seat k).acc = (s.seat k).acc
    (¬ all → Leaves (.mmSlice c) s s) ∧
    (all → sl = 0 → ¬ alike → ∃ u, Leaves (.mmSlice c) s u ∧ ∀ k ∈ cores, stops u k { cause := 0x62 }) ∧
    (all → alike → o.coop = true → sl < o.slices → (∀ k ∈ cores, (s.core k).arrayOn = true) →
      let slot := fun k q => (tgetD (s.mem k).rings q {}).headAddr sl
      let pa := fun k => (op k).supA k
      let pb := fun k => (op k).supB k
      let a := fun k => (s.sreadUe (pa k) (slot (pa k) (op (pa k)).qa) (64 * (op k).rowsOf k)).1
      let b := fun k => (s.sreadUe (pb k) (slot (pb k) (op (pb k)).qb) (64 * (op k).colsOf k)).1
      let W := fun k => s.mmWords (op k) k sl (ent k).opv (a k) (b k)
      let en := fun k => enabledExc (s.precise k) ((ent k).opv.getD 0 0) (W k).2
      let filled := ∀ k ∈ cores,
        ((op k).usesA k = true → s.slotReady k (op k).qa sl = true ∧ s.unpinned k [(slot k (op k).qa, 64 * (op k).rowsOf k)] = []) ∧
        ((op k).usesB k = true → s.slotReady k (op k).qb sl = true ∧ s.unpinned k [(slot k (op k).qb, 64 * (op k).colsOf k)] = [])
      (filled → (∃ k ∈ cores, en k ≠ 0) → ∃ u, Leaves (.mmSlice c) s u ∧ ∀ k ∈ cores,
        (en k ≠ 0 → stops u k { cause := excCause (en k), exc := (W k).2, prog := sl }) ∧
        (en k = 0 → ∃ f ∈ cores, en f ≠ 0 ∧ stops u k { cause := 0x62, prog := sl, named := f })) ∧
      (filled → (∀ k ∈ cores, en k = 0 ∧ (s.seat k).armed = [] ∧ (s.seat k).acc.wf = true) → o.md < 2 → ∃ u, Leaves (.mmSlice c) s u ∧
        ∀ k ∈ cores, ∀ i j, i < (op k).rowsOf k → j < (op k).colsOf k →
          let x := (op k).acc * 64 + (i * (op k).np + j) * 4
          let AB := (op k).operands (modeOf ((ent k).opv.getD 0 0)) (ent k).opv sl (a k) (b k) k
          let t := (sliceSum (AB.1.1.getD i []) (AB.2.1.getD j [])).1
          u.accNat k x 4 = (rnd32 (if o.md = 0 ∧ sl = 0 then t else (sumFV false [f32 (s.accWord k x), t]).1)
            { modeOf ((ent k).opv.getD 0 0) with rm := 0 }).1 % 2 ^ 32))) ∧
  (∀ (as bs : List FV), (∀ p ∈ as.zip bs, ∃ x y, p = (.fin x, .fin y) ∧ x.sticky = false ∧ y.sticky = false ∧ x.e = 0 ∧ y.e = 0) →
    ∃ z, (sliceSum as bs).1 = .fin z ∧ (sliceSum as bs).2 = 0 ∧
      z.units 0 = ((as.zip bs).map (fun p => (match p with | (.fin x, .fin y) => x.units 0 * y.units 0 | _ => 0))).sum)

/-- ACZERO, ACSCALE, ACNORM, ACDRAIN, ACMOV and ACSMX check type, shape, ring and last byte in the order of R253, wait while the ME is gated, their ring
is not ready or its pages are not pinned, and then complete: ACZERO fills the region with +0, -infinity or +infinity; ACSCALE multiplies each word by
the factor before the region; ACNORM divides each O word of a row by the row's l unless that is zero; ACDRAIN pushes the region converted to a type;
ACMOV pops panels and writes their elements under the port mode; ACSMX updates m, l and O of each row and pushes the row's p. Only the named words,
ring slots, FLAGS and the ring's record change. That these operands are flushed under FZ (log entry 19), but those of ACDRAIN to a block type and of
ACMOV not, and how ACDRAIN packs a block (log entry 29), are the model's reading; the rows of ACSMX range over the whole field, 1 to 128. (R257, R258,
R259, R260, R251) -/
def Obligations.AccumulatorFunctions : Prop :=
  ∀ (s : State), s.ue = [] → (s.seat s.cur.core).acc.wf = true → (s.core s.cur.core).scratch.wf = true →
    ((s.core s.cur.core).pages.map (·.1)).Pairwise (· < ·) →
    let c := s.cur.core
    let md := s.md
    let word := fun a => s.accNat c a 4
    let val := fun a => (f32 (word a)).flush md.fz
    let at_ := fun base cols i j => base + (i * (16 * cdiv cols 16) + j) * 4
    let grid := fun (r n : Nat) => (List.range r).flatMap (fun i => (List.range n).map (fun j => (i, j)))
    let ors := fun (l : List (Nat × Nat × Nat)) => l.foldl (fun e r => e ||| r.2.2) 0
    let plain : Instr → Option Nat → (State → Prop) → Prop := fun x chk good =>
      (∀ cause, chk = some cause → Traps x s { cause := cause }) ∧ (chk = none → s.power.gate = true → Waits x s) ∧
      (chk = none → s.power.gate = false → good s)
    let ringed : Instr → Option Nat → Nat → Bool → (Ring → List (Nat × Nat)) → (Ring → Bool) → (Ring → State → Prop) → Prop :=
      fun x chk q _ rs ready good =>
      (∀ cause, chk = some cause → Traps x s { cause := cause }) ∧ (chk = none → s.power.gate = true → Waits x s) ∧
      (∀ r, chk = none → s.power.gate = false → s.ring q = some r →
        (ready r = false → Waits x s) ∧
        (ready r = true → (∀ s2, s.present? c (rs r) = some s2 → exec x s = .next (s2.finish .wait)) ∧
          (s.present? c (rs r) = none → good r (s.modCore c (fun y => y.used ((rs r).flatMap (fun p => pagesOf p.1 p.2)) s.ptc)))))
    (∀ fn acc rows cols, fn < 3 →
      plain (.aczero fn acc rows cols) (if 0x100000 < rectEnd (acc * 64) (rows + 1) (cols + 1) then some 0x12 else none) (fun s1 =>
        AccResult (.aczero fn acc rows cols) s s1 ((grid (rows + 1) (cols + 1)).map (fun x => (at_ (acc * 64) (cols + 1) x.1 x.2,
          match fn with | 0 => 0 | 1 => 0xFF800000 | _ => 0x7F800000))) 0 s.cm.rings [])) ∧
    (∀ acc rows cols,
      let base := acc * 64
      let rs := (grid (rows + 1) (cols + 1)).map (fun x =>
        let p := FV.mul (val (at_ (base + 64) (cols + 1) x.1 x.2)) (val base)
        let r := rnd32 p.1 md
        (at_ (base + 64) (cols + 1) x.1 x.2, r.1, p.2 ||| r.2))
      plain (.acscale acc rows cols) (if 0x100000 < rectEnd (base + 64) (rows + 1) (cols + 1) then some 0x12 else none) (fun s1 =>
        AccResult (.acscale acc rows cols) s s1 (rs.map (fun r => (r.1, r.2.1))) (ors rs) s.cm.rings [])) ∧
    (∀ acc rows cols,
      let base := acc * 64
      let d := cols + 1
      let rs := (grid (rows + 1) d).map (fun x =>
        let a := base + 1024 + (x.1 * d + x.2) * 4
        let l := val (base + 512 + 4 * x.1)
        if l.isZero = true then (a, 0, 0)
        else
          let y := FV.div (val a) l
          let z := rnd32 y.1 md
          (a, z.1, y.2 ||| z.2))
      plain (.acnorm acc rows cols) (if d % 16 ≠ 0 then some 0x61 else if 0x100000 < base + 1024 + (rows + 1) * d * 4 then some 0x12 else none)
        (fun s1 => AccResult (.acnorm acc rows cols) s s1 (rs.map (fun r => (r.1, r.2.1))) (ors rs) s.cm.rings [])) ∧
    (∀ q dt fn acc rows cols,
      let p := cdiv (cols + 1) 16
      let x := panelsOf (tyOf dt) md (rows + 1) (cols + 1) (fun i j =>
        let w := at_ (acc * 64) (cols + 1) i j
        (match tyOf dt with | .blk _ => f32 (word w) | _ => val w).scale (-(toSigned 8 fn)))
      ringed (.acdrain q dt fn acc rows cols) (s.ml2Check (!(tyOf dt).isC) true true q (rows + 1) p (rectEnd (acc * 64) (rows + 1) (cols + 1))) q true
        (fun r => r.tailRanges p) (fun r => r.canPush p) (fun r s1 =>
          AccResult (.acdrain q dt fn acc rows cols) s s1 [] x.2 (tset s.cm.rings q (r.pushed p))
            (((List.range p).zip x.1).map (fun y => (r.tailAddr y.1, slotImage r y.2))))) ∧
    (∀ q dt fn acc rows cols,
      let p := cdiv (cols + 1) 16
      ringed (.acmov q dt fn acc rows cols) (s.ml2Check (!(tyOf dt).isC) true true q (rows + 1) p (rectEnd (acc * 64) (rows + 1) (cols + 1))) q false
        (fun r => r.headRanges p) (fun r => r.canPop p) (fun r s1 =>
          let rs := (grid (rows + 1) (cols + 1)).map (fun x =>
            let a := at_ (acc * 64) (cols + 1) x.1 x.2
            let v := movElem (tyOf dt) (leNat (s.sread c (r.headAddr (x.2 / 16) + 64 * x.1) 64)) (x.2 % 16)
            let w := portWord fn (word a) v.1 { md with rm := 0 }
            (a, w.1, v.2 ||| w.2))
          AccResult (.acmov q dt fn acc rows cols) s s1 (rs.map (fun r => (r.1, r.2.1))) (ors rs) (tset s.cm.rings q (r.popped p)) [])) ∧
    (∀ q dt dd acc rows cols, 1 ≤ dt → dt ≤ 4 → rows < 128 →
      let base := acc * 64
      let d := (dd + 1) * 16
      let n := cols + 1
      let p := cdiv n 16
      let sb := base + 1024 + (rows + 1) * d * 4
      let f := match tyOf dt with | .flt g => g | _ => fmtBf16
      let row := fun i => smxRow f md ((List.range n).map (fun j => word (at_ sb n i j)))
        ((List.range d).map (fun k => word (base + 1024 + (i * d + k) * 4))) (word (base + 512 + 4 * i)) (word (base + 4 * i))
      ringed (.acsmx q dt dd acc rows cols) (s.ml2Check true true true q (rows + 1) p (rectEnd sb (rows + 1) n)) q true
        (fun r => r.tailRanges p) (fun r => r.canPush p) (fun r s1 =>
          AccResult (.acsmx q dt dd acc rows cols) s s1
            ((List.range (rows + 1)).flatMap (fun i => ((List.range d).zip ((row i).o.getD [])).map (fun y => (base + 1024 + (i * d + y.1) * 4, y.2))
              ++ [(base + 512 + 4 * i, (row i).l), (base + 4 * i, (row i).m)]))
            ((List.range (rows + 1)).foldl (fun e i => e ||| (row i).exc) 0) (tset s.cm.rings q (r.pushed p))
            ((List.range p).map (fun k => (r.tailAddr k, slotImage r ((List.range (rows + 1)).flatMap (fun i =>
              leBytes 64 (((List.range 16).zip (((row i).p.drop (16 * k)).take 16)).foldl (fun a y => a + y.2.1 * 2 ^ (y.1 * f.w)) 0)))))))) ∧
    (∀ q dt dd acc rows cols, dt = 0 ∨ 4 < dt → Traps (.acsmx q dt dd acc rows cols) s { cause := 0x60 })

/-- SCMODE sets SCMODE, or traps RESERVED_FIELD on a reserved bit. A scan instruction on a slot that is EMPTY, racks out, or is another context's traps
CASK_SLOT, but waits while a KRIN of that slot dealt before it has not issued, and while the slot racks in; then a layer or segment the slot does not
hold traps CASK_RANGE, a ring that is unbound RING_UNBOUND, one whose slots are too small or too few RING_SLOT, a snapshot, a step count other than
the pending one, a segment already written or the 2,048th layer with pending writes CASK_STATE, and a step count past its 32 bits CASK_RANGE. SCDR,
SCDC and SCGK then issue, the slot ACTIVE and CSTEP busy, and run on by SCAN_STEP; the first write after a flip reads COMMITW at its port and issues
once LSTEP does not exceed what it reads (under STRICT at the reply's time), and reads it again at COMMIT_WAIT_RECHECK. SCOUT pushes the readout of
the segment and completes. SCCH takes its n records at once and completes with the last state in the pending bank; with EMIT it pushes a readout for
each record, and with FLIP the layer flips, MIRROR taking the new LSTEP unless a barrier is armed there (BARRIER_STORE). (R275, R288, R290, R292,
R294, R295, R296, R297) -/
def Obligations.ScanInstructionsIssue : Prop :=
  (∀ (s : State) (i : Nat),
    let ok := bits i 15 11 = 0 ∧ bits i 5 2 = 0 ∧ bits i 10 6 ≤ 4
    (ok → Completes (.scmode i) s (s.modCm (fun m => { m with scmode := i }))) ∧ (¬ ok → Traps (.scmode i) s { cause := 0x03 })) ∧
  (∀ (s : State) (qi qo f e g sl lay n : Nat),
    let c := s.cur.core
    let x := s.slot c sl
    let m := s.scanMd
    let o : ScanOp := { op := 0, qi := qi, qo := qo, flip := f == 1, emit := e == 1, g := g, slot := sl, lay := lay, n := n + 1 }
    let each : (Instr → ScanOp → Prop) → Prop := fun P => P (.scdr qi qo f e g sl lay n) o ∧ P (.scdc qi qo f e g sl lay n) { o with op := 1 } ∧
      P (.scgk qi qo f e g sl lay n) { o with op := 2 } ∧ P (.scch qi qo f e g sl lay n) { o with op := 3 } ∧
      P (.scout qo e g sl lay) { op := 4, qo := qo, pend := e == 1, g := g, slot := sl, lay := lay }
    let gone := x.state = .empty ∨ x.state = .rackingOut
    let held := x.state = .resident ∨ x.state = .active
    let ctl := s.slotCtl { party := c, ctx := s.ctxOn c } x
    (gone → s.krinAhead sl = true → each (fun i _ => Waits i s)) ∧
    (gone → s.krinAhead sl = false → each (fun i _ => Traps i s { cause := 0x71 })) ∧
    (¬ gone → x.ctx ≠ s.ctxOn c → each (fun i _ => Traps i s { cause := 0x71 })) ∧
    (x.state = .rackingIn → x.ctx = s.ctxOn c → each (fun i _ => Waits i s)) ∧
    (held → x.ctx = s.ctxOn c → each (fun i p =>
      ((lay < x.first ∨ x.first + x.nl < lay ∨ cdiv x.bankb 4096 ≤ g) → Traps i s { cause := 0x72 }) ∧
      (∀ cause, s.scanCheck p m = some cause → Traps i s { cause := cause }) ∧
      (let inq := ringCheck (s.ring qi) p.recBytes (if p.op = 3 then n + 1 else 1)
       let outq := ringCheck (s.ring qo) m.panelBytes (if p.op = 3 then n + 1 else 1)
       let pn := tgetD x.pn lay 0
       let ws := tgetD x.wset lay []
       let layers : Nat := (s.seat c).slots.foldl (fun a q => a + (q.2.wset.filter (fun y => !y.2.isEmpty)).length) 0
       let ranged := x.first ≤ lay ∧ lay ≤ x.first + x.nl ∧ g < cdiv x.bankb 4096
       let unbound := (p.writes = true ∧ inq = some 0x50) ∨ (p.outs = true ∧ outq = some 0x50)
       let small := (p.writes = true ∧ inq = some 0x51) ∨ (p.outs = true ∧ outq = some 0x51)
       let state := p.writes = true ∧ (x.snap = true ∨ (pn ≠ 0 ∧ n + 1 ≠ pn) ∨ g ∈ ws ∨ (ws = [] ∧ 2048 ≤ layers))
       let past := p.writes = true ∧ 2 ^ 32 ≤ s.lstep c x lay + pn + n + 1
       (ranged → unbound → s.scanCheck p m = some 0x50) ∧ (ranged → ¬ unbound → small → s.scanCheck p m = some 0x51) ∧
       (ranged → ¬ unbound → ¬ small → state → s.scanCheck p m = some 0x70) ∧
       (ranged → ¬ unbound → ¬ small → ¬ state → past → s.scanCheck p m = some 0x72) ∧
       (ranged → ¬ unbound → ¬ small → ¬ state → ¬ past → s.scanCheck p m = none)))) ∧
  (∀ (r : Option Ring) (bytes slots : Nat), (r = none → ringCheck r bytes slots = some 0x50) ∧
    (∀ y, r = some y → ringCheck r bytes slots = if y.slotb < bytes ∨ y.n < slots then some 0x51 else none)) ∧
  (∀ (s : State) (qi qo f e g sl lay n : Nat),
    let c := s.cur.core
    let x := s.slot c sl
    let m := s.scanMd
    let o : ScanOp := { op := 0, qi := qi, qo := qo, flip := f == 1, emit := e == 1, g := g, slot := sl, lay := lay, n := n + 1 }
    let held := x.state = .resident ∨ x.state = .active
    let ctl := s.slotCtl { party := c, ctx := s.ctxOn c } x
    (held → x.ctx = s.ctxOn c →
      let first := tgetD x.pn lay 0 = 0
      let opv := s.cur.ent.opv
      let rd := s.commitRead c x lay
      let issue := fun (t : State) => Host.Outcome.next ((((t.setSlot c sl { t.slot c sl with state := .active }).modCm (fun y => { y with cstep := 0x8000 })).modEnt
          (fun y => { y with opv := [m.fpm, m.scm] })).finish .running)
      let seqs : (Instr → ScanOp → Prop) → Prop := fun P => P (.scdr qi qo f e g sl lay n) o ∧ P (.scdc qi qo f e g sl lay n) { o with op := 1 } ∧
        P (.scgk qi qo f e g sl lay n) { o with op := 2 }
      seqs (fun i p => s.scanCheck p m = none →
        (¬ first → exec i s = issue s) ∧
        (first → opv = [] → s.placeTaken c = true → Waits i s) ∧
        (first → opv = [] → s.placeTaken c = false → rd.1 = true → s.strict c = false → exec i s = issue rd.2.2) ∧
        (first → opv = [] → s.placeTaken c = false → rd.1 = false ∨ s.strict c = true →
          exec i s = .next ((rd.2.2.modCm (fun y => y.setHead 4 (s.commitMark c rd.2.1 rd.1 s.cur.ent))).finish .wait)) ∧
        (∀ r, first → opv = 0 :: r → Waits i s) ∧
        (∀ v r, first → opv = (v + 1) :: r → s.padOver c s.cur.ent = none → Waits i s) ∧
        (∀ v r s1, first → opv = (v + 1) :: r → s.padOver c s.cur.ent = some s1 →
          exec i s = issue (s1.modEnt (fun y => { y with opv := [], pad := 0, clk := 0 })))) ∧
      (let i : Instr := .scch qi qo f e g sl lay n
       s.scanCheck { o with op := 3 } m = none → first →
        (opv = [] → s.placeTaken c = true → Waits i s) ∧
        (opv = [] → s.placeTaken c = false → rd.1 = false ∨ s.strict c = true →
          exec i s = .next ((rd.2.2.modCm (fun y => y.setHead 4 (s.commitMark c rd.2.1 rd.1 s.cur.ent))).finish .wait)) ∧
        (∀ r, opv = 0 :: r → Waits i s) ∧ (∀ v r, opv = (v + 1) :: r → s.padOver c s.cur.ent = none → Waits i s)) ∧
      (s.accHit ctl.1 (ctl.2 + 4) 4 = false → rd = (decide (s.lstep c x lay ≤ s.accNat ctl.1 (ctl.2 + 4) 4), ctl.1, s)) ∧
      (∀ w ent, s.commitMark c w true ent = { s.padEntry (portDelay c w) ent with opv := [1] } ∧
        s.commitMark c w false ent = { ent with opv := [0, s.power.mclk] })) ∧
    (held → x.ctx = s.ctxOn c → s.ue = [] →
      let p : ScanOp := { op := 4, qo := qo, pend := e == 1, g := g, slot := sl, lay := lay }
      s.scanCheck p m = none → ∀ r, s.ring qo = some r →
      (r.canPush 1 = false → Waits (.scout qo e g sl lay) s) ∧
      (∀ s2, r.canPush 1 = true → s.present? c (r.tailRanges 1) = some s2 → exec (.scout qo e g sl lay) s = .next (s2.finish .wait)) ∧
      (r.canPush 1 = true → s.present? c (r.tailRanges 1) = none →
        let s1 := s.modCore c (fun y => y.used ((r.tailRanges 1).flatMap (fun q => pagesOf q.1 q.2)) s.ptc)
        let R := readout m s.cm.rank g (s.lstep c x lay + if e = 1 then tgetD x.pn lay 0 else 0) (s.segPairs c x lay g (e == 1) true [])
        let en := enabledExc (s.precise c) s.cm.fpmode R.2
        (en ≠ 0 → exec (.scout qo e g sl lay) s = .next (s1.finish (.trapIssued { cause := excCause en, exc := R.2 }))) ∧
        (en = 0 → Completes (.scout qo e g sl lay) s ((s1.pushSlots qo r [R.1]).modCm (fun y => y.setFlags R.2)))))) ∧
  (∀ (s : State) (qi qo f e g sl lay n : Nat) (ri : Ring),
    let c := s.cur.core
    let x := s.slot c sl
    let m := s.scanMd
    let o : ScanOp := { op := 3, qi := qi, qo := qo, flip := f == 1, emit := e == 1, g := g, slot := sl, lay := lay, n := n + 1 }
    let ro := tgetD s.cm.rings qo {}
    let i : Instr := .scch qi qo f e g sl lay n
    let ready := ri.canPop (n + 1) = true ∧ (e = 1 → ro.canPush (n + 1) = true) ∧ (f = 1 → s.placeTaken c = false)
    let rs := ri.headRanges (n + 1) ++ (if e = 1 then ro.tailRanges (n + 1) else [])
    x.state = .resident ∨ x.state = .active → x.ctx = s.ctxOn c → s.scanCheck o m = none → tgetD x.pn lay 0 ≠ 0 → s.ring qi = some ri →
    (¬ ready → Waits i s) ∧
    (∀ s2, ready → s.present? c rs = some s2 → exec i s = .next (s2.finish .wait)) ∧
    (ready → s.present? c rs = none → s.ue = [] →
      let ctl := s.slotCtl { party := c, ctx := s.ctxOn c } x
      let mirror := ctl.2 + 16 + 4 * lay
      let s1 := s.modCore c (fun y => y.used (rs.flatMap (fun q => pagesOf q.1 q.2)) s.ptc)
      let recs := (List.range (n + 1)).map (fun t => s.sread c (ri.headAddr t) 8192)
      let ps := s.segPairs c x lay g false m.comp []
      let outs := ((List.range ps.length).zip ps).map (fun p => chunkPair m recs p.1 p.2)
      let at_ := fun t => outs.map (fun l => (l.getD t ((fvZero, fvZero), {})).1)
      let panels := if e = 1 then (List.range (n + 1)).map (fun t => readout m s.cm.rank g (s.lstep c x lay + t + 1) (at_ t)) else []
      let fl : Nat := outs.foldl (fun (a : Nat) l => l.foldl (fun (a : Nat) (y : (FV × FV) × SeC) => a ||| y.2.fl) a)
        (panels.foldl (fun a y => a ||| y.2) 0)
      let en := enabledExc (s.precise c) s.cm.fpmode fl
      let bank := s.bankAt c x lay true (4096 * g)
      let bs := pairBytes (at_ n)
      let steps := (s.lstep c x lay + (n + 1)) % 2 ^ 32
      let refused := (s.seat ctl.1).isArmed mirror 4 = true
      (en ≠ 0 → exec i s = .next (s1.finish (.trapIssued { cause := excCause en, exc := fl }))) ∧
      (en = 0 → (s.seat c).cask.wf = true → (e = 1 → qi ≠ qo) → ∃ u,
        (f ≠ 1 → Completes i s u) ∧ (f = 1 → ¬ refused → exec i s = .next (u.paddedBy (portDelay c ctl.1))) ∧
        (f = 1 → refused → exec i s = .next (u.finish (.trapDone { cause := 0x80 }))) ∧
        mread (u.seat c).cask bank bs.length = bs ∧
        (f ≠ 1 → (∀ a, a < bank ∨ bank + bs.length ≤ a → mget (u.seat c).cask a = mget (s.seat c).cask a) ∧
          u.slot c sl = { x with state := .resident, wset := tset x.wset lay (addOnce (tgetD x.wset lay []) g), pn := tset x.pn lay (n + 1) } ∧
          ∀ k, k ≠ c → u.core k = s.core k) ∧
        (f = 1 → u.slot c sl = { x with state := .resident, wset := tdel x.wset lay, pn := tdel x.pn lay } ∧ u.lstep c x lay = steps ∧
          u.bankAt c x lay false 0 = s.bankAt c x lay true 0 ∧
          ((s.seat ctl.1).acc.wf = true → ¬ refused → u.accNat ctl.1 mirror 4 = steps)) ∧
        tget u.cm.rings qi = some (ri.popped (n + 1)) ∧ u.cm.s = s.cm.s ∧ u.cm.tiles = s.cm.tiles ∧
        (e = 1 → tget u.cm.rings qo = some (ro.pushed (n + 1)) ∧
          ((s.core c).scratch.wf = true → ((s.core c).pages.map (·.1)).Pairwise (· < ·) → ∀ t b, t ≤ n → b < ro.slotb →
            u.sbyte c (ro.tailAddr t + b) = (slotImage ro (panels.getD t ([], 0)).1).getD b 0))))))

/-- SCAN_STEP takes the next record of an SCDR, SCDC or SCGK once it is FILLED and pinned: the segment's pairs, from the current bank at step 0 and the
pending bank after it, are advanced by the form's update and written to the pending bank, the record is popped, with EMIT the readout of the new state
is pushed, FADE rises by the fades and CSTEP counts; after the last step the slot is RESIDENT, WSET and PN record the write, and the instruction
leaves its stream; with FLIP it waits for the core's place at the port, and then LSTEP takes the steps, the banks change places, WSET and PN are empty
and MIRROR takes LSTEP, unless a barrier is armed there (BARRIER_STORE). An enabled exception stops the SE with nothing written. COMMIT_WAIT_RECHECK
reads COMMITW again when 64 clocks have passed since its last read, and leaves with the instruction whether LSTEP exceeds it. (R275, R289, R290, R293,
R295) -/
def Obligations.ScanSteps : Prop :=
  (∀ (s : State) (c : Nat), s.scanBusy c = none → Leaves (.scanStep c) s s) ∧
  (∀ (s : State) (c : Nat) (e : Entry) (o : ScanOp), s.scanBusy c = some (e, o) → s.ue = [] →
    let m : ScanMd := { fpm := e.opv.getD 0 0, scm := e.opv.getD 1 0 }
    let t := bits (s.mem c).cstep 6 0
    let ri := tgetD (s.mem c).rings o.qi {}
    let ro := tgetD (s.mem c).rings o.qo {}
    let x := s.slot c o.slot
    let ctl := s.slotCtl { party := c, ctx := s.ctxOn c } x
    let mirror := ctl.2 + 16 + 4 * o.lay
    let bank := s.bankAt c x o.lay true (4096 * o.g)
    let out := segStep m o.op (s.sread c (ri.headAddr 0) o.recBytes) (s.segPairs c x o.lay o.g (t != 0) m.comp [])
    let panel : List Byte × Nat := if o.emit = true then readout m (s.mem c).rank o.g (s.lstep c x o.lay + t + 1) out.pairs else ([], 0)
    let fl := out.fl ||| panel.2
    let en := enabledExc (s.precise c) m.fpm fl
    let bs := pairBytes out.pairs
    let rs := ri.headRanges 1 ++ (if o.emit = true then ro.tailRanges 1 else [])
    let ready := ri.canPop 1 = true ∧ (o.emit = true → ro.canPush 1 = true)
    let steps := (s.lstep c x o.lay + o.n) % 2 ^ 32
    let refused := (s.seat ctl.1).isArmed mirror 4 = true
    let flips := t + 1 = o.n ∧ o.flip = true ∧ s.placeTaken c = false
    t < o.n → e.opv.getD 2 0 ≠ 1 → (s.mem c).headOf 4 = some e → (o.emit = true → o.qi ≠ o.qo) →
    (¬ ready → Leaves (.scanStep c) s s) ∧
    (∀ s2, ready → s.present? c rs = some s2 → Leaves (.scanStep c) s s2) ∧
    (ready → s.present? c rs = none → en ≠ 0 → ∃ u, Leaves (.scanStep c) s u ∧
      (u.mem c).stuck = (s.mem c).stuck ++ [(4, { cause := excCause en, exc := fl })] ∧ (u.seat c).cask = (s.seat c).cask ∧
      (u.mem c).rings = (s.mem c).rings ∧ (u.mem c).cstep = (s.mem c).cstep) ∧
    (ready → s.present? c rs = none → en = 0 → (s.seat c).cask.wf = true → t < 127 → ∃ u, Leaves (.scanStep c) s u ∧
      mread (u.seat c).cask bank bs.length = bs ∧
      (u.seat c).fade = min ((s.seat c).fade + out.fades) 0xFFFFFFFF ∧ tgetD (u.mem c).rings o.qi {} = ri.popped 1 ∧
      (o.emit = true → tgetD (u.mem c).rings o.qo {} = ro.pushed 1 ∧
        ((s.core c).scratch.wf = true → ((s.core c).pages.map (·.1)).Pairwise (· < ·) → ∀ b, b < ro.slotb →
          u.sbyte c (ro.tailAddr 0 + b) = (slotImage ro panel.1).getD b 0)) ∧
      (u.mem c).fpmode = setBits (s.mem c).fpmode 13 8 (bits (s.mem c).fpmode 13 8 ||| fl) ∧
      (u.mem c).s = (s.mem c).s ∧ (u.mem c).tiles = (s.mem c).tiles ∧
      (¬ flips → (∀ a, a < bank ∨ bank + bs.length ≤ a → mget (u.seat c).cask a = mget (s.seat c).cask a) ∧
        (u.seat c).acc = (s.seat c).acc ∧ ∀ k, k ≠ c → u.core k = s.core k) ∧
      (t + 1 < o.n ∨ (o.flip = true ∧ s.placeTaken c = true) →
        (u.mem c).cstep = 0x8000 + t + 1 ∧ (u.mem c).q 4 = (s.mem c).q 4 ∧ u.slot c o.slot = x) ∧
      (t + 1 = o.n → o.flip = false → (u.mem c).cstep = 0 ∧ (u.mem c).q 4 = ((s.mem c).q 4).tail ∧
        u.slot c o.slot = { x with state := .resident, held := false, wset := tset x.wset o.lay (addOnce (tgetD x.wset o.lay []) o.g), pn := tset x.pn o.lay o.n }) ∧
      (flips → (u.mem c).cstep = 0 ∧ u.slot c o.slot = { x with state := .resident, held := false, wset := tdel x.wset o.lay, pn := tdel x.pn o.lay } ∧
        u.lstep c x o.lay = steps ∧ u.bankAt c x o.lay false 0 = s.bankAt c x o.lay true 0 ∧
        (refused → (u.mem c).stuck = (s.mem c).stuck ++ [(4, { cause := 0x80 })]) ∧
        (¬ refused → s.strict c = false → (u.mem c).q 4 = ((s.mem c).q 4).tail) ∧
        (¬ refused → (s.seat ctl.1).acc.wf = true → u.accNat ctl.1 mirror 4 = steps)))) ∧
  (∀ (s : State) (c t : Nat) (e : Entry), (s.mem c).headOf 4 = some e → e.issued = false → e.opv = [0, t] →
    let b := (e.lanes.getD 1 0).toNat
    let x := s.slot c (bits b 31 24)
    let rd := s.commitRead c x (bits b 23 12)
    let due := t + 64 * 1000
    (s.mayIssue c = false ∨ s.placeTaken c = true ∨ s.power.mclk < due → Leaves (.commitWaitRecheck c) s s) ∧
    (s.mayIssue c = true → s.placeTaken c = false → due ≤ s.power.mclk →
      Leaves (.commitWaitRecheck c) s (rd.2.2.modMem c (fun m => m.setHead 4 (s.commitMark c rd.2.1 rd.1 e)))))

/-- XLD, XLD.acq, XST, XLDR, the ring form of XST, XGATH, XSCAT, XSTA and XSTREL check descriptor, ring, device range, scratch or accumulator range and
alignment in the order of R227 and trap XFER_SHAPE, RING_UNBOUND, RING_SLOT, ADDR_RANGE, SCRATCH_RANGE, ACC_RANGE or ALIGN; then every page is
translated, the first that fails trapping; then they wait for an acquiring XLD in flight (those of the XL), for a transfer of their half that is to
translate again, for their ring, or, indexed, for what is in flight before them; and then they issue and fly with one move for each 64-byte sector,
the rows in order, near rows one after the other and far rows a stride apart (or where the index list says), having changed nothing but what
translation and the marks of their ring change. That an index list off a multiple of 4 traps ALIGN with the other alignments, and that a page is
translated once, at issue, are the model's reading (log entry 28). (R224, R225, R226, R227, R229, R230, R231, R233, R234, R235, R236) -/
def Obligations.TransferInstructions : Prop :=
  (∀ (s : State) (a b c : Nat),
    let A := (s.rs a).toNat
    let B := (s.rs b).toNat
    let D := (s.rs c).toNat
    let k := s.cur.core
    let rows := ({ dir := .load } : XKind).rows [A, B, D]
    let each : (Instr → XKind → Prop) → Prop := fun P =>
      P (.xld a b c) { dir := .load } ∧ P (.xldAcq a b c) { dir := .load, acq := true } ∧ P (.xst a b c) { dir := .store }
    let inDev := ∀ r ∈ rows, r.far + r.len ≤ 2 ^ 56
    let near := ∀ r ∈ rows, r.near + r.len ≤ (if isSeq k = true then 2 ^ 56 else 2 ^ 24)
    let flies := fun (i : Instr) (x : XKind) (opv : List Nat) => ∀ s1,
      (∀ t, s.xmoves k (s.xctx k) x opv = (.error t, s1) → exec i s = .next (s1.finish (.trap t))) ∧
      (∀ ms, s.xmoves k (s.xctx k) x opv = (.ok ms, s1) → exec i s = .next (((if ms.any Move.far? = true then s1.strictMiss k else s1).modEnt
        (fun e => { e with opv := opv, moves := some ms, moved := 0, t0 := s1.ptc, era := s1.nextId })).finish .flying))
    s.cur.ent.issued = false →
    (rectOk D = false → each (fun i _ => Traps i s { cause := 0x52 })) ∧
    (rectOk D = true → ¬ inDev → each (fun i _ => ∃ va, Traps i s { cause := 0x10, taddr := va } ∧ 2 ^ 56 ≤ va)) ∧
    (rectOk D = true → inDev → ¬ near → each (fun i _ => ∃ va, Traps i s { cause := if isSeq k = true then 0x10 else 0x11, taddr := va } ∧ 2 ^ 24 ≤ va)) ∧
    (rectOk D = true → inDev → near → A % 64 ≠ 0 ∨ B % 64 ≠ 0 → each (fun i _ => Traps i s { cause := 0x13, taddr := if B % 64 ≠ 0 then B else A })) ∧
    (rectOk D = true → inDev → near → A % 64 = 0 → B % 64 = 0 →
      (s.held? = true → each (fun i _ => Waits i s)) ∧ (s.held? = false → each (fun i x => flies i x [A, B, D]))) ∧
    (rectOk D = true → A % 64 = 0 → B % 64 = 0 → isSeq k = false → each (fun _ x => ∀ ms s1, s.xmoves k (s.xctx k) x [A, B, D] = (.ok ms, s1) →
      ms.length = rectRows D * (rectRowb D / 64) ∧
      ∀ i j, i < rectRows D → j < rectRowb D / 64 → ∃ l,
        let dev := Place.dev (B + i * rectStride D + 64 * j) l
        let scr := Place.scratch (A + i * rectRowb D + 64 * j)
        ms[i * (rectRowb D / 64) + j]? = some (if x.dir = .load then { src := dev, dst := scr, len := 64 } else { src := scr, dst := dev, len := 64 })))) ∧
  (∀ (s : State) (b c q : Nat), s.cur.ent.issued = false →
    let B := (s.rs b).toNat
    let D := (s.rs c).toNat
    let k := s.cur.core
    let n := rectRows D * rectRowb D
    let inDev := ∀ i, i < rectRows D → B + i * rectStride D + rectRowb D ≤ 2 ^ 56
    let both : (Instr → Prop) → Prop := fun P => P (.xldr b c q) ∧ P (.xstRing b c q)
    (rectOk D = false → both (fun i => Traps i s { cause := 0x52 })) ∧
    (rectOk D = true → isSeq k = true ∨ s.ring q = none → both (fun i => Traps i s { cause := 0x50 })) ∧
    (∀ r, rectOk D = true → isSeq k = false → s.ring q = some r →
      (r.slotb < n → both (fun i => Traps i s { cause := 0x51 })) ∧
      (n ≤ r.slotb → ¬ inDev → both (fun i => ∃ va, Traps i s { cause := 0x10, taddr := va } ∧ 2 ^ 56 ≤ va)) ∧
      (n ≤ r.slotb → inDev → B % 64 ≠ 0 → both (fun i => Traps i s { cause := 0x13, taddr := B })) ∧
      (n ≤ r.slotb → inDev → B % 64 = 0 → ∀ s1,
        let opL := [r.base + r.tail % r.n * r.slotb, B, D, r.slotb]
        let opS := [r.base + r.head % r.n * r.slotb, B, D]
        let miss := fun (ms : List Move) (s : State) => if ms.any Move.far? = true then s.strictMiss k else s
        (∀ t, s.xmoves k (s.xctx k) { dir := .load, ring := some q } opL = (.error t, s1) → exec (.xldr b c q) s = .next (s1.finish (.trap t))) ∧
        (∀ t, s.xmoves k (s.xctx k) { dir := .store, ring := some q } opS = (.error t, s1) → exec (.xstRing b c q) s = .next (s1.finish (.trap t))) ∧
        (∀ ms, s.xmoves k (s.xctx k) { dir := .load, ring := some q } opL = (.ok ms, s1) →
          (s.held? = true ∨ r.pushBy ≠ 0 ∨ r.n < r.count + 1 → Waits (.xldr b c q) s) ∧
          (s.held? = false → r.pushBy = 0 → r.count + 1 ≤ r.n → exec (.xldr b c q) s = .next
            (((miss ms (s1.modRing q (fun x => { x with pushBy := 5, pushN := 1 }))).modEnt
              (fun e => { e with opv := opL, moves := some ms, moved := 0, t0 := s1.ptc, era := s1.nextId })).finish .flying))) ∧
        (∀ ms, s.xmoves k (s.xctx k) { dir := .store, ring := some q } opS = (.ok ms, s1) →
          (s.held? = true ∨ r.popBy ≠ 0 ∨ r.count < 1 → Waits (.xstRing b c q) s) ∧
          (s.held? = false → r.popBy = 0 → 1 ≤ r.count → exec (.xstRing b c q) s = .next
            (((miss ms (s1.modRing q (fun x => { x with popBy := 6, popN := 1 }))).modEnt
              (fun e => { e with opv := opS, moves := some ms, moved := 0, t0 := s1.ptc, era := s1.nextId })).finish .flying)))))) ∧
  (∀ (s : State) (a b c : Nat), s.cur.ent.issued = false →
    let A := (s.rs a).toNat
    let B := (s.rs b).toNat
    let D := (s.rs c).toNat
    let k := s.cur.core
    let ia := D % 2 ^ 24
    let n := bits D 35 24 + 1
    let rb := (bits D 45 36 + 1) * 64
    let both : (Instr → XKind → Prop) → Prop := fun P =>
      P (.xgath a b c) { dir := .load, indexed := true } ∧ P (.xscat a b c) { dir := .store, indexed := true }
    let go : Instr → XKind → State → List Nat → Prop := fun i x s0 idx =>
      let inDev := ∀ j, j < n → B + idx.getD j 0 * rb + rb ≤ 2 ^ 56
      let near := A + n * rb ≤ (if isSeq k = true then 2 ^ 56 else 2 ^ 24)
      (¬ inDev → ∃ va, exec i s = .next (s0.finish (.trap { cause := 0x10, taddr := va }))) ∧
      (inDev → ¬ near → ∃ va, exec i s = .next (s0.finish (.trap { cause := if isSeq k = true then 0x10 else 0x11, taddr := va }))) ∧
      (inDev → near → A % 64 ≠ 0 ∨ B % 64 ≠ 0 ∨ ia % 4 ≠ 0 → ∃ va, exec i s = .next (s0.finish (.trap { cause := 0x13, taddr := va }))) ∧
      (inDev → near → A % 64 = 0 → B % 64 = 0 → ia % 4 = 0 → ∀ s1,
        (∀ t, s0.xmoves k (s0.xctx k) x ([A, B, D] ++ idx) = (.error t, s1) → exec i s = .next (s1.finish (.trap t))) ∧
        (∀ ms, s0.xmoves k (s0.xctx k) x ([A, B, D] ++ idx) = (.ok ms, s1) → exec i s = .next (((if ms.any Move.far? = true then s1.strictMiss k else s1).modEnt
          (fun e => { e with opv := [A, B, D] ++ idx, moves := some ms, moved := 0, t0 := s1.ptc, era := s1.nextId })).finish .flying)))
    (bits D 63 46 ≠ 0 → both (fun i _ => Traps i s { cause := 0x52 })) ∧
    (bits D 63 46 = 0 → 2 ^ 56 ≤ B → both (fun i _ => Traps i s { cause := 0x10, taddr := B })) ∧
    (bits D 63 46 = 0 → B < 2 ^ 56 →
      let busy := s.held? = true ∨ s.unmoved k (engCode s.cur.eng) = true ∨ (s.cur.eng = .xs ∧ s.collAhead k [(false, ia, 4 * n)] = true)
      (isSeq k = false → 2 ^ 24 < ia + 4 * n → both (fun i _ => Traps i s { cause := 0x11, taddr := 0x1000000 })) ∧
      (isSeq k = true ∨ ia + 4 * n ≤ 2 ^ 24 → busy → both (fun i _ => Waits i s)) ∧
      (¬ busy → isSeq k = false → ia + 4 * n ≤ 2 ^ 24 →
        (∀ s2, s.present? k [(ia, 4 * n)] = some s2 → both (fun i _ => exec i s = .next (s2.finish .wait))) ∧
        (s.present? k [(ia, 4 * n)] = none → s.ue = [] → both (fun i x =>
          go i x (s.modCore k (fun y => y.used (pagesOf ia (4 * n)) s.ptc)) ((List.range n).map (fun j => leNat (s.sread k (ia + 4 * j) 4)))))) ∧
      (¬ busy → isSeq k = true →
        (∀ t s1, s.nearParts ia (4 * n) = (.error t, s1) →
          let well := A + n * rb ≤ 2 ^ 56 ∧ A % 64 = 0 ∧ B % 64 = 0 ∧ ia % 4 = 0
          (well → both (fun i _ => exec i s = .next (s1.finish (.trap t)))) ∧
          (¬ well → both (fun i _ => ∃ p, exec i s = .next (s1.finish (.trap p)) ∧ (p.cause = 0x10 ∨ p.cause = 0x13)))) ∧
        (∀ ps s1, s.nearParts ia (4 * n) = (.ok ps, s1) → both (fun i x =>
          let m := s1.memRead k (s1.xctx k) 0 0 (fun s l n => s.devRead k l n) ps
          go i x m.2 (words4 m.1 n)))))) ∧
  (∀ (s : State) (a b c : Nat), s.cur.ent.issued = false →
    let A := (s.rs a).toNat
    let B := (s.rs b).toNat
    let D := (s.rs c).toNat
    let k := s.cur.core
    let n := rectRows D * rectRowb D
    let inDev := ∀ i, i < rectRows D → B + i * rectStride D + rectRowb D ≤ 2 ^ 56
    let own := isSeq k = false ∧ A < 2 ^ 32 ∧ ∃ off, s.accPlace k (s.ctxOn k) A = .ok (k, off) ∧ off + n ≤ 2 ^ 20
    (rectOk D = false → Traps (.xsta a b c) s { cause := 0x52 }) ∧
    (rectOk D = true → ¬ inDev → ∃ va, Traps (.xsta a b c) s { cause := 0x10, taddr := va }) ∧
    (rectOk D = true → inDev → isSeq k = true ∨ 2 ^ 32 ≤ A → Traps (.xsta a b c) s { cause := 0x12, taddr := A }) ∧
    (rectOk D = true → inDev → own → A % 64 ≠ 0 ∨ B % 64 ≠ 0 → Traps (.xsta a b c) s { cause := 0x13, taddr := if B % 64 ≠ 0 then B else A }) ∧
    (rectOk D = true → inDev → own → A % 64 = 0 → B % 64 = 0 → s.held? = true → Waits (.xsta a b c) s) ∧
    (∀ ms s1, rectOk D = true → inDev → own → A % 64 = 0 → B % 64 = 0 → s.held? = false →
      s.xmoves k (s.xctx k) { dir := .store, near := .acc } [A, B, D] = (.ok ms, s1) →
      exec (.xsta a b c) s = .next (((if ms.any Move.far? = true then s1.strictMiss k else s1).modEnt
        (fun e => { e with opv := [A, B, D], moves := some ms, moved := 0, t0 := s1.ptc, era := s1.nextId })).finish .flying)) ∧
    (∀ t s1, rectOk D = true → inDev → own → A % 64 = 0 → B % 64 = 0 → s.held? = false →
      s.xmoves k (s.xctx k) { dir := .store, near := .acc } [A, B, D] = (.error t, s1) → exec (.xsta a b c) s = .next (s1.finish (.trap t))) ∧
    (2 ^ 56 < B + 8 → ∃ va, Traps (.xstrel a b) s { cause := 0x10, taddr := va }) ∧
    (B + 8 ≤ 2 ^ 56 → B % 8 ≠ 0 → Traps (.xstrel a b) s { cause := 0x13, taddr := B }) ∧
    (B + 8 ≤ 2 ^ 56 → B % 8 = 0 → s.held? = true → Waits (.xstrel a b) s) ∧
    (∀ l s1, B + 8 ≤ 2 ^ 56 → B % 8 = 0 → s.held? = false → s.translate k (s.xctx k) B .write true = (.ok l, s1) →
      let ms : List Move := [{ src := .lit (leBytes 8 A), dst := .dev B l, len := 8 }]
      exec (.xstrel a b) s = .next (((if l.tgt ≠ 0 then s1.strictMiss k else s1).modEnt
        (fun e => { e with opv := [A, B, 0], moves := some ms, moved := 0, t0 := s1.ptc, era := s1.nextId })).finish .flying)))

/-- TRANSFER_COMPLETE moves up to n sectors of an instruction in flight whose predecessors let it move, none that touches a 64-byte unit which one before
it is still to move, or one sector ahead of its turn, which touches no unit of those before it, stopping where a scratch page is not pinned; when all
are moved, and under STRICT its time has come (a later one counts STRICTMISS), the instruction leaves the half, its ring slot is pushed or popped, and
its post is made. A sector read into scratch holds what the device place held and nothing else of scratch changes; a sector written out is the scratch
sector. XCPY with a bad length traps XFER_SHAPE, with a bad range, a slab address among them, or alignment its cause, waits without a free copy slot,
completes at once when the length is zero, and else starts a copy; XCPY_COMPLETE copies sectors in order, each page translated when the copy comes to
it and held until it leaves it, and after the last, under STRICT at its time, frees the slot and posts; COPY_PAGE_FAULT stops the XL in the copy's
name. How many sectors a turn moves, and which goes ahead, are operands of the model's events (log entry 12); that a slab address in an XCPY traps
ADDR_RANGE before anything moves is its reading (log entry 21). (R224, R228, R227, R230, R232, R317, R327, R332) -/
def Obligations.TransferEvents : Prop :=
  (∀ (s : State) (c half n : Nat) (e : Entry) (k : XKind) (ms : List Move),
    let g := 5 + half % 2
    let i := n / 65536 % 65536
    let l := (s.mem c).fl g
    let ready := s.flows c = true ∧ (s.mem c).behindStuck g e = false ∧ s.mayMove c g (l.take i) e = true
    l[i]? = some e → (g = 6 → e.isHring = false) → (decode? (if g = 5 then .xl else .xs) e.lanes).bind xkind = some k → e.moves = some ms →
    (¬ ready → Leaves (.transferComplete c half n) s s) ∧
    (e.ahead = [] → e.nextMoves ms (n % 65536) = (ms.drop e.moved).take (n % 65536)) ∧
    (ready → n < 2 ^ 32 →
      let before := s.leftBefore c g i
      let M := s.moveAll c (s.xctx c) k.acq ((e.nextMoves ms (n % 65536)).takeWhile (fun m => !before.any m.meets))
      let e1 := { e with moved := e.moved + M.1 }.caught e.ahead.length
      (e1.moved < ms.length → Leaves (.transferComplete c half n) s (M.2.modMem c (fun m => m.setFlight g i e1))) ∧
      (ms.length ≤ e1.moved → M.2.strict c = false ∨ ms.any Move.far? = true →
        Leaves (.transferComplete c half n) s (M.2.modMem c (fun m => ((m.dropFlight g i).xferDone k).postPrefix g e.pfx))) ∧
      (ms.length ≤ e1.moved → M.2.strict c = true → ms.any Move.far? = false →
        let due := e.t0 + 2000 + (ms.filter (fun m => m.src.dev? || m.dst.dev?)).length
        (M.2.ptc < due → Leaves (.transferComplete c half n) s (M.2.modMem c (fun m => m.setFlight g i e1))) ∧
        (due ≤ M.2.ptc → Leaves (.transferComplete c half n) s ((if due < M.2.ptc then M.2.strictMiss c else M.2).modMem c
          (fun m => ((m.dropFlight g i).xferDone k).postPrefix g e.pfx))))) ∧
    (∀ m, ready → 2 ^ 32 ≤ n → ms[e.moved + n / 2 ^ 32]? = some m → e.moved + n / 2 ^ 32 ∉ e.ahead →
      let before := s.leftBefore c g i
      (((ms.drop e.moved).take (n / 2 ^ 32)).any m.meets = true ∨ ((ms.drop e.moved).take (n / 2 ^ 32 + 1)).any (fun y => before.any y.meets) = true →
        Leaves (.transferComplete c half n) s s) ∧
      (((ms.drop e.moved).take (n / 2 ^ 32)).any m.meets = false → ((ms.drop e.moved).take (n / 2 ^ 32 + 1)).any (fun y => before.any y.meets) = false →
      let R := s.moveOne c (s.xctx c) k.acq m
      (R.1 = false → Leaves (.transferComplete c half n) s R.2) ∧
      (R.1 = true → Leaves (.transferComplete c half n) s (R.2.modMem c (fun x =>
        x.setFlight g i { e with ahead := e.ahead ++ [e.moved + n / 2 ^ 32] })))))) ∧
  (∀ x y : Move, x.meets y = true ↔ ∃ p ∈ [x.src, x.dst], ∃ q ∈ [y.src, y.dst], p.unit ≠ none ∧ p.unit = q.unit) ∧
  (∀ (s : State) (c half n : Nat), (s.mem c).fl (5 + half % 2) = [] → Leaves (.transferComplete c half n) s s) ∧
  (∀ (s : State) (c x va a n : Nat) (l : Loc), s.ue = [] → s.reachable (dieOf c) l = true →
    let ld := s.moveOne c x false { src := .dev va l, dst := .scratch a, len := n }
    let st := s.moveOne c x false { src := .scratch a, dst := .dev va l, len := n }
    (∀ s2, s.present? c [(a, n)] = some s2 → ld.1 = false ∧ st.1 = false ∧ ld.2 = s2 ∧ st.2 = s2) ∧
    (s.present? c [(a, n)] = none → (s.core c).scratch.wf = true → ((s.core c).pages.map (·.1)).Pairwise (· < ·) → (s.devRead c l n).length = n →
      ld.1 = true ∧ (∀ o, o < n → ld.2.sbyte c (a + o) = (s.devRead c l n).getD o 0) ∧ (∀ b, b < a ∨ a + n ≤ b → ld.2.sbyte c b = s.sbyte c b) ∧
      ld.2.mem c = s.mem c ∧ (∀ k, k ≠ c → ld.2.core k = s.core k) ∧ SameHome s ld.2 ∧
      st = (true, (s.usedRange c a n).performWrite c l (s.sread c a n)))) ∧
  (∀ (s : State) (a b c t f : Nat), t < 2 → f < 2 →
    let k := s.cur.core
    let dst := (s.rs a).toNat
    let src := (s.rs b).toNat
    let n := (s.rs c).toNat
    let fits := fun (scr : Nat) (v : Nat) => if scr = 1 ∧ isSeq k = false then v + n ≤ 2 ^ 24 else v + n ≤ 255 * 2 ^ 48
    let sized := n ≤ 2 ^ 36 ∧ n % 64 = 0
    let even := dst % 64 = 0 ∧ src % 64 = 0
    (¬ sized → Traps (.xcpy a b c t f) s { cause := 0x52 }) ∧
    (sized → 0 < n → ¬ (fits f dst ∧ fits t src) → ∃ p, Traps (.xcpy a b c t f) s p ∧ (p.cause = 0x10 ∨ p.cause = 0x11)) ∧
    (sized → n = 0 ∨ (fits f dst ∧ fits t src) → ¬ even → ∃ va, Traps (.xcpy a b c t f) s { cause := 0x13, taddr := va }) ∧
    (sized → n = 0 ∨ (fits f dst ∧ fits t src) → even →
      (s.held? = true ∨ (s.seat k).freeCopy = none → Waits (.xcpy a b c t f) s) ∧
      (∀ i, n = 0 → s.held? = false → (s.seat k).freeCopy = some i → Completes (.xcpy a b c t f) s s) ∧
      (∀ i, 0 < n → s.held? = false → (s.seat k).freeCopy = some i → exec (.xcpy a b c t f) s = .next ((s.modSeat k (fun y =>
        { y with copies := tset y.copies i { ent := { s.cur.ent with issued := true, t0 := s.ptc }, dst := dst, src := src, len := n } })).finish .gone)))) ∧
  (∀ (s : State) (c i n : Nat),
    (tget (s.seat c).copies i = none → Leaves (.xcpyComplete c i n) s s ∧ Leaves (.copyPageFault c i) s s) ∧
    (∀ x, tget (s.seat c).copies i = some x →
      let idle := s.flows c = false ∨ s.copyFaulted c i = true
      let s1 := s.copySectors c i n
      (idle → Leaves (.xcpyComplete c i n) s s) ∧
      (idle ∨ x.len ≤ x.done → Leaves (.copyPageFault c i) s s) ∧
      (∀ y, ¬ idle → tget (s1.seat c).copies i = some y →
        (y.done < y.len → Leaves (.xcpyComplete c i n) s s1) ∧
        (y.len ≤ y.done → y.far = true ∨ s1.strict c = false →
          Leaves (.xcpyComplete c i n) s ((s1.modSeat c (fun z => { z with copies := tdel z.copies i })).modMem c (fun m => m.postPrefix 5 y.ent.pfx))) ∧
        (y.len ≤ y.done → y.far = false → s1.strict c = true →
          let due := y.ent.t0 + 2000 + y.len / 64
          (s1.ptc < due → Leaves (.xcpyComplete c i n) s s1) ∧
          (due ≤ s1.ptc → Leaves (.xcpyComplete c i n) s (((if due < s1.ptc then s1.strictMiss c else s1).modSeat c
            (fun z => { z with copies := tdel z.copies i })).modMem c (fun m => m.postPrefix 5 y.ent.pfx))))) ∧
      (∀ t s2, ¬ idle → x.done < x.len → s.copyMove c x = (.error t, s2) → Leaves (.copyPageFault c i) s
        (((s2.setCopy c i x.parked).modMem c (fun m => m.stop 5 { t with copy := i + 1, prog := x.done / 64 })).strictMiss c)) ∧
      (∀ m y s2 s3, x.done < x.len → s.copyMove c x = (.ok (m, y), s2) → s2.moveOne c (s2.xctx c) false m = (true, s3) → m.far? = false →
        s.copySectors c i 1 = s3.setCopy c i { y.moved with far := x.far }) ∧
      (∀ ls ld, isSeq c = true → x.srcLoc = some ls → x.dstLoc = some ld → s.copyMove c x =
        (.ok ({ src := .dev (x.src + x.done) ls.2, dst := .dev (x.dst + x.done) ld.2, len := 64 }, x), s)) ∧
      (∀ n l, x.srcLoc = some (n, l) → x.moved.done = x.done + 64 ∧
        x.moved.srcLoc = if (x.src + x.done + 64) % 4096 = 0 then none else some (n, l.add 64))))

/-- XFENCE waits while an XL or XS instruction dealt before it or a bulk copy is incomplete, and then completes. XMSGTX checks range, alignment and
destination, waits for stores before it and for a place in the channel, reserves one and flies with its 64 bytes, the first eight the header;
MESSAGE_ARRIVAL appends the oldest message to its inbox, or discards it with a record where the die does not answer, and completes it. XMSGRX waits
for a message and then moves the oldest one into scratch. XHRING checks count, range, alignment and ring number, waits while the ring is off or
without room, and flies; its completion writes its entries and then the index, oldest first, and raises WIDX. Under STRICT a message arrives, and an
XHRING completes, when its time has come, later counting STRICTMISS. That CTX_OPERAND stands before the rows of R227 (log entry 26), that XFENCE waits
for every bulk copy and that an unconfigured ring makes XHRING wait (log entry 28), and the order in which one sender's messages arrive (log entry 56)
are the model's choices. (R237, R238, R239, R240, R241, R242) -/
def Obligations.MessagesAndHostRings : Prop :=
  (∀ s : State,
    let before := fun (e : Entry) => e.seqNo < s.cur.ent.seqNo ∨ (e.seqNo = s.cur.ent.seqNo ∧ e.lane < s.cur.ent.lane)
    let busy := (∃ e ∈ s.cm.q 5 ++ s.cm.q 6 ++ s.cm.fl 5 ++ s.cm.fl 6, before e) ∨ (s.seat s.cur.core).copies ≠ []
    (busy → Waits .xfenceXl s ∧ Waits .xfenceXs s) ∧ (¬ busy → Completes .xfenceXl s s ∧ Completes .xfenceXs s s)) ∧
  (∀ (s : State) (a b c ch x w : Nat), s.barrierCtx = .ok x →
    let k := s.cur.core
    let A := (s.rs a).toNat
    let key := s.inboxKey x w ch
    let box := s.inbox x key
    let i : Instr := .xmsgtx a b c ch
    let head := (s.rs c).toNat % 2 ^ 32 * 2 ^ 32 + ch * 2 ^ 10 + k
    let ok := A + 64 ≤ (if isSeq k = true then 2 ^ 56 else 2 ^ 24) ∧ A % 64 = 0
    let sent := fun (s1 : State) (bs : List Byte) => exec i s = .next (((s1.modInbox x key (fun y => { y with reserved := y.reserved + 1 })).modEnt
      (fun e => { e with opv := [x, key], moves := some [], moved := 0, buf := leBytes 8 head ++ bs.drop 8, t0 := s1.ptc })).finish .flying)
    (isSeq k = false → 2 ^ 24 < A + 64 → ∃ va, Traps i s { cause := 0x11, taddr := va }) ∧
    (A + 64 ≤ 2 ^ 24 → A % 64 ≠ 0 → Traps i s { cause := 0x13, taddr := A }) ∧
    (ok → s.msgCore x (s.rs b).toNat = none → Traps i s { cause := 0x16, taddr := (s.rs b).toNat }) ∧
    (ok → s.msgCore x (s.rs b).toNat = some w →
      (∀ t s1, s.nearParts A 64 = (.error t, s1) → exec i s = .next (s1.finish (.trap t))) ∧
      (∀ ps s1, s.nearParts A 64 = (.ok ps, s1) →
        let busy := s.unmoved k 6 = true ∨ s.collAhead k [(false, A, 64)] = true ∨ 16 ≤ box.msgs.length + box.reserved
        (busy → Waits i s) ∧
        (∀ s2, ¬ busy → isSeq k = false → s.present? k [(A, 64)] = some s2 → exec i s = .next (s2.finish .wait)) ∧
        (¬ busy → isSeq k = false → s.present? k [(A, 64)] = none → s.ue = [] →
          sent (s.modCore k (fun y => y.used (pagesOf A 64) s.ptc)) (s.sread k A 64)) ∧
        (¬ busy → isSeq k = true →
          let s2 := s1.farMiss k (ps.map (fun p => p.2.1))
          let m := s2.memRead k (s2.xctx k) 0 0 (fun s l n => s.devRead k l n) ps
          sent m.2 m.1)))) ∧
  (∀ (s : State) (a b c ch cause : Nat), s.barrierCtx = .error cause → Traps (.xmsgtx a b c ch) s { cause := cause } ∧ Traps (.xhring a b c) s { cause := cause }) ∧
  (∀ (s : State) (c : Nat),
    let l := (s.mem c).fl 6
    (l.findIdx? Entry.isMsg = none → Leaves (.messageArrival c) s s) ∧
    (∀ i e, l.findIdx? Entry.isMsg = some i → l[i]? = some e →
      (s.flows c = false → Leaves (.messageArrival c) s s) ∧
      (s.strictAt c (e.t0 + 3000) = none → Leaves (.messageArrival c) s s) ∧
      (∀ s1, s.flows c = true → s.strictAt c (e.t0 + 3000) = some s1 →
        let x := e.opv.getD 0 0
        let key := e.opv.getD 1 0
        let answers := s.reaches (dieOf c) (((s.ctx x).ad + key / 512) % 8) = true
        (answers → ∃ u, Leaves (.messageArrival c) s u ∧ (u.mem c).fl 6 = l.eraseIdx i ∧
          (0 < (s.inbox x key).reserved →
            (u.inbox x key).msgs = (s.inbox x key).msgs ++ [e.buf] ∧ (u.inbox x key).reserved = (s.inbox x key).reserved - 1) ∧
          (u.mem c).s = (s.mem c).s ∧ (∀ k, k ≠ c → u.core k = s.core k) ∧ SameHome s u) ∧
        (¬ answers → Leaves (.messageArrival c) s (((s1.modInbox x key (fun b => if b.reserved = 0 then b else { b with reserved := b.reserved - 1 })).errorRecord
          c (s.xctx c) 10 0 0 0).modMem c (fun m => (m.dropFlight 6 i).postPrefix 6 e.pfx)))))) ∧
  (∀ (s : State) (c due : Nat), (s.strict c = false → s.strictAt c due = some s) ∧ (s.strict c = true → s.ptc < due → s.strictAt c due = none) ∧
    (s.strict c = true → due ≤ s.ptc → s.strictAt c due = some (if due < s.ptc then s.strictMiss c else s))) ∧
  (∀ (s : State) (a ch : Nat),
    let k := s.cur.core
    let A := (s.rs a).toNat
    let x := s.ctxOn k
    let key := s.inboxKey x k ch
    (isSeq k = false → 2 ^ 24 < A + 64 → ∃ va, Traps (.xmsgrx a ch) s { cause := 0x11, taddr := va }) ∧
    (isSeq k = false → A + 64 ≤ 2 ^ 24 → A % 64 ≠ 0 → Traps (.xmsgrx a ch) s { cause := 0x13, taddr := A }) ∧
    (isSeq k = true → A + 64 ≤ 2 ^ 56 → A % 64 = 0 → Traps (.xmsgrx a ch) s { cause := 0x16 }) ∧
    (isSeq k = false → A + 64 ≤ 2 ^ 24 → A % 64 = 0 →
      ((s.inbox x key).msgs = [] → Waits (.xmsgrx a ch) s) ∧
      (∀ bs r, (s.inbox x key).msgs = bs :: r →
        (s.held? = true ∨ s.unmoved k 5 = true → Waits (.xmsgrx a ch) s) ∧
        (s.held? = false → s.unmoved k 5 = false → s.present? k [(A, 64)] = none → (s.core k).scratch.wf = true →
          ((s.core k).pages.map (·.1)).Pairwise (· < ·) → bs.length = 64 →
          ∃ u, Completes (.xmsgrx a ch) s u ∧ (u.inbox x key).msgs = r ∧ (∀ o, o < 64 → u.sbyte k (A + o) = bs.getD o 0) ∧
            (∀ p, p < A ∨ A + 64 ≤ p → u.sbyte k p = s.sbyte k p) ∧ u.mem k = s.mem k ∧ (∀ j, j ≠ k → u.core j = s.core j) ∧ SameHome s u)))) ∧
  (∀ (s : State) (a b c x : Nat), s.barrierCtx = .ok x →
    let k := s.cur.core
    let A := (s.rs a).toNat
    let q := (s.rs b).toNat
    let n := (s.rs c).toNat
    let i : Instr := .xhring a b c
    let r := tgetD (s.ctx x).rings q {}
    let fl := (s.hringsTo x q).foldl (fun t p => t + p.2.opv.getD 2 0) 0
    let w := (r.widx + fl) % 2 ^ 32
    let ok := 1 ≤ n ∧ n ≤ 16 ∧ A + 64 * n ≤ (if isSeq k = true then 2 ^ 56 else 2 ^ 24) ∧ A % 64 = 0
    (n = 0 ∨ 16 < n → Traps i s { cause := 0x52 }) ∧
    (ok → 63 < q → Traps i s { cause := 0x17, taddr := q }) ∧
    (ok → q ≤ 63 →
      (r.on = false → Waits i s) ∧
      (∀ t s1, r.on = true → s.hringPlaces k x r w n = (.error t, s1) → exec i s = .next (s1.finish (.trap t))) ∧
      (∀ ps s1, r.on = true → s.hringPlaces k x r w n = (.ok ps, s1) →
        (∀ t s2, s1.nearParts A (64 * n) = (.error t, s2) → exec i s = .next (s2.finish (.trap t))) ∧
        (∀ ns s2, s1.nearParts A (64 * n) = (.ok ns, s2) →
          let busy := s.held? = true ∨ s.ringRoom x q (fl + n) = false ∨ s.unmoved k 6 = true ∨ s.collAhead k [(false, A, 64 * n)] = true
          let flies := fun (s3 : State) (bs : List Byte) =>
            let es := (List.range n).map (fun j => (bs.drop (64 * j)).take 64) ++ [leBytes 8 ((w + n) % 2 ^ 32)]
            let ms : List Move := (ps.zip es).map (fun p => { src := .lit p.2, dst := .dev p.1.1 p.1.2, len := p.2.length })
            exec i s = .next (((if ms.any Move.far? = true then s3.strictMiss k else s3).modEnt
              (fun e => { e with opv := [x, q, n, w], moves := some ms, moved := 0, t0 := s3.ptc, era := s3.nextId })).finish .flying)
          (busy → Waits i s) ∧
          (∀ s3, ¬ busy → isSeq k = false → s2.present? k [(A, 64 * n)] = some s3 → exec i s = .next (s3.finish .wait)) ∧
          (¬ busy → isSeq k = false → s2.present? k [(A, 64 * n)] = none → s2.ue = [] →
            flies (s2.modCore k (fun y => y.used (pagesOf A (64 * n)) s2.ptc)) (s2.sread k A (64 * n))) ∧
          (¬ busy → isSeq k = true →
            let m := s2.memRead k (s2.xctx k) 0 0 (fun s l n => s.devRead k l n) ns
            flies m.2 m.1))))) ∧
  (∀ (s : State) (c n : Nat) (e : Entry),
    let i := n / 65536 % 65536
    let l := (s.mem c).fl 6
    l[i]? = some e → e.isHring = true → s.flows c = true → (s.mem c).behindStuck 6 e = false → s.mayMove c 6 (l.take i) e = true →
    let x := e.opv.getD 0 0
    let q := e.opv.getD 1 0
    (s.hringFirst e = false → Leaves (.transferComplete c 1 n) s s) ∧
    let W := (e.opv.getD 3 0 + e.opv.getD 2 0) % 2 ^ 32
    let bump := fun (r : HRing) => ({ r with widx := W } : HRing)
    (s.strictDue c e.due = none → Leaves (.transferComplete c 1 n) s s) ∧
    (∀ s1, s.hringFirst e = true → s.strictDue c e.due = some s1 → Leaves (.transferComplete c 1 n) s
      (((((s1.moveAll c (s1.xctx c) false (e.moves.getD [])).2).modCtx x (fun k => { k with rings := tset k.rings q (bump (tgetD k.rings q {})) })).ringCount
        x q (e.opv.getD 2 0)).modMem c (fun m => (m.dropFlight 6 i).postPrefix 6 e.pfx))))

/-- A member without a cask layout traps CASK_STATE on the KE instructions but KATTACH, KDETACH and KSTAT; a taken place at the port makes them wait; a
handle out of range or misaligned, a header page that fails, a header that breaks R269 and a control block that is no place trap with their cause.
KATTACH and KDETACH give the old REF and raise or lower it within its limits, KSTAT.cask gives STATE and COMMITW, KCOMMIT ends at once when N does not
exceed COMMITW and else issues, reads one mirror a turn and advances COMMITW when every mirror has reached N, KSNAP and KROLL.p give their status and
settle, KSNAP setting SNAP and REF 1; KFORK and KROLL.s end as their checks and the parent's SNAP and REF say. Each result comes at its strict time
(01 R32). KSTAT.slot reads a slot's status, KWAIT does not issue until the slot no longer racks, KROLL.c settles a RESIDENT slot, and KROUT of a slot
that is neither ACTIVE nor held, once a rack channel is free, starts racking it out. That KCOMMIT reads one mirror a turn and with STRICT = 1 makes
each read when the last one's reply is due, that KWAIT waits unissued, that KROUT waits for a channel, the order of the checks and the strict times
are the model's reading (log entry 25), and so is what a slab handle does (log entry 21). (R269, R271, R274, R278, R279, R281, R282, R283, R284, R285,
R286) -/
def Obligations.CaskInstructions : Prop :=
  (∀ (s : State) (d a b : Nat), s.cur.ent.issued = false →
    let none8 := [Instr.krin d a b, .krout d b, .ksnap d a, .kfork d a b, .krollC d b, .krollP d a, .krollS d a b, .kcommit d a b]
    let all11 := none8 ++ [.kattach d a, .kdetach d a, .kstatCask d a]
    (s.cm.kern.caskn = 0 → ∀ i ∈ none8 ++ [.kwait d b], Traps i s { cause := 0x70 }) ∧
    (s.cm.kern.caskn ≠ 0 → (s.core s.cur.core).port ≠ none → ∀ i ∈ all11, Waits i s)) ∧
  (∀ (s : State) (d a b : Nat), s.cur.ent.issued = false → s.cm.kern.caskn ≠ 0 → (s.core s.cur.core).port = none → s.ue = [] →
    let k := s.keParty
    let h := (s.rs a).toNat
    let rd := [Instr.kattach d a, .kdetach d a, .kstatCask d a, .krollP d a]
    let wr := [Instr.ksnap d a, .kcommit d a b]
    let ends : Instr → State → Nat → Nat × Nat → Prop := fun i u r due => exec i s = .next ((u.putS d (BitVec.ofNat 64 r)).paddedBy due)
    let status := fun (st cw : Nat) => st * 2 ^ 56 + cw % 2 ^ 32
    (2 ^ 56 ≤ h ∨ h / 2 ^ 48 = 255 → ∀ i ∈ rd ++ wr, Traps i s { cause := 0x10, taddr := h }) ∧
    (h < 255 * 2 ^ 48 → h % 64 ≠ 0 → ∀ i ∈ rd ++ wr, Traps i s { cause := 0x13, taddr := h }) ∧
    (h < 255 * 2 ^ 48 → h % 64 = 0 →
      (∀ t s1, s.translate k.party k.ctx h .read false = (.error t, s1) → ∀ i ∈ rd, exec i s = .next (s1.finish (.trap t))) ∧
      (∀ t s1, s.translate k.party k.ctx h .write false = (.error t, s1) → ∀ i ∈ wr, exec i s = .next (s1.finish (.trap t))) ∧
      (∀ kind l s1, s.translate k.party k.ctx h kind false = (.ok l, s1) →
        let x := parseHdr h l (s1.keRead k l 64)
        let s2 := s1.noteUnreachable k.party k.ctx h l
        let one := if kind = .read then [Instr.kattach d a, .kdetach d a, .kstatCask d a] else [Instr.kcommit d a b]
        (x.ok k = false → ∀ i ∈ one, exec i s = .next (s2.finish (.trap { cause := 0x70 }))) ∧
        (∀ cause, x.ok k = true → s2.ctlPlace k x.ctl x.nl = .error cause → ∀ i ∈ one, exec i s = .next (s2.finish (.trap { cause := cause, taddr := x.ctl }))) ∧
        (∀ w off, x.ok k = true → s2.ctlPlace k x.ctl x.nl = .ok (w, off) →
          let u := s2.farMiss k.party [l]
          let due := strictDelay k.party w 1
          let ref := u.accNat w off 4
          let cw := u.accNat w (off + 4) 4
          let st := u.accNat w (off + 8) 4
          let N := (s.rs b).toNat % 2 ^ 32
          u.ue = [] → (u.seat w).armed = [] →
          (kind = .read →
            ends (.kattach d a) (u.accPut w off 4 (if ref < 0x7FFFFFFF then ref + 1 else ref)) ref due ∧
            ends (.kdetach d a) (u.accPut w off 4 (if ref ≠ 0 ∧ ref < 2 ^ 31 then ref - 1 else ref)) ref due ∧
            ends (.kstatCask d a) u (st * 2 ^ 32 + cw) due) ∧
          (kind = .write →
            (N ≤ cw → ends (.kcommit d a b) u (status 0 cw) due) ∧
            (cw < N → RunsOn (.kcommit d a b) s (u.modEnt (fun e => 
              { s.padEntry (portDelay k.party w) e with opv := commitList N 0 x.nl true (w, off) l h, era := u.nextId }))))) ∧
        (let two := if kind = .read then [Instr.krollP d a] else [Instr.ksnap d a]
         (∀ t s3, s2.sliceHeads k .write x (List.range x.nl) = (.error t, s3) → ∀ i ∈ two, exec i s = .next (s3.finish (.trap t))) ∧
         (∀ ls s3, s2.sliceHeads k .write x (List.range x.nl) = (.ok ls, s3) → x.ok k = false → ∀ i ∈ two, exec i s = .next (s3.finish (.trap { cause := 0x70 })))) ∧
        (∀ ls s3 w off, x.ok k = true → s2.sliceHeads k .write x (List.range x.nl) = (.ok ls, s3) → s3.ctlPlace k x.ctl x.nl = .ok (w, off) →
          let u := s3.farMiss k.party (l :: ls)
          let due := strictDelay k.party w (1 + ls.length)
          let cw := u.accNat w (off + 4) 4
          let st := u.accNat w (off + 8) 4
          let code := if st % 65536 ≠ 0 then 1 else if bit st 31 = true then 4 else if bit st 30 = true then 5 else 0
          u.ue = [] → (u.seat w).armed = [] → (u.seat w).acc.wf = true →
          (kind = .write → code ≠ 0 → ends (.ksnap d a) u (status code cw) due) ∧
          (kind = .write → code = 0 → ∃ v, ends (.ksnap d a) v (status 0 cw) due ∧ v.accNat w off 4 = 1 ∧ bit (v.accNat w (off + 8) 4) 31 = true ∧
            v.accNat w (off + 4) 4 = cw) ∧
          (kind = .read → st % 65536 ≠ 0 → ends (.krollP d a) u (status 1 cw) due) ∧
          (kind = .read → st % 65536 = 0 → ∃ v, ends (.krollP d a) v (status 0 cw) due ∧ v.accNat w (off + 4) 4 = cw ∧ v.accNat w (off + 8) 4 = st))))) ∧
  (∀ (s : State) (d a b : Nat), s.cur.ent.issued = true →
    ((s.core s.cur.core).port ≠ none → Waits (.kcommit d a b) s) ∧
    ((s.core s.cur.core).port = none → s.padOver s.cur.core s.cur.ent = none → Waits (.kcommit d a b) s) ∧
    (∀ (N L nl : Nat) (ok : Bool) (w off : Nat) (l : Loc) (u : State), s.cur.ent.opv = commitList N L nl ok (w, off) l l.va → (s.core s.cur.core).port = none →
      s.padOver s.cur.core s.cur.ent = some u → u.ue = [] →
      let ends : State → Nat → Prop := fun v r => exec (.kcommit d a b) s = .next ((v.putS d (BitVec.ofNat 64 r)).paddedBy (strictDelay u.cur.core w 1))
      (L < nl → RunsOn (.kcommit d a b) s (u.modEnt (fun e => { u.padEntry (portDelay u.cur.core w) e with
        opv := commitList N (L + 1) nl (ok && decide (N ≤ u.accNat w (off + 16 + 4 * L) 4)) (w, off) l l.va }))) ∧
      (nl ≤ L → ok = false → ends u (3 * 2 ^ 56 + u.accNat w (off + 4) 4 % 2 ^ 32)) ∧
      (nl ≤ L → ok = true → N < 2 ^ 32 → (u.seat w).armed = [] → (u.seat w).acc.wf = true →
        ends ((u.accPut w (off + 4) 4 N).keWrite u.keParty (l.add 8) (leBytes 4 N)) N))) ∧
  (∀ (s : State) (d a b : Nat), s.cm.kern.caskn ≠ 0 → (s.core s.cur.core).port = none →
    let k := s.keParty
    let two : Instr → ForkKind → Prop := fun i f =>
      (∀ t u, s.keFork k f (s.rs a).toNat (s.rs b).toNat = .trap t u → exec i s = .next (u.finish (.trap t))) ∧
      (∀ r u due, s.keFork k f (s.rs a).toNat (s.rs b).toNat = .fin r false u due → exec i s = .next ((u.putS d (BitVec.ofNat 64 r)).paddedBy due)) ∧
      (∀ r u due, s.keFork k f (s.rs a).toNat (s.rs b).toNat = .fin r true u due →
        exec i s = .next ((u.putS d (BitVec.ofNat 64 r)).finish (.trapDone { cause := 0x80 })))
    two (.kfork d a b) .kfork ∧ two (.krollS d a b) .krollS) ∧
  (∀ (s : State) (k : KeBy) (p c : CaskHdr) (lp lc : List Loc), s.ue = [] →
    let pc := s.ctlOf k p
    let st := s.accNat pc.1 (pc.2 + 8) 4
    let ref := s.accNat pc.1 pc.2 4
    (bit st 31 = false → s.forkOp k p c lp lc = (4, false, s)) ∧ (bit st 31 = true → 0x7FFFFFFF ≤ ref → s.forkOp k p c lp lc = (2, false, s)) ∧
    (bit st 31 = true → ref < 0x7FFFFFFF → (s.forkOp k p c lp lc).1 = 0)) ∧
  (∀ (s : State) (d b : Nat),
    let v := (s.rs b).toNat
    let w := s.slotCore v
    let n := v % 256
    let x := s.slot w n
    let bad := (isSeq s.cur.core = false ∧ v / 2 ^ 58 ≠ 0) ∨ (x.state ≠ .empty ∧ isSeq s.cur.core = false ∧ x.ctx ≠ s.ctxOn s.cur.core)
    let word := if x.state = .empty then 0 else s.lstep w x x.first * 2 ^ 32 + x.first * 2 ^ 12 + b2n x.damaged * 16 + b2n x.snap * 8 + x.state.code
    let racks := x.state = .rackingIn ∨ x.state = .rackingOut
    let ctl := s.slotCtl s.keParty x
    let cw := s.accNat ctl.1 (ctl.2 + 4) 4
    (bad → Traps (.kstatSlot d b) s { cause := 0x71 }) ∧ (¬ bad → Puts (.kstatSlot d b) s d (BitVec.ofNat 64 word)) ∧
    (s.cm.kern.caskn ≠ 0 →
      (bad → Traps (.kwait d b) s { cause := 0x71 }) ∧ (¬ bad → ¬ racks → Puts (.kwait d b) s d (BitVec.ofNat 64 word)) ∧ (¬ bad → racks → Waits (.kwait d b) s)) ∧
    (s.cur.ent.issued = false → s.cm.kern.caskn ≠ 0 → (s.core s.cur.core).port = none → s.ue = [] →
      (bad ∨ x.state = .empty → Traps (.krollC d b) s { cause := 0x71 } ∧ Traps (.krout d b) s { cause := 0x71 }) ∧
      (¬ bad → x.state ≠ .empty →
        let ends := fun (u : State) (r : Nat) => exec (.krollC d b) s = .next ((u.putS d (BitVec.ofNat 64 r)).paddedBy (strictDelay s.cur.core ctl.1 0))
        (x.state ≠ .resident ∨ x.held = true → ends s (2 ^ 56 + cw % 2 ^ 32)) ∧
        (x.state = .resident → x.held = false →
          let r := s.settleSlot w n ctl cw
          (r.1 = false → ends r.2 (cw % 2 ^ 32)) ∧
          (r.1 = true → exec (.krollC d b) s = .next ((r.2.putS d (BitVec.ofNat 64 (cw % 2 ^ 32))).finish (.trapDone { cause := 0x80 })))) ∧
        (let damaged := x.damaged = true ∨ bit (s.accNat ctl.1 (ctl.2 + 8) 4) 30 = true
         s.headMoves s.keParty x = if damaged then s.kePages s.keParty .write x.handle 64 else (.ok [], s)) ∧
        (∀ t s1, s.headMoves s.keParty x = (.error t, s1) → exec (.krout d b) s = .next (s1.finish (.trap t))) ∧
        (∀ hs s1, s.headMoves s.keParty x = (.ok hs, s1) →
          (∀ t s2, s1.sliceMoves s.keParty x = (.error t, s2) → exec (.krout d b) s = .next (s2.finish (.trap t))) ∧
          (∀ ms s2, s1.sliceMoves s.keParty x = (.ok ms, s2) →
            (x.state = .active ∨ x.held = true → Completes (.krout d b) s (s2.putS d (BitVec.ofNat 64 (2 ^ 56 + s.lstep w x x.first % 2 ^ 32)))) ∧
            (x.state ≠ .active → x.held = false → racks ∨ s.rackFree w = false → Waits (.krout d b) s) ∧
            (x.state = .resident → x.held = false → s.rackFree w = true →
              exec (.krout d b) s = .next (((s2.farMiss s.cur.core (hs ++ moveLocs ms)).setSlot w n { x with
                state := .rackingOut, unit := 0, by_ := s.cur.core
                ent := { s.padEntry (strictDelay s.cur.core ctl.1 ms.length) s.cur.ent with issued := true, moves := some ms, opv := [], era := s.nextId } }).finish .gone)))))))

/-- A KRIN whose header, slice headers, banks and slot pass the checks of R279 makes its slot RACKING-IN with the cask's handle, layers and layout, raises
RESN by one, and leaves its stream; without a free rack channel it waits. RACK_IN_COMPLETE copies up to n units of 64 bytes from the casks that hold
the banks; after the last it settles the layers, the slot is RESIDENT, under STRICT at its strict time, and the instruction's register takes its
status. RACK_OUT_COMPLETE writes up to n units back; after the last RESN falls by one and the slot is EMPTY. An event of a slot that does not rack so,
or whose core does not run on, changes nothing. That n, the number of units that move, is an operand of the event is the model's choice (log entry
12); that flips, settles and KROUT use the CTL that KRIN read, that racking waits for a channel and when a strict time ends are its reading (log entry
25), and so is RESN modulo 2 to the 16 (log entry 56). (R274, R276, R280) -/
def Obligations.RackingSlots : Prop :=
  (∀ (s s1 s2 s3 s4 : State) (d a b : Nat) (x : CaskHdr) (xo : List CaskHdr) (hs : List RackHead) (ms : List Move),
    let k := s.keParty
    let h := (s.rs a).toNat
    let v := (s.rs b).toNat
    let w := s.slotCore v
    let n := v % 256
    let first := bits v 19 8
    let nl := bits v 31 20
    let layers := (List.range (nl + 1)).map (fun i => i + first)
    let srcs := hs.filterMap (fun p => if sharedOf p.bytes = true then some (p.layer, srcOf p.bytes) else none)
    let slot : Slot := { state := .rackingIn, ctx := s.slotCtx w, handle := h, first := first, nl := nl, off := bits v 47 32, ctl := x.ctl, nlayers := x.nl, bankb := x.bankb, srcs := srcs, by_ := s.cur.core }
    s.cur.ent.issued = false → s.cm.kern.caskn ≠ 0 → (s.core s.cur.core).port = none →
    first + nl < x.nl → v / 2 ^ 48 % 1024 = 0 → (isSeq s.cur.core = false → v / 2 ^ 58 = 0) →
    s.keHeader k .read h = (.ok x, s1) → s1.rackHeads k x layers = ([], hs, s2) →
    s2.keHeaders k (srcs.map (fun p => (p.2, Access.read))) = ([], xo, s3) → s3.bankMoves k slot = (.ok ms, s4) →
    s4.hdrErrs k (x :: xo) false = [] →
    (s4.slotClash w n (slot.off * 64) (slot.off * 64 + (nl + 1) * x.sliceb) = true → exec (.krin d a b) s = .next (s4.finish (.trap { cause := 0x71 }))) ∧
    (s4.slotClash w n (slot.off * 64) (slot.off * 64 + (nl + 1) * x.sliceb) = false →
      let ctl := s4.ctlOf k x
      (s4.rackFree w = false → Waits (.krin d a b) s) ∧
      (s4.rackFree w = true → s4.ue = [] → (s4.seat ctl.1).armed = [] → (s4.seat ctl.1).acc.wf = true →
        ∃ u : State, exec (.krin d a b) s = .next (u.finish .gone) ∧
          u.slot w n = { slot with damaged := hs.any (fun p => p.bad), ent := { s4.padEntry (strictDelay s4.cur.core ctl.1 ms.length) s4.cur.ent with
            issued := true, moves := some ms, opv := [], era := s4.nextId } } ∧
          u.accNat ctl.1 (ctl.2 + 8) 4 % 65536 = (s4.accNat ctl.1 (ctl.2 + 8) 4 + 1) % 65536))) ∧
  (∀ (s : State) (w n k : Nat), (s.slot w n).state ≠ .rackingIn ∨ s.flows (s.slot w n).by_ = false → Leaves (.rackInComplete w n k) s s) ∧
  (∀ (s : State) (w n k : Nat), (s.slot w n).state ≠ .rackingOut ∨ s.flows (s.slot w n).by_ = false → Leaves (.rackOutComplete w n k) s s) ∧
  (∀ (s : State) (w n k : Nat) (ms : List Move),
    let x := s.slot w n
    x.ent.moves = some ms → s.flows x.by_ = true →
    (x.state = .rackingIn →
      let s1 := s.rackIn w n k x ms
      let y := s1.slot w n
      (y.unit < ms.length ∨ (s.core x.by_).port ≠ none → Leaves (.rackInComplete w n k) s s1) ∧
      (ms.length ≤ y.unit → (s.core x.by_).port = none → y.ent.opv ≠ [1] →
        let ctl := s1.slotCtl (s.rackParty x) x
        let st := s1.ctlRead (s.rackParty x) ctl 8
        let cw := st.2.ctlRead (s.rackParty x) ctl 4
        let r := cw.2.settleSlot w n ctl cw.1
        r.1 = false →
          (r.2.padOver x.by_ y.ent = none → Leaves (.rackInComplete w n k) s s1) ∧
          (r.2.padOver x.by_ y.ent ≠ none → ∃ u, Leaves (.rackInComplete w n k) s u ∧ (u.slot w n).state = .resident ∧
            (u.slot w n).snap = bit st.1 31 ∧ (u.slot w n).unit = 0 ∧ (u.slot w n).handle = y.handle))) ∧
    (x.state = .rackingOut →
      let s1 := s.rackOut w n k x ms
      let y := s1.slot w n
      let ctl := s1.slotCtl (s.rackParty x) x
      (y.unit < ms.length ∨ (s.core x.by_).port ≠ none → Leaves (.rackOutComplete w n k) s s1) ∧
      let st := s1.ctlRead (s.rackParty x) ctl 8
      (ms.length ≤ y.unit → (s.core x.by_).port = none → (st.2.seat ctl.1).armed = [] → ((s1.seat w).slots.map (·.1)).Pairwise (· < ·) →
        let u1 := st.2.accPut ctl.1 (ctl.2 + 8) 4 (setBits st.1 15 0 (bits st.1 15 0 + 65535))
        (u1.padOver x.by_ y.ent = none → Leaves (.rackOutComplete w n k) s s1) ∧
        (u1.padOver x.by_ y.ent ≠ none → ∃ u, Leaves (.rackOutComplete w n k) s u ∧ (u.slot w n).state = .empty)))) ∧
  (∀ (s : State) (w n va : Nat) (l : Loc) (x : Slot) (ms : List Move), s.ue = [] →
    let b := s.rackParty x
    ms[x.unit]? = some { src := .dev va l, dst := .lit [], len := 64 } → s.slot w n = x →
    let t := s.noteUnreachable b.party b.ctx x.handle l
    s.rackIn w n 1 x ms = (t.caskPut w (x.bankUnit x.unit) (t.keRead b l 64)).setSlot w n { t.slot w n with unit := x.unit + 1 })

/-- CTRI, CHIST, CMAXI, CSUM and CBCAST trap RESERVED_FIELD on a reserved bit of s[c], XFER_SHAPE on a sequencer or a limit of R425, and the cause of a
source or destination out of range or misaligned; they wait while four instances of their channel are undelivered, and else arrive: the channel counts
the issue and the instruction flies with its operands. INSTANCE_BEGIN takes the next instance once every team member has arrived: their instructions
complete and the instance holds the combined result, or the failure XFER_SHAPE when they disagree; INSTANCE_DELIVERY writes one unit of the oldest
result at one receiver, 64 bytes of scratch or an aligned word of a frame, or what is left of it and counts it delivered at every member, a failed one
marking the channel. A delivery changes nothing before the strict time where a member has STRICT = 1, and writes nothing where a collective that
stands before the receiver's own and has not begun is to read it (R433); a group that stays only for its begun instances ends with the last one. CWAIT
waits until at most s[a] instances are undelivered, then completes or traps, as completed, with the mark, which it clears. The tree of R426 combines
neighbours in position order. That the event names the unit is the model's choice (log entry 12); the order of the checks and when an instance begins
are its reading (log entry 30), and so are the units and what a begun instance holds (log entry 37). (R420, R421, R422, R424, R425, R426, R428, R430,
R431, R432, R436) -/
def Obligations.Collectives : Prop :=
  (∀ (s : State) (a b c all ch dt cnt mass bb dd mn root : Nat),
    let k := s.cur.core
    let A := (s.rs a).toNat
    let B := (s.rs b).toNat
    let V := (s.rs c).toNat
    let w := collWidth dt
    let pos := s.teamPos k
    let x := s.cm.chan ch
    let arrives : Instr → Nat → Bool → Bool → Prop := fun i cv bad shape =>
      let acc := i = .ctri a b all ch cnt dd
      let n := collBytes i
      let part := fun (rd : Bool) (dst : Bool) (v len : Nat) => if rd = true then s.collErrs (decide acc) dst v len else []
      let errs := part (collReads i pos) false A n.1 ++ part (collRecv i pos) true B n.2
      s.cur.ent.issued = false →
      (bad = true → Traps i s { cause := 0x03 }) ∧
      (bad = false → isSeq k = true ∨ shape = true → Traps i s { cause := 0x52 }) ∧
      (bad = false → isSeq k = false → shape = false →
        (∀ t, firstErr errs = some t → Traps i s t) ∧
        (errs = [] →
          (4 ≤ x.issued - x.delivered → Waits i s) ∧
          (x.issued - x.delivered < 4 → exec i s = .next (((s.modCm (fun m => { m with chans := tset m.chans ch { x with issued := x.issued + 1 } })).modEnt
            (fun e => { e with opv := [x.issued, A, B, cv], moves := some [], moved := 0, t0 := s.ptc })).finish .flying))))
    arrives (.ctri a b all ch cnt dd) 0 false (decide (128 ≤ cnt)) ∧
    arrives (.chist a b c all ch dt cnt mass bb) V (decide (V % 2 ^ 32 / 2 ^ w ≠ 0 ∨ V / 2 ^ (32 + w) ≠ 0)) false ∧
    arrives (.cmaxi a b all ch dt cnt mn) 0 false false ∧
    arrives (.csum a b c all ch dt cnt) V (decide (2 ^ 32 ≤ V)) false ∧
    arrives (.cbcast a b ch cnt root) 0 false (decide (16384 < cnt + 1 ∨ s.teamSize k ≤ root)) ∧
    ((s.rs a).toNat < x.issued - x.delivered → Waits (.cwait a ch) s) ∧
    (x.issued - x.delivered ≤ (s.rs a).toNat →
      (x.fail = 0 → Completes (.cwait a ch) s s) ∧
      (x.fail ≠ 0 → exec (.cwait a ch) s = .next ((s.modCm (fun m => { m with chans := tset m.chans ch { x with fail := 0 } })).finish (.trapDone { cause := x.fail }))))) ∧
  (∀ (s : State) (acc dst : Bool) (v n : Nat), acc = false → v % 64 = 0 → v + n ≤ 2 ^ 24 → s.collErrs acc dst v n = []) ∧
  (∀ (s : State) (g team ch : Nat),
    let G := s.group g
    let k := ((s.mem (s.memberCore G team)).chan ch).delivered + (G.pending team ch).length
    (s.parts G team ch k = none → Leaves (.instanceBegin g team ch) s s) ∧
    (∀ ps, s.parts G team ch k = some ps → (∀ p ∈ (List.range ps.length).zip ps, s.present? p.2.core (p.2.reads p.1) = none) →
      Leaves (.instanceBegin g team ch) s (s.begin_ g team ch k ps) ∧
      ∃ i, ((s.begin_ g team ch k ps).group g).insts = G.insts ++ [i] ∧ i.team = team ∧ i.ch = ch ∧ i.k = k ∧ i.t0 = s.ptc ∧
        (∀ y q, ps.head? = some q → y = collKey q.ins (q.ent.opv.getD 3 0) →
          ((∀ p ∈ ps, collKey p.ins (p.ent.opv.getD 3 0) = y) → i.fail = 0 ∧ i.data = collResult q.ins (q.ent.opv.getD 3 0) (s.readParts 0 ps).1) ∧
          ((∃ p ∈ ps, collKey p.ins (p.ent.opv.getD 3 0) ≠ y) → i.fail = 0x52 ∧ i.data = [])))) ∧
  (∀ (s : State) (g team ch : Nat) (i : Inst) (r : List Inst), ch < 8 →
    let G := s.group g
    (G.pending team ch = [] → Leaves (.instanceDelivery g team ch) s s) ∧
    let cores := ((List.range G.d).map (fun d => d * G.c + team)).filter (fun r => G.alive.contains r) |>.map (s.memberCore G)
    let early := i.fail = 0 ∧ s.ptc < i.t0 + 4000 ∧ ∃ c ∈ cores, s.strict c = true
    let held := ∃ d ∈ i.dsts, G.alive.contains d.1 = true ∧ s.sourceHeld G i d = true
    (G.pending team ch = i :: r → early → Leaves (.instanceDelivery g team ch) s s) ∧
    (G.pending team ch = i :: r → ¬ early → (s.resultsReady G i).1 = true → held → Leaves (.instanceDelivery g team ch) s s) ∧
    (G.pending team ch = i :: r → i.fail ≠ 0 → i.dsts = [] → i.acc = false → s.liveOf G = [] → ∃ u v : State, Leaves (.instanceDelivery g team ch) s (u.checkGroup g) ∧
      u = v.modGroup g (fun x => { x with insts := G.insts.filter (fun j => !(j.team == team && j.ch == ch && j.k == i.k)) }) ∧ v.groups = s.groups) ∧
    (G.pending team ch = i :: r → i.fail ≠ 0 → i.dsts = [] → i.acc = false → s.liveOf G ≠ [] → ∃ u, Leaves (.instanceDelivery g team ch) s u ∧
      (u.group g).insts = G.insts.filter (fun j => !(j.team == team && j.ch == ch && j.k == i.k)) ∧
      (∀ d, d < G.d → has G.alive (d * G.c + team) = true →
        (∀ e, e < G.d → e ≠ d → s.memberCore G (e * G.c + team) ≠ s.memberCore G (d * G.c + team)) →
        let y := (s.mem (s.memberCore G (d * G.c + team))).chan ch
        let z := (u.mem (s.memberCore G (d * G.c + team))).chan ch
        z.delivered = y.delivered + 1 ∧ z.issued = y.issued ∧ z.fail = if y.fail = 0 then i.fail else y.fail) ∧ SameHome s u) ∧
    (G.pending team ch = i :: r → i.fail = 0 → ¬ early → (s.resultsReady G i).1 = true → ¬ held → s.liveOf G ≠ [] → ∃ u, Leaves (.instanceDelivery g team ch) s u ∧
      (u.group g).insts = G.insts.filter (fun j => !(j.team == team && j.ch == ch && j.k == i.k)) ∧ SameHome s u) ∧
    (G.pending team ch = i :: r → ¬ early → (s.resultsReady G i).1 = false → Leaves (.instanceDelivery g team ch) s (s.resultsReady G i).2)) ∧
  (∀ (s : State) (g team ch n k : Nat) (i : Inst) (r : List Inst), ch < 8 → n < 8 →
    let G := s.group g
    let e : Instr := .instanceDelivery g team (ch + 8 * (8 * k + n + 1))
    let cores := ((List.range G.d).map (fun d => d * G.c + team)).filter (fun r => G.alive.contains r) |>.map (s.memberCore G)
    let early := i.fail = 0 ∧ s.ptc < i.t0 + 4000 ∧ ∃ c ∈ cores, s.strict c = true
    (G.pending team ch = i :: r → early → Leaves e s s) ∧
    (G.pending team ch = [] → Leaves e s s) ∧
    (G.pending team ch = i :: r → i.dsts[n]? = none ∨ i.sector n k = [] → Leaves e s s) ∧
    (∀ d, G.pending team ch = i :: r → ¬ early → i.dsts[n]? = some d → i.sector n k ≠ [] →
      let j : Inst := { i with data := i.sector n k }
      let ready := s.resultsReady G { j with dsts := [d] }
      (ready.1 = false → Leaves e s ready.2) ∧
      (ready.1 = true → s.sourceHeld G j d = true → Leaves e s s) ∧
      (ready.1 = true → s.sourceHeld G j d = false → Leaves e s ((ready.2.writeResult G j d).modGroup g (fun x => { x with insts := x.insts.map (fun y =>
        if y.team = i.team ∧ y.ch = i.ch ∧ y.k = i.k then { y with done := (8 * k + n) :: y.done } else y) }))))) ∧
  (∀ (s : State) (G : Group) (i : Inst) (d off : Nat) (bs : List Byte), G.alive.contains d = true → i.acc = false → i.data = [(0, bs)] →
    let c := s.memberCore G d
    s.present? c [(off, bs.length)] = none → (s.core c).scratch.wf = true → ((s.core c).pages.map (·.1)).Pairwise (· < ·) →
    (∀ o, o < bs.length → (s.writeResult G i (d, off)).sbyte c (off + o) = bs.getD o 0) ∧
    (∀ p, p < off ∨ off + bs.length ≤ p → (s.writeResult G i (d, off)).sbyte c p = s.sbyte c p)) ∧
  (∀ (x1 x2 x3 x4 x5 x6 x7 x8 : Nat) (f : Nat → Nat → Nat → Nat → Nat),
    tree f [x1] = some x1 ∧ tree f [x1, x2, x3] = some (f 2 0 (f 1 0 x1 x2) x3) ∧
    tree f [x1, x2, x3, x4, x5, x6, x7, x8] =
      some (f 3 0 (f 2 0 (f 1 0 x1 x2) (f 1 2 x3 x4)) (f 2 4 (f 1 4 x5 x6) (f 1 6 x7 x8)))) ∧
  (∀ (a b ch cnt root cv : Nat) (srcs : List (List Byte)), collResult (.cbcast a b ch cnt root) cv srcs = [(0, srcs.getD root [])])

/-- FETCH_LINE does nothing while fetch may not deal; a line that fails a check raises its fetch trap; a line for which an engine has no room is not
dealt; else its instructions enter the queues of their engines together in lane order and fetch goes to the branch target, the following line or a
loop's first line, or waits for the line's set-form STAGEs and ROTBs. The oldest refill fills its physical page and pins it, a write-back frees it for
what waits, sector by sector performed or recorded as lost. INVALIDATION_ACK adds the die once no holder is left there whose translation was made
before the invalidation began. STOP_COMPLETE makes every running core of the arc hold the context, and then faults the queues whose watchdogs asked
for the stop; of a stop that is pending at YIELDs it stops the cores one by one, those without a member at once and the others as their members stand
still; STOP_TIMEOUT after 20 us frees its cores and faults the context, and neither does anything otherwise. A LAUNCH finds its kernel or faults, and
is placed on free quarters of its partition, waits, or faults SHAPE; each core loads the text, a failure ending the launch; after the last the members
start while the queue is ACTIVE, their journal entry STARTED first, a LAUNCH.AT at its tick; one that fits while all 64 kernel-table entries are in
use forms no group (log entry 56). That the kernel is looked up before the shape and the quarters is the model's choice (log entry 27); the readings
that a core holds its context as its member stands still (log entry 32), what holds a translation (log entry 38) and when a member's writes are
performed (log entry 48) are the model's. (R90, R91, R68, R114, R155, R156, R158, R314, R316, R318, R381, R391) -/
def Obligations.FetchLaunchAndStop : Prop :=
  (∀ (s : State) (c : Nat),
    let m := s.mem c
    let n := m.fetch.next
    let ds := parseLanes (numbered ((s.core c).line n)) none
    let room := ∀ g, 1 ≤ g → g ≤ 7 → (m.q g).length + (ds.filter (fun d => d.eng == g)).length ≤ 16
    (s.mayFetch c = false → Leaves (.fetchLine c) s s) ∧
    (s.mayFetch c = true →
      (∀ x, s.lineTrap c n = some x → Leaves (.fetchLine c) s (s.modMem c (fun m => { m with fetchTrap := some (x, n) }))) ∧
      (s.lineTrap c n = none → ¬ room → Leaves (.fetchLine c) s s) ∧
      (s.lineTrap c n = none → room → ∃ m2 : Member, Leaves (.fetchLine c) s (s.modMem c (fun _ => m2)) ∧
        (∀ g, m2.q g = m.q g ++ (ds.filter (fun d => d.eng == g)).map (fun d => ({
          lanes := d.lanes, pfx := d.pfx, line := n, lane := d.lane, seqNo := m.nextSeq, stamp := m.stampFor (lineTag m.fetch.tag ds) } : Entry))) ∧
        m2.nextSeq = m.nextSeq + 1 ∧ m2.s = m.s ∧ m2.k = m.k ∧ m2.x = m.x ∧ m2.flight = m.flight ∧ m2.fetch.sets = (ds.filter Dealt.sets).length ∧
        (ds.find? Dealt.control = none → (∃ d ∈ ds, d.sets = true) → m2.fetch.past = some n) ∧
        (ds.find? Dealt.control = none → (∀ d ∈ ds, d.sets = false) →
          (m.fetch.loops = [] → m2.fetch.next = n + 1) ∧
          (∀ l r, m.fetch.loops = l :: r → l.last ≠ n → m2.fetch.next = n + 1) ∧
          (∀ l r, m.fetch.loops = l :: r → l.last = n → l.stages = 0 → m.lcOf l.lvl < l.e →
            m2.fetch.next = l.first ∧ tgetD m2.lc l.lvl 0 = BitVec.ofNat 64 (m.lcOf l.lvl + 1))) ∧
        (∀ d o, ds.find? Dealt.control = some d → d.instr = some (.b o) → s.targetCheck c (branchLine n 19 o) = none →
          m2.fetch.next = (branchLine n 19 o).toNat) ∧
        (∀ d, ds.find? Dealt.control = some d → d.op = 0x66 ∨ d.op = 0x67 → m2.fetch.stopped = true)))) ∧
  (∀ (s : State) (c page : Nat),
    let first := fun (k : Nat) => (s.core c).refills.head?.getD k = k
    let strictly := fun (due : Nat) => if due = 0 then some s else s.strictAt c due
    ((∀ k p, (s.core c).spage page = some (k, p) → p.state ≠ .refilling ∨ ¬ first k ∨ s.strictAt c p.due = none) → Leaves (.scratchRefillComplete c page) s s) ∧
    (∀ k p bs s0 s1, (s.core c).spage page = some (k, p) → p.state = .refilling → first k → s.strictAt c p.due = some s0 → s0.readBacking c p.ctx p.page = (bs, s1) →
      (s.core c).scratch.wf = true →
      ∃ u, Leaves (.scratchRefillComplete c page) s u ∧
        tget (u.core c).pages k = some { p with state := .pinned, held := p.pin, pin := false, dirty := [], last := s.ptc } ∧
        (∀ i, i < bs.length → mget (u.core c).scratch (k * 65536 + i) = bs.getD i 0) ∧
        (∀ a, a < k * 65536 ∨ k * 65536 + bs.length ≤ a → mget (u.core c).scratch a = mget (s.core c).scratch a) ∧
        (s.strict c = false → u.mem c = s0.mem c)) ∧
    ((∀ p, tget (s.core c).pages page = some p → p.state ≠ .writingBack ∨ strictly p.due = none) → Leaves (.scratchWritebackComplete c page) s s) ∧
    (∀ p s0, tget (s.core c).pages page = some p → p.state = .writingBack → strictly p.due = some s0 →
      let frees := fun (u : State) => u.modCore c (fun x => (x.freeSpage page).served s.ptc)
      (p.dirty = [] → Leaves (.scratchWritebackComplete c page) s (frees s0)) ∧
      (∀ i, p.dirty = [i] →
        let va := s0.backing p.ctx c p.page + 64 * i
        (∀ t s1, s0.translate c p.ctx va .write false = (.error t, s1) → Leaves (.scratchWritebackComplete c page) s
          (frees (s1.errorRecord c p.ctx 11 (p.page * 65536 + 64 * i) (p.page * 65536 + 64 * i) 0))) ∧
        (∀ l s1, s0.translate c p.ctx va .write false = (.ok l, s1) → s1.reachable (dieOf c) l = true → Leaves (.scratchWritebackComplete c page) s
          (frees (s1.performWrite c l (mread (s1.core c).scratch (page * 65536 + 64 * i) 64))))))) ∧
  (∀ (x : Core) (k now : Nat), (x.pages.map (·.1)).Pairwise (· < ·) → tget (x.freeSpage k).pages k = none ∧ (x.wants = [] → x.served now = x)) ∧
  (∀ (s : State) (i d : Nat),
    (tget s.invals i = none → Leaves (.invalidationAck i d) s s) ∧
    (∀ v, tget s.invals i = some v →
      let w : Inval := { v with acked := v.acked ||| 2 ^ d }
      let ended := w.acked = 255 ∧ v.after = 3
      (8 ≤ d ∨ s.holders i v d = true → Leaves (.invalidationAck i d) s s) ∧
      (d < 8 → s.holders i v d = false → ¬ ended → Leaves (.invalidationAck i d) s { s with invals := tset s.invals i w }) ∧
      (d < 8 → s.holders i v d = false → ended → ∃ u, Leaves (.invalidationAck i d) s u ∧ (u.ctx v.ctx).state = .free ∧
        (∀ p ∈ u.tri.keys, p.2.ctx ≠ v.ctx) ∧ (∀ x, x ≠ v.ctx → u.ctx x = s.ctx x)))) ∧
  (∀ (s : State) (x : Nat),
    ((s.ctx x).stop = none → Leaves (.stopComplete x) s s ∧ Leaves (.stopTimeout x) s s) ∧
    (∀ p, (s.ctx x).stop = some p →
      let still := ∀ c ∈ s.arcCores x, s.stands c x .running = true → (s.core c).standsStill = true
      let late := p.atOnce = true ∧ p.start + 20000 ≤ s.ptc
      let whole := ∀ c ∈ s.arcCores x, s.stands c x .running = true → s.gapAt c 5 = none ∧ s.gapAt c 6 = none
      let ended := (p.atOnce = true ∨ still) ∧ ¬ late ∧ whole ∧ s.instancesOpen x = false
      (late → Leaves (.stopComplete x) s s) ∧
      (p.atOnce = false → ¬ still → Leaves (.stopComplete x) s (s.holdStill x) ∧
        ∀ c ∈ s.arcCores x, s.stands c x .running = true → (s.seat c).present = false → ((s.holdStill x).core c).status = .holding) ∧
      (p.atOnce = true ∨ still → ¬ late → whole → s.instancesOpen x = true → Leaves (.stopComplete x) s s) ∧
      (ended → p.destroy = false → ∃ u, Leaves (.stopComplete x) s u ∧
        (u.ctx x).stop = none ∧ (u.ctx x).rdy = 0 ∧ (u.ctx x).stopped = p.start ∧
        (∀ c ∈ s.arcCores x, s.stands c x .running = true → (u.core c).status = .holding) ∧
        (∀ q ∈ p.dogs, (u.queue q).state = .faulted ∧ (u.queue q).cause = 0xB0)) ∧
      (ended → p.destroy = true → ∃ (u : State) (i : Nat), Leaves (.stopComplete x) s u ∧
        (u.ctx x).stop = none ∧ tget u.invals i = some { core := 0x3FF, kind := 1, ctx := x, arg := 0, after := 3 } ∧
        ∀ q, (s.queue q).ctx = x → (u.queue q).state = .disabled) ∧
      (¬ late → Leaves (.stopTimeout x) s s) ∧
      (late → p.destroy = false → ∃ u, Leaves (.stopTimeout x) s u ∧ (u.ctx x).stop = none ∧ (u.ctx x).rdy = 0 ∧
        ((s.ctx x).state = .running ∨ (s.ctx x).state = .preempting → (u.ctx x).state = .faulted ∧ (u.ctx x).cause = 0xB2) ∧
        ∀ c ∈ s.arcCores x, s.hasCtx c x = true → (u.core c).status = .free) ∧
      (late → p.destroy = true → ∃ (u : State) (i : Nat), Leaves (.stopTimeout x) s u ∧ (u.ctx x).stop = none ∧
        tget u.invals i = some { core := 0x3FF, kind := 1, ctx := x, arg := 0, after := 3 }))) ∧
  (∀ (s : State) (q : Nat) (i : Instr) (p : Cmd → Bool),
    (i = .launch q ∧ p = (fun e => e.kind == 1 && !e.stuck)) ∨ (i = .launchAt q ∧ p = (fun e => e.kind == 2 && !e.stuck)) ∨
      (i = .launchRetry q ∧ p = (fun e => e.stuck)) →
    let x := (s.queue q).ctx
    (s.launchOf q p = none → Leaves i s s) ∧
    (∀ n e, s.launchOf q p = some (n, e) →
      (∀ cause info s1, s.findKernel x (e.f 8 8) = (.fail cause info, s1) → Leaves i s (s1.finalize q n true cause info)) ∧
      (∀ k kern s1, s.findKernel x (e.f 8 8) = (.entry k kern, s1) → Leaves i s (s1.place q n e x kern (some k))) ∧
      (∀ kern s1, s.findKernel x (e.f 8 8) = (.fresh kern, s1) → Leaves i s (s1.place q n e x kern none)))) ∧
  (∀ (s : State) (q : Nat) (p : Cmd → Bool), (s.queue q).state ≠ .active ∨ (s.ctx (s.queue q).ctx).state ≠ .running ∨ (s.die 0).state = .quarantined →
    s.launchOf q p = none) ∧
  (∀ (s : State) (q n x : Nat) (e : Cmd) (kern : Kernel) (k : Option Nat),
    let d := kern.extent 2
    let c := kern.extent 1
    let a := e.f 48 1 % 8
    let spot := if (s.ctx x).kind = 1 then s.placeSup x a d kern else s.placeTenant x q a d c
    (spot = .bad → s.place q n e x kern k = s.finalize q n true 0xA1 0) ∧
    (spot = .none → (tgetD ((s.place q n e x kern k).queue q).cmds n {}).stuck = true) ∧
    (∀ qs, spot = .at_ qs → k = none → s.freeKernel x = none →
      (s.place q n e x kern k).groups = s.groups ∧ (tgetD ((s.place q n e x kern k).queue q).cmds n {}).stuck = true) ∧
    (∀ qs j, spot = .at_ qs → k = some j →
      let g := (s.place q n e x kern k).group s.nextId
      g.state = .loading ∧ g.alive = List.range (d * c) ∧ g.d = d ∧ g.c = c ∧ g.anchor = a ∧ g.quarters = qs ∧ g.kern = j ∧ g.queue = q ∧ g.jidx = n ∧
        g.ctx = (s.queue q).ctx ∧ g.at? = (if e.kind = 2 then some (e.f 56 8) else none) ∧ g.args = [e.f 16 8, e.f 24 8, e.f 32 8, e.f 40 8])) ∧
  (∀ (s : State) (x q a d c : Nat) (qs : List Nat), s.placeTenant x q a d c = .at_ qs →
    qs.length = d ∧ s.reservedBy x q = false ∧ ∀ i j, i < d → j < (c + 15) / 16 →
      s.inPart x (a + i) (qs.getD i 0 + j) = true ∧ ∀ g ∈ s.groupsOf x, g.2.holdsQuarter (a + i) (qs.getD i 0 + j) = false) ∧
  (∀ (s : State) (x q a d c : Nat), 8 < d ∨ 64 < c → s.placeTenant x q a d c = .bad) ∧
  (∀ (s : State) (g r : Nat),
    (tget s.groups g = none → Leaves (.textLoadComplete g r) s s ∧ Leaves (.launchAtStart g) s s) ∧
    (∀ G, tget s.groups g = some G →
      let c := s.memberCore G r
      let k := (tgetD (s.ctx G.ctx).kerns G.kern {}).kern
      let loads := G.state = .loading ∧ r ∈ G.alive ∧ r ∉ G.loaded ∧ (s.ctx G.ctx).state = .running
      let ready := (s.ctx G.ctx).state = .running ∧ G.state = .loading ∧ G.started = false ∧ ∀ j ∈ G.alive, j ∈ G.loaded
      let fin := fun (u : State) =>
        let v := u.modGroup g (fun y => { y with loaded := G.loaded ++ [r] })
        if ∀ j ∈ G.alive, j = r ∨ j ∈ G.loaded then v.groupReady g else v
      (ready → G.at? = none → Leaves (.textLoadComplete g r) s (s.groupReady g)) ∧
      (¬ loads → ¬ (ready ∧ G.at? = none) → Leaves (.textLoadComplete g r) s s) ∧
      (loads → (s.core c).text = (G.ctx + 1, G.kern) → Leaves (.textLoadComplete g r) s (fin s)) ∧
      (loads → (s.core c).text ≠ (G.ctx + 1, G.kern) →
        (∀ t s1, s.readArea c G.ctx (k.image + k.textoff) (32 * k.textn) .text = (.error t, s1) →
          Leaves (.textLoadComplete g r) s (s1.loadFails g t.cause)) ∧
        (∀ bs s1, s.readArea c G.ctx (k.image + k.textoff) (32 * k.textn) .text = (.ok bs, s1) → Leaves (.textLoadComplete g r) s
          (fin ((s1.modCore c (fun y => { y with lines := textLines k bs, text := (G.ctx + 1, G.kern) })).refreshKernels)))) ∧
      (G.started = true → s.groupReady g = (s.modGroup g (fun y => { y with state := y.prev })).checkGroup g) ∧
      (G.started = false →
        (s.mayStart G.queue = false → s.groupReady g = s) ∧
        (s.mayStart G.queue = true →
          (G.at? = none → s.groupReady g = s.startGroup g false) ∧
          (∀ t, G.at? = some t → s.groupReady g = if s.ptc < t then s else s.startGroup g (decide (t < s.ptc))))) ∧
      (G.at? = none → Leaves (.launchAtStart g) s s) ∧
      (∀ t, G.at? = some t →
        let starts := G.state = .loading ∧ G.started = false ∧ (∀ j ∈ G.alive, j ∈ G.loaded) ∧ t ≤ s.ptc ∧ s.mayStart G.queue = true
        (starts → Leaves (.launchAtStart g) s (s.startGroup g (decide (t + 100 < s.ptc)))) ∧ (¬ starts → Leaves (.launchAtStart g) s s)))) ∧
  (∀ (s s1 : State) (g r : Nat) (late : Bool),
    let G := s.group g
    let k := (tgetD (s.ctx G.ctx).kerns G.kern {}).kern
    let u := s.startGroup g late
    let w := s.modCmd G.queue G.jidx (fun e => { e with late := late })
    (w.start G.queue G.jidx = (false, s1) → u = s1) ∧
    (w.start G.queue G.jidx = (true, s1) → (u.group g).state = .running ∧ (u.group g).started = true ∧ (u.group g).late = late ∧
      (r ∈ G.alive → (∀ j ∈ G.alive, s.memberCore G j = s.memberCore G r → j = r) →
        (u.seat (s.memberCore G r)).present = true ∧ u.mem (s.memberCore G r) = startMember g r G k)))

/-- Register writes of a queue have no effect while the host cannot reach it; COMMIT advances the queue or faults it QUEUE_COMMIT, QCFG is taken only
while DISABLED, and ENABLE, PAUSE, RESUME, RESET and REWIND act in the states that R359 gives them and in no other. ACCEPT_COMMAND journals the
command at ACCEPT, faulting one that cannot be read or breaks its limits, and marks it REPLAY up to the ACCEPT that a REWIND left; the dispatcher
chooses a candidate of the highest PRIO, within its context the one that became one earliest. The watchdog counts while a command runs or a LAUNCH
cannot start, and when it expires it begins the stop of a running tenant context, and else faults every running command and the queue at once. Each
command that may begin has its effect and becomes COMPLETED, or FAULTED with its cause; COPY and FILL move a sector or a word at a time; COND re-arms
its queue. Waiting event records are appended when room frees, and a coalescing or unmasked vector is signalled. That a turn moves up to n sectors is
the model's choice (log entry 12), and so is how MSI-X vectors are masked and wait (log entry 8); when a watchdog counts, when a command is chosen and
starts and what RESUME and REWIND discard are its reading (log entry 24), and so is the order of a CASKOP's checks (log entry 25); REP past 65,535 is
a free value (log entry 47). (R356, R358, R359, R360, R362, R363, R366, R368, R369, R371, R373, R498) -/
def Obligations.QueuesCommandsAndEvents : Prop :=
  (∀ (s : State) (q v : Nat),
    (s.hostUp = false ∨ 1024 ≤ q → Leaves (.commitWrite q v) s s) ∧
    (s.hostKeyed = false ∨ 1024 ≤ q →
      ∀ i ∈ [Instr.qcfgWrite q v, .qctlEnable q, .qctlPause q, .qctlResume q, .qctlReset q, .qctlRewind q v], Leaves i s s) ∧
    (s.hostKeyed = false → Leaves (.msixUnmask v) s s)) ∧
  (∀ (s : State) (q v : Nat), s.hostKeyed = true → q < 1024 →
    let Q := s.queue q
    let w := v % 2 ^ 32
    let above := fun (a b : Nat) => (a + 2 ^ 32 - b % 2 ^ 32) % 2 ^ 32
    let bad := 2 ^ 31 ≤ above w Q.commit ∨ 2 ^ (Q.sz + 6) < above w Q.released
    let runs := ∃ p ∈ Q.cmds, p.2.state = .started
    (Q.state = .disabled → Leaves (.commitWrite q v) s s) ∧
    (s.hostUp = true → Q.state ≠ .disabled → bad → ∃ u, Leaves (.commitWrite q v) s u ∧ (u.queue q).state = .faulted ∧ (u.queue q).cause = 0xA3 ∧
      (u.queue q).commit = Q.commit) ∧
    (s.hostUp = true → Q.state ≠ .disabled → ¬ bad → Leaves (.commitWrite q v) s (s.modQueue q (fun x =>
      { x with commit := w, state := if Q.state = .idle ∧ w ≠ Q.accept then .active else Q.state }))) ∧
    (Q.state ≠ .disabled → Leaves (.qcfgWrite q v) s s) ∧
    (Q.state = .disabled → Leaves (.qcfgWrite q v) s (s.modQueue q (fun x => { x with
      wdog := max 1 (v / 2 ^ 32 % 2 ^ 24), jsz := min 10 (v / 2 ^ 28 % 16), sz := min 10 (v / 2 ^ 24 % 16), prio := v / 2 ^ 16 % 8, ctx := v / 2 ^ 8 % 256 }))) ∧
    (Q.state ≠ .disabled ∨ s.supervisor = none → Leaves (.qctlEnable q) s s) ∧
    (Q.state = .disabled → s.supervisor ≠ none → ∃ u, Leaves (.qctlEnable q) s u ∧ u = s.modQueue q (fun _ => u.queue q) ∧ (u.queue q).state = .idle ∧
      (u.queue q).commit = 0 ∧ (u.queue q).jread = 0 ∧ (u.queue q).accept = 0 ∧ (u.queue q).released = 0 ∧ (u.queue q).jwr = 0 ∧ (u.queue q).rep = 0 ∧
      (u.queue q).cmds = [] ∧ (u.queue q).ctx = Q.ctx ∧ (u.queue q).prio = Q.prio ∧ (u.queue q).qbase = Q.qbase ∧ (u.queue q).jbase = Q.jbase) ∧
    (Q.state ≠ .idle → Q.state ≠ .active → Leaves (.qctlPause q) s s) ∧
    (Q.state = .idle ∨ Q.state = .active → Leaves (.qctlPause q) s (s.modQueue q (fun x => { x with state := .paused })).noteCandidates) ∧
    (Q.state ≠ .paused → Q.state ≠ .faulted → Leaves (.qctlResume q) s s) ∧
    (Q.state = .paused ∨ Q.state = .faulted → ∃ u, Leaves (.qctlResume q) s u ∧ ((u.queue q).state = .active ∨ (u.queue q).state = .idle) ∧
      (∀ n e, tget Q.cmds n = some e → e.state = .faulted → (tgetD (u.queue q).cmds n {}).rel = true)) ∧
    (Q.state = .disabled ∨ runs → Leaves (.qctlReset q) s s) ∧
    (Q.state ≠ .disabled → ¬ runs → ∃ u, Leaves (.qctlReset q) s u ∧ (u.queue q).state = .disabled ∧
      (∀ n e, tget Q.cmds n = some e → e.state = .accepted ∨ e.state = .chosen → (tgetD (u.queue q).cmds n {}).state = .dropped)) ∧
    ((Q.state ≠ .paused ∧ Q.state ≠ .faulted) ∨ runs ∨ Q.named v = none → Leaves (.qctlRewind q v) s s) ∧
    (∀ n e, Q.state = .paused ∨ Q.state = .faulted → ¬ runs → Q.named v = some (n, e) →
      (2 ^ 31 ≤ above e.slot Q.released → Leaves (.qctlRewind q v) s s) ∧
      (above e.slot Q.released < 2 ^ 31 → ∃ u, Leaves (.qctlRewind q v) s u ∧ (u.queue q).accept = e.slot ∧ (u.queue q).state = Q.state ∧
        (u.queue q).replayAt = e.slot ∧ (e.slot ≠ Q.accept → (u.queue q).replaying ≠ 0) ∧
        (∀ m x, tget Q.cmds m = some x → x.state = .accepted ∨ x.state = .chosen → (tgetD (u.queue q).cmds m {}).state = .dropped)))) ∧
  (∀ (s : State) (q : Nat),
    let Q := s.queue q
    let r := s.readArea partyDispatcher Q.ctx (Q.qbase + 64 * (Q.accept % 2 ^ (Q.sz + 6))) 64 .read
    let taken := fun (u : State) (f : Cmd → Prop) => Leaves (.acceptCommand q) s u ∧ (u.queue q).accept = (Q.accept + 1) % 2 ^ 32 ∧
      (u.queue q).jwr = Q.jwr + 1 ∧ (tgetD (u.queue q).cmds Q.jwr {}).slot = Q.accept ∧
      ((tgetD (u.queue q).cmds Q.jwr {}).replay = true ↔ Q.replaying ≠ 0 ∧ Q.accept = Q.replayAt) ∧ f (tgetD (u.queue q).cmds Q.jwr {})
    let ok := Q.accepts = true ∧ (s.die 0).state ≠ .quarantined ∧ q < 1024
    (¬ ok → Leaves (.acceptCommand q) s s) ∧
    (∀ t s1, ok → r = (.error t, s1) → ∃ u, taken u (fun e => e.state = .faulted ∧ e.cause = t.cause)) ∧
    (∀ bs s1, ok → r = (.ok bs, s1) →
      (cmdOk bs (2 ^ (Q.sz + 6)) = false → ∃ u, taken u (fun e => e.state = .faulted ∧ e.cause = 0xA2)) ∧
      (cmdOk bs (2 ^ (Q.sz + 6)) = true → ∃ u, taken u (fun e => e.state = .accepted ∧ e.bytes = bs ∧ e.tacc = s.ptc)))) ∧
  (∀ s : State,
    let s1 := s.noteCandidates
    (s1.choice = none → Leaves .dispatcherChoice s s1) ∧
    (∀ q n e x k, s1.choice = some (q, n, e, x, k) →
      (∃ u, Leaves .dispatcherChoice s u ∧ (tgetD (u.queue q).cmds n {}).state = .chosen) ∧
      s1.candidate q = some (n, e) ∧ e.state = .accepted ∧ (s1.queue q).state = .active ∧ (s1.ctx (s1.queue q).ctx).state = .running ∧ x = (s1.queue q).ctx ∧
      (∀ j m f, s1.candidate j = some (m, f) → (s1.queue j).prio ≤ (s1.queue q).prio ∧
        ((s1.queue j).prio = (s1.queue q).prio → (s1.queue j).ctx = x → e.age ≤ f.age) ∧
        ((s1.queue j).prio = (s1.queue q).prio → (s1.queue j).ctx = tgetD s1.disp.lastCtx (s1.queue q).prio 256 → (s1.queue j).ctx < 256 →
          tgetD s1.disp.used (s1.queue q).prio 0 < (s1.ctx (s1.queue j).ctx).quota → x = (s1.queue j).ctx)))) ∧
  (∀ (s : State) (q : Nat),
    let Q := s.queue q
    let x := Q.ctx
    let stops := (s.ctx x).kind = 0 ∧ ((s.ctx x).state = .running ∨ (s.ctx x).stop.isSome = true)
    let runs := ∃ p ∈ Q.cmds, p.2.state = .started
    let stuck := (s.die 0).state ≠ .quarantined ∧ Q.state = .active ∧ (s.ctx x).state = .running ∧
      ∃ p ∈ Q.cmds, p.2.stuck = true ∧ p.2.state = .chosen ∧ ¬ (p.2.f 0 1 = 2 ∧ s.ptc < p.2.f 56 8)
    let due := Q.state ≠ .disabled ∧ (runs ∨ stuck) ∧ 1000 * Q.wdog ≤ Q.dog
    (¬ due → Leaves (.watchdog q) s s) ∧
    (∀ n, (runs ∧ Q.state ≠ .disabled → ((s.dogsRun n).queue q).dog = Q.dog + n) ∧ (¬ runs → ¬ stuck → ((s.dogsRun n).queue q).dog = Q.dog)) ∧
    (due → stops → Leaves (.watchdog q) s (s.beginStop x { dogs := [q] }) ∧
      ∃ p, ((s.beginStop x { dogs := [q] }).ctx x).stop = some p ∧ q ∈ p.dogs ∧ p.atOnce = true) ∧
    (due → ¬ stops → ∃ u, Leaves (.watchdog q) s u ∧ (u.queue q).state = .faulted ∧ (u.queue q).cause = 0xB0 ∧
      (∀ n e, tget Q.cmds n = some e → e.state = .started → (tgetD (u.queue q).cmds n {}).state = .faulted ∧ (tgetD (u.queue q).cmds n {}).cause = 0xB0))) ∧
  (∀ (s : State) (c n v : Nat),
    let r := tgetD (s.ctx c).rings n {}
    let due := r.time ≠ 0 ∧ 1 ≤ r.p ∧ r.time * 1000 ≤ s.ptc - r.t0
    let m := tgetD s.msix v {}
    ((s.ctx c).waiting = [] ∨ s.ringRoom c 64 1 = false → Leaves (.eventRecordAppend c) s s) ∧
    (∀ w l, (s.ctx c).waiting = w :: l → s.ringRoom c 64 1 = true → ∃ u, Leaves (.eventRecordAppend c) s u ∧
      u = (s.modCtx c (fun x => { x with waiting := l })).appendEntries c 64
        [if w.1 = true then w.2 else w.2.take 8 ++ leBytes 8 s.ptc ++ w.2.drop 16] ∧
      (tgetD (u.ctx c).rings 64 {}).widx = ((tgetD (s.ctx c).rings 64 {}).widx + 1) % 2 ^ 32) ∧
    (¬ due → Leaves (.coalescingTimeout c n) s s) ∧
    (due → Leaves (.coalescingTimeout c n) s ((s.modCtx c (fun x => { x with rings := tset x.rings n { r with p := 0 } })).signal r.vec)) ∧
    (m.masked = true ∨ s.fmask = true ∨ s.hostKeyed = false → s.signal v = { s with msix := tset s.msix v { m with pending := true } }) ∧
    (m.masked = false → s.fmask = false → s.hostKeyed = true → s.signal v = { s with irqs := s.irqs ++ [v] }) ∧
    (s.hostKeyed = true → (m.pending = true ∧ s.fmask = false → Leaves (.msixUnmask v) s
        { s with msix := tset s.msix v { m with masked := false, pending := false }, irqs := s.irqs ++ [v] }) ∧
      (m.pending = false ∨ s.fmask = true → Leaves (.msixUnmask v) s { s with msix := tset s.msix v { m with masked := false } }))) ∧
  (∀ (s : State) (q n k : Nat) (p : Cmd → Bool) (e : Cmd), s.cmdNext q k p = some (n, e) →
    let chosen := e.state = .chosen ∧ (s.die 0).state ≠ .quarantined ∧ (s.queue q).state = .active ∧ (s.ctx (s.queue q).ctx).state = .running
    e.kind = k ∧
    (e.state = .started → s.began q k p = some (n, e, s)) ∧
    (e.state ≠ .started → chosen ∧
      (∀ s1, s.start q n = (true, s1) → s.began q k p = some (n, tgetD (s1.queue q).cmds n {}, s1)) ∧
      (∀ s1, s.start q n = (false, s1) → s.began q k p = none ∧ s.unbegun q k p = s1))) ∧
  (∀ (s : State) (q k : Nat) (p : Cmd → Bool), s.cmdNext q k p = none → s.began q k p = none ∧ s.unbegun q k p = s) ∧
  (∀ (s s1 : State) (q n : Nat) (e : Cmd), tget (s.queue q).cmds n = some e → s.start q n = (true, s1) →
    (tgetD (s1.queue q).cmds n {}).state = .started ∧ (tgetD (s1.queue q).cmds n {}).tstart = s.ptc ∧ (tgetD (s1.queue q).cmds n {}).bytes = e.bytes) ∧
  (∀ (s : State) (q n cause info : Nat) (faulted : Bool) (e : Cmd), tget (s.queue q).cmds n = some e →
    let f := tgetD ((s.finalize q n faulted cause info).queue q).cmds n {}
    f.state = (if faulted = true then .faulted else .completed) ∧ f.cause = (if faulted = true then cause else 0) ∧ f.info = info ∧ f.tend = s.ptc ∧
    f.bytes = e.bytes ∧ (faulted = true → (s.queue q).state = .active → ((s.finalize q n faulted cause info).queue q).state = .faulted)) ∧
  (∀ (s : State) (q m : Nat),
    let any := fun (_ : Cmd) => true
    let none := fun (i : Instr) (k : Nat) (p : Cmd → Bool) => s.began q k p = none → Leaves i s (s.unbegun q k p)
    none (.cmdNop q) 0 any ∧ none (.copy q m) 3 any ∧ none (.fill q m) 4 any ∧ none (.signal q) 5 any ∧
    none (.wait q) 6 (fun e => e.reg.isNone || e.got.isSome) ∧ none (.cond q) 7 any ∧ none (.timestamp q) 8 any ∧ none (.hostring q) 9 any ∧
    none (.caskop q) 10 any) ∧
  (∀ (s s1 : State) (q m n : Nat) (e : Cmd),
    let any := fun (_ : Cmd) => true
    let x := s1.qctx q
    let fails := fun (i : Instr) (u : State) (cause : Nat) => Leaves i s (u.finalize q n true cause 0)
    let ends := fun (i : Instr) (u : State) => Leaves i s (u.finalize q n false 0 0)
    let bad := fun (a len : Nat) => 0 < len ∧ 255 * 2 ^ 48 < a + len
    (s.began q 0 any = some (n, e, s1) → ends (.cmdNop q) s1) ∧
    (s.began q 3 any = some (n, e, s1) →
      (bad (e.f 8 8) (e.f 24 8) ∨ bad (e.f 16 8) (e.f 24 8) → fails (.copy q m) s1 0x10) ∧
      (¬ bad (e.f 8 8) (e.f 24 8) → ¬ bad (e.f 16 8) (e.f 24 8) → Leaves (.copy q m) s (s1.copySteps q n (m + 1)))) ∧
    (s.began q 4 any = some (n, e, s1) →
      (bad (e.f 8 8) (e.f 16 8) → fails (.fill q m) s1 0x10) ∧ (¬ bad (e.f 8 8) (e.f 16 8) → Leaves (.fill q m) s (s1.fillSteps q n (m + 1)))) ∧
    (s.began q 5 any = some (n, e, s1) →
      (∀ cause u, s1.anonArrive x (e.f 8 1) = (some cause, u) → fails (.signal q) u cause) ∧ (∀ u, s1.anonArrive x (e.f 8 1) = (none, u) → ends (.signal q) u)) ∧
    (s.began q 6 (fun e => e.reg.isNone || e.got.isSome) = some (n, e, s1) →
      let strict := e.f 9 1 % 2 = 1
      let answered := fun (u : State) (w : Nat) =>
        (strict → w % 256 ≠ 0 → Leaves (.wait q) s (u.finalize q n true 0xA4 w)) ∧ (¬ strict ∨ w % 256 = 0 → Leaves (.wait q) s (u.finalize q n false 0 (w % 2 ^ 32)))
      (∀ w, e.got = some w → answered s1 w) ∧
      (e.got = none → (s1.ctx x).state ≠ .running → Leaves (.wait q) s s1) ∧
      (∀ b u, e.got = none → (s1.ctx x).state = .running → s1.mapEntry 0 x (e.f 8 1) = (b, u) →
        (∀ cause, u.barrierPlace partyDispatcher x b = .error cause → fails (.wait q) u cause) ∧
        (∀ w off, u.barrierPlace partyDispatcher x b = .ok (w, off) → u.ue = [] →
          let v := u.bctl w off
          let st := v / 2 ^ 61 % 8
          (st = 0 ∨ 4 < st → fails (.wait q) u 0x83) ∧
          (st = 1 → Leaves (.wait q) s (u.modCmd q n (fun e => { e with reg := some (w, off, bGen v), got := none }))) ∧
          (2 ≤ st → st ≤ 4 → answered u (bGen v * 65536 + bCause v * 256 + (if st = 2 then b2n (bShort v) else st)))))) ∧
    (s.began q 7 any = some (n, e, s1) →
      (∀ cause, s1.accPlace 0 x (e.f 8 4) = .error cause → fails (.cond q) s1 cause) ∧
      (∀ c off, s1.accPlace 0 x (e.f 8 4) = .ok (c, off) → s1.ue = [] →
        let w := s1.accNat c off 4
        let ref := e.f 12 4
        let op := e.f 16 1 % 4
        let holds := if op = 0 then w = ref else if op = 1 then w ≠ ref else if op = 2 then w < ref else ref ≤ w
        let again := holds ∧ (e.f 18 2 = 0 ∨ (s1.queue q).rep < e.f 18 2)
        (again → Leaves (.cond q) s (((s1.modCmd q n (fun e => { e with rearm := true })).modQueue q (fun y => { y with
          rep := if y.rep < 65535 then y.rep + 1 else Config.counterPast y.rep % 65536, accept := (e.slot + 2 ^ 32 - e.f 20 2 % 2 ^ 32) % 2 ^ 32 })).finalize q n false 0 w)) ∧
        (¬ again → Leaves (.cond q) s ((s1.modQueue q (fun y => { y with rep := 0 })).finalize q n false 0 w)))) ∧
    (s.began q 8 any = some (n, e, s1) →
      (∀ t u, s1.translate partyDispatcher x (e.f 8 8) .write false = (.error t, u) → fails (.timestamp q) u t.cause) ∧
      (∀ l u, s1.translate partyDispatcher x (e.f 8 8) .write false = (.ok l, u) → u.reachable 0 l = true →
        ends (.timestamp q) (u.systemWrite partyDispatcher l (leBytes 8 e.tstart)))) ∧
    (s.began q 9 any = some (n, e, s1) →
      let far := bad (e.f 16 8) (64 * 2 ^ e.f 9 1) ∨ bad (e.f 24 8) 8
      (far → fails (.hostring q) s1 0x10) ∧
      (¬ far → e.f 8 1 < 64 → s1.hringsTo x (e.f 8 1) ≠ [] → fails (.hostring q) s1 0x17) ∧
      (¬ far → 64 ≤ e.f 8 1 ∨ s1.hringsTo x (e.f 8 1) = [] →
        let h := tgetD (s1.ctx x).hrread (e.f 8 1) 0
        let ring : HRing := { on := true, base := e.f 16 8, log2n := e.f 9 1, cnt := e.f 10 1, time := e.f 12 2, vec := e.f 14 2, waddr := e.f 24 8, widx := h }
        ends (.hostring q) ((s1.modCtx x (fun c => { c with rings := tset c.rings (e.f 8 1) ring })).ringWrite x (e.f 24 8) (leBytes 8 h)))) ∧
    (s.began q 10 any = some (n, e, s1) →
      let p := s1.translate partyDispatcher x (e.f 32 8) .write false
      let o := p.2.caskOf { party := partyDispatcher, ctx := x } (e.f 8 1) (e.f 9 1) (e.f 16 8) (e.f 24 8)
      (∀ t u, o = .trap t u → fails (.caskop q) u t.cause) ∧ (∀ u, o = .wait u → Leaves (.caskop q) s u) ∧
      (∀ r refused u due, o = .fin r refused u due →
        (∀ t, p.1 = .error t → fails (.caskop q) p.2 t.cause) ∧
        (∀ l, p.1 = .ok l → u.reachable 0 l = true →
          (refused = false → ends (.caskop q) (u.systemWrite partyDispatcher l (leBytes 8 r))) ∧
          (refused = true → fails (.caskop q) (u.systemWrite partyDispatcher l (leBytes 8 r)) 0x80))))) ∧
  (∀ (s : State) (q i k : Nat),
    let e := tgetD (s.queue q).cmds i {}
    let x := s.qctx q
    (e.f 24 8 ≤ e.done → s.copySteps q i (k + 1) = s.finalize q i false 0 0) ∧
    (∀ l m s1 s2, e.done < e.f 24 8 → s.translate partyDispatcher x (e.f 16 8 + e.done) .read false = (.ok l, s1) →
      s1.translate partyDispatcher x (e.f 8 8 + e.done) .write false = (.ok m, s2) → s2.reachable 0 l = true → s2.reachable 0 m = true → s2.ue = [] →
      let t := (s2.systemWrite partyDispatcher m (s2.homeRead 0 l 64)).modCmd q i (fun e => { e with done := e.done + 64 })
      s.copySteps q i (k + 1) = if e.f 24 8 ≤ e.done + 64 then t.finalize q i false 0 0 else t.copySteps q i k) ∧
    (∀ t s1, e.done < e.f 24 8 → s.translate partyDispatcher x (e.f 16 8 + e.done) .read false = (.error t, s1) →
      s.copySteps q i (k + 1) = s1.finalize q i true t.cause 0) ∧
    (e.f 16 8 ≤ e.done → s.fillSteps q i (k + 1) = s.finalize q i false 0 0) ∧
    (∀ l s1, e.done < e.f 16 8 → s.translate partyDispatcher x (e.f 8 8 + e.done) .write false = (.ok l, s1) → s1.reachable 0 l = true →
      let t := (s1.systemWrite partyDispatcher l (leBytes 8 (e.f 24 8))).modCmd q i (fun e => { e with done := e.done + 8 })
      s.fillSteps q i (k + 1) = if e.f 16 8 ≤ e.done + 8 then t.finalize q i false 0 0 else t.fillSteps q i k) ∧
    (∀ t s1, e.done < e.f 16 8 → s.translate partyDispatcher x (e.f 8 8 + e.done) .write false = (.error t, s1) →
      s.fillSteps q i (k + 1) = s1.finalize q i true t.cause 0))

/-- The driver's operations on a context take it between the states of R378 and in any other state only set RESULT: CREATE takes the descriptor, BIND and
REBIND the partition, UNBIND and CLEAR give it back, DISCARD ends its groups and keeps its accumulator blocks, DESTROY stops or tears it down; none
acts while the host cannot reach the device. A register write reaches the register at its offset and nothing elsewhere; a host access reads or writes
eight bytes at home, or nothing where no route leads. A posted write moves on toward home in order, or is lost where its home no longer answers, and a
dirty line may leave the L1 at any time. The time unit accepts edges, slews, steps and rates as R494 and R495 say, the power controller holds the
point at most at REQ, matrix arrays power down when idle and up in waves, and an unassigned opcode traps ILLEGAL_OP. (That the PTC stays at 2^64 − 1
once there and the numbers of a host access's spaces and bars are the model's own, log entries 12 and 8; what a host access gives where nothing
answers, which registers answer when, and MEAS are its reading, log entries 39, 40 and 43.) (R374, R376, R378, R380, R10, R416, R330, R338, R490,
R492, R494, R495) -/
def Obligations.ContextsRegistersTimeAndPower : Prop :=
  (∀ (s : State) (x v d : Nat),
    (s.hostKeyed = false ∨ 256 ≤ x → ∀ i ∈ [Instr.cdescWrite x v, .create x, .bind x, .unbind x, .rebind x, .clear x, .discard x, .destroy x], Leaves i s s) ∧
    (s.hostKeyed = false → ∀ i ∈ [Instr.ptcadjWrite v, .ptcstepWrite v, .ptcrateWrite v, .ptccfgWrite v, .pwrcapWrite v], Leaves i s s) ∧
    (s.hostKeyed = false ∨ 8 ≤ d → Leaves (.errorRegisterWrite d v) s s) ∧ (s.hostUp = false → Leaves (.registerWrite 2 d v) s s)) ∧
  (∀ (s : State) (x v : Nat), s.hostKeyed = true → x < 256 →
    let C := s.ctx x
    let bs := s.descriptor x
    let f := fieldOf bs
    let part := f 0x30 4
    let part6 := fun (c : Ctx) => ({ c with ad := part % 8, sq := part / 2 ^ 8 % 4, nq := part / 2 ^ 16 % 64 } : Ctx)
    let res := fun (i : Instr) (r : Nat) => Leaves i s (s.modCtx x (fun c => { c with result := r }))
    let aligned := f 0 8 % 4096 = 0 ∧ f 8 8 % 65536 = 0 ∧ f 0x10 8 % 65536 = 0 ∧ f 0x18 8 % 65536 = 0
    let zeros := (∀ b ∈ (bs.drop 0x34).take 204, b = 0) ∧ ∀ b ∈ bs.drop 0x900, b = 0
    let good := C.cdesc % 4096 = 0 ∧ hbmAssigned C.cdesc = true ∧ aligned ∧ f 0x28 2 ≤ 4096 ∧ f 0x2A 1 ≠ 0 ∧ f 0x2B 1 ≤ 1 ∧
      ¬ (f 0x2B 1 = 1 ∧ s.supervisor ≠ none) ∧ zeros
    (C.state = .free → Leaves (.cdescWrite x v) s (s.modCtx x (fun c => { c with cdesc := v }))) ∧
    (C.state ≠ .free → Leaves (.cdescWrite x v) s s ∧ res (.create x) 2) ∧
    (C.state = .free → ¬ good → res (.create x) 3) ∧
    (C.state = .free → good → ∃ u, Leaves (.create x) s u ∧ u = s.modCtx x (fun _ => u.ctx x) ∧
      (u.ctx x).state = (if f 0x2B 1 = 1 then .running else .created) ∧ (u.ctx x).root = f 0 8 ∧ (u.ctx x).sbase = f 8 8 ∧ (u.ctx x).xbase = f 0x10 8 ∧
      (u.ctx x).pbase = f 0x18 8 ∧ (u.ctx x).slabt = f 0x20 8 ∧ (u.ctx x).slabn = f 0x28 2 ∧ (u.ctx x).quota = f 0x2A 1 ∧ (u.ctx x).kind = f 0x2B 1 ∧
      (u.ctx x).cfg = f 0x2C 4 % 8 ∧ (u.ctx x).cause = 0 ∧ (u.ctx x).result = 0) ∧
    (C.state ≠ .created → res (.bind x) 2) ∧
    (C.state = .created → s.partOk x part = false → res (.bind x) 3) ∧
    (C.state = .created → s.partOk x part = true → Leaves (.bind x) s (s.modCtx x (fun c => part6 { c with state := .bound, result := 0, bound := true }))) ∧
    (s.partOk x part = true → 1 ≤ part / 2 ^ 16 % 64 ∧ part / 2 ^ 8 % 4 + part / 2 ^ 16 % 64 ≤ 32 ∧ ∀ p ∈ s.ctxs, p.1 ≠ x → p.2.isBound = true →
      (p.2.ad = part % 8 ∧ p.2.sq = part / 2 ^ 8 % 4 ∧ p.2.nq = part / 2 ^ 16 % 64) ∨
      ∀ i j, i < part / 2 ^ 16 % 64 → j < p.2.nq → (part % 8 * 4 + part / 2 ^ 8 % 4 + i) % 32 ≠ (p.2.ad * 4 + p.2.sq + j) % 32) ∧
    (C.state ≠ .bound → res (.unbind x) 2) ∧
    (C.state = .bound → ∃ u, Leaves (.unbind x) s u ∧ (u.ctx x).state = .created ∧ (u.ctx x).result = 0 ∧ (u.ctx x).rdy = 0 ∧
      ∀ c ∈ s.arcCores x, s.stands c x .loaded = true → (u.core c).status = .free) ∧
    (let shape := s.partOk x part = true ∧ part / 2 ^ 8 % 4 = C.sq ∧ part / 2 ^ 16 % 64 = C.nq
     let busy := s.hasFrame x = true ∨ s.coresBusy x = true
     (C.state ≠ .parked → res (.rebind x) 2) ∧ (C.state = .parked → ¬ shape → res (.rebind x) 3) ∧ (C.state = .parked → shape → busy → res (.rebind x) 1) ∧
     (C.state = .parked → shape → ¬ busy → Leaves (.rebind x) s (s.modCtx x (fun c => part6 { c with state := .parked, result := 0, bound := true })))) ∧
    (C.state ≠ .faulted → res (.clear x) 2 ∧ res (.discard x) 2) ∧
    (C.state = .faulted → s.coresBusy x = true → res (.clear x) 1 ∧ res (.discard x) 1) ∧
    (C.state = .faulted → s.coresBusy x = false → C.cause = 0xB3 → res (.clear x) 2) ∧
    (C.state = .faulted → s.coresBusy x = false → C.cause ≠ 0xB3 → Leaves (.clear x) s (s.modCtx x (fun c =>
      { c with state := if C.parked = [] then .saved else .parked, cause := 0, result := 0, rdy := 0 }))) ∧
    (C.state = .faulted → s.coresBusy x = false → ∃ u, Leaves (.discard x) s u ∧ (u.ctx x).state = (if C.parked = [] then .saved else .parked) ∧
      (u.ctx x).cause = 0 ∧ (u.ctx x).inbox = [] ∧ (u.ctx x).rdy = 0 ∧
      ∀ d, ∀ m ∈ (u.die d).frames, m.2.ctx = x → m.2.seat.present = false ∧ m.2.seat.slots = [] ∧ m.2.seat.copies = []) ∧
    (C.state = .free ∨ C.state = .destroying → res (.destroy x) 2) ∧
    (C.state ≠ .free → C.state ≠ .destroying →
      (C.kind = 0 → C.state = .running ∨ C.stop ≠ none → ∃ u p, Leaves (.destroy x) s u ∧ (u.ctx x).state = .destroying ∧ (u.ctx x).stop = some p ∧
        p.destroy = true ∧ p.atOnce = true) ∧
      (C.kind ≠ 0 ∨ (C.state ≠ .running ∧ C.stop = none) → ∃ (u : State) (i : Nat), Leaves (.destroy x) s u ∧ (u.ctx x).state = .destroying ∧
        tget u.invals i = some { core := 0x3FF, kind := 1, ctx := x, arg := 0, after := 3 } ∧ ∀ q, (s.queue q).ctx = x → (u.queue q).state = .disabled))) ∧
  (∀ (s : State) (n v o : Nat),
    let w := v % 2 ^ 64
    let at0 := fun (a : Nat) => Instr.registerWrite 0 a v
    let same := fun (a : Nat) (i : Instr) => exec (at0 a) s = exec i s
    (s.hostKeyed = true → n < 1024 →
      Leaves (at0 (0x100000 + 64 * n)) s (s.modQueue n (fun x => { x with qbase := w / 4096 * 4096 })) ∧
      Leaves (at0 (0x100008 + 64 * n)) s (s.modQueue n (fun x => { x with jbase := w / 4096 * 4096 })) ∧
      same (0x100010 + 64 * n) (.qcfgWrite n w) ∧ (w % 8 = 1 → same (0x100020 + 64 * n) (.qctlEnable n)) ∧
      (w % 8 = 2 → same (0x100020 + 64 * n) (.qctlPause n)) ∧ (w % 8 = 3 → same (0x100020 + 64 * n) (.qctlResume n)) ∧
      (w % 8 = 4 → same (0x100020 + 64 * n) (.qctlReset n)) ∧ (w % 8 = 5 → same (0x100020 + 64 * n) (.qctlRewind n (w / 2 ^ 32))) ∧
      exec (.registerWrite 2 (0x1000 * n) v) s = exec (.commitWrite n w) s ∧
      (s.hostUp = true → Leaves (.registerWrite 2 (0x1000 * n + 8) v) s (s.modQueue n (fun x => { x with jread := w % 2 ^ 32 })))) ∧
    (s.hostKeyed = true → n < 256 → same (0x110000 + 64 * n) (.cdescWrite n w) ∧ (w % 8 = 1 → same (0x110008 + 64 * n) (.create n)) ∧
      (w % 8 = 2 → same (0x110008 + 64 * n) (.bind n)) ∧ (w % 8 = 3 → same (0x110008 + 64 * n) (.unbind n)) ∧
      (w % 8 = 4 → same (0x110008 + 64 * n) (.rebind n)) ∧ (w % 8 = 5 → same (0x110008 + 64 * n) (.clear n)) ∧
      (w % 8 = 6 → same (0x110008 + 64 * n) (.discard n)) ∧ (w % 8 = 7 → same (0x110008 + 64 * n) (.destroy n)) ∧
      (s.hostUp = true → o ≤ 64 → Leaves (.registerWrite 2 (0x400000 + 0x1000 * n + 8 * o) v) s (s.modCtx n (fun x => { x with hrread := tset x.hrread o (w % 2 ^ 32) })))) ∧
    (s.hostKeyed = true → same 0x130000 (.pwrcapWrite w) ∧ (n < 8 → same (0x131000 + 64 * n) (.errorRegisterWrite n w)) ∧ same 0x132008 (.ptccfgWrite w) ∧
      same 0x132010 (.ptcadjWrite w) ∧ same 0x132020 (.ptcrateWrite w) ∧ same 0x132038 (.ptcstepWrite w)) ∧
    ((s.link 32).state ≠ .down → n < 33 → (w % 4 = 1 → same (0x120008 + 64 * n) (.lctlRekeyDir0 n)) ∧ (w % 4 = 2 → same (0x120008 + 64 * n) (.lctlRekeyDir1 n)) ∧
      (w % 4 = 3 → same (0x120008 + 64 * n) (.retrain n)) ∧ (16 ≤ n → n < 32 → same (0x120020 + 64 * n) (.stailWrite (n - 16) w))) ∧
    (s.hostKeyed = false → o < 0x120000 ∨ 0x120840 ≤ o → Leaves (at0 o) s s) ∧ ((s.link 32).state = .down → Leaves (at0 o) s s) ∧
    ((s.link 32).state ≠ .down → w % 2 = 1 → Leaves (.registerWrite 1 o v) s { s with fmask := true }) ∧
    ((s.link 32).state = .down → Leaves (.registerWrite 1 o v) s s) ∧ Leaves (.registerWrite 6 o v) s s ∧
    (0x120000 ≤ o → o < 0x121000 → exec (.registerWrite 4 o v) s = exec (at0 o) s) ∧ (o < 0x120000 ∨ 0x121000 ≤ o → Leaves (.registerWrite 4 o v) s s)) ∧
  (∀ (s : State) (space addr v : Nat),
    let a := addr / 8 * 8
    let l := s.hostLoc space addr
    let r := fun (x : Option Nat) => Leaves (.hostMemoryRead space addr) s { s with reads := s.reads ++ [x] }
    (s.hostReaches space addr = false → Leaves (.hostMemoryWrite space addr v) s (s.hostMiss space addr)) ∧
    (s.hostReaches space addr = true → s.memWf → ∃ u, Leaves (.hostMemoryWrite space addr v) s u ∧
      (∀ i, i < 8 → u.homeByte l i = BitVec.ofNat 8 (v / 2 ^ (8 * i))) ∧
      (∀ (p : Loc) (i : Nat), min p.tgt 2 ≠ l.tgt ∨ p.pa + i < a ∨ a + 8 ≤ p.pa + i → p.tgt ≠ 0 ∨ p.key = s.key0 ∨ (p.pa + i) / 16 ≠ a / 16 →
        u.homeByte p i = s.homeByte p i) ∧ u.cores = s.cores ∧ u.dies = s.dies ∧ u.ctxs = s.ctxs ∧ u.queues = s.queues) ∧
    (space < 3 → s.hostReaches space addr = true → r (some (leNat ((List.range 8).map (s.homeByte l))))) ∧
    (space < 3 → s.hostReaches space addr = false → Leaves (.hostMemoryRead space addr) s
      { s.hostMiss space addr with reads := s.reads ++ [if space = 0 ∧ s.hostUp = false then none else some 0] }) ∧ (space = 3 → r (s.readBar0 a)) ∧ (space = 4 → r (s.readBar2 a)) ∧
    (space = 5 → 0x120000 ≤ addr → addr < 0x121000 → r (s.readBar0 a)) ∧ (space = 5 → addr < 0x120000 ∨ 0x121000 ≤ addr → r none) ∧ (space = 6 → r none)) ∧
  (∀ (s : State) (n : Nat), s.hostUp = true →
    (n < 1024 → s.readBar0 (0x100018 + 64 * n) = some (s.queue n).qstat ∧ s.readBar0 (0x100010 + 64 * n) = some (s.queue n).qcfg ∧
      s.readBar0 (0x100020 + 64 * n) = some 0 ∧ s.readBar2 (0x1000 * n) = some (s.queue n).commit ∧ s.readBar2 (0x1000 * n + 0x18) = some (s.queue n).released) ∧
    (n < 256 → s.readBar0 (0x110010 + 64 * n) = some ((s.ctx n).result * 2 ^ 16 + (s.ctx n).cause * 2 ^ 8 + (s.ctx n).state.code)) ∧
    (n < 33 → s.readBar0 (0x120000 + 64 * n) = some (s.link n).lstat) ∧ s.readBar0 0x120C00 = some s.tstat ∧ s.readBar0 0x130000 = some s.pwrcap ∧
    s.readBar0 0x132000 = some (s.ptc % 2 ^ 64)) ∧
  (∀ (s : State) (a : Nat), (s.hostUp = false → s.readBar2 a = none) ∧ (s.hostKeyed = false → a < 0x120000 ∨ 0x121000 ≤ a → s.readBar0 a = none) ∧
    ((s.link 32).state = .down → s.readBar0 a = none)) ∧
  (∀ (s : State) (k i : Nat) (w : MemWrite),
    let free := fun (q : List MemWrite) => ∀ v ∈ q.take i, v.loc.sector ≠ w.loc.sector ∧ (w.loc.tgt = 0 ∨ v.loc.tgt = 0 ∨ v.core ≠ w.core)
    let q0 := (s.core k).outq
    let q1 := (s.die k).ordq
    (q0[i]? = some w → free q0 → Leaves (.writeForward 0 k i) s
      ((s.modCore k (fun x => { x with outq := q0.eraseIdx i })).modDie (dieOf k) (fun x => { x with ordq := x.ordq ++ [w] }))) ∧
    (q0[i]? = some w → ¬ free q0 → Leaves (.writeForward 0 k i) s s) ∧
    (∀ x, q0[i]? = none → (s.core k).l1[i - q0.length]? = some x → x.dirty ≠ [] → Leaves (.writeForward 0 k i) s (s.evictLine k x)) ∧
    (q0[i]? = none → (∀ x, (s.core k).l1[i - q0.length]? = some x → x.dirty = []) → Leaves (.writeForward 0 k i) s s) ∧
    (q1[i]? = some w → free q1 →
      let t := s.modDie k (fun x => { x with ordq := q1.eraseIdx i })
      (t.reachable k w.loc = true → Leaves (.writeForward 1 k i) s (t.homeWrite k w.loc w.data)) ∧
      (t.reachable k w.loc = false → Leaves (.writeForward 1 k i) s { t with lost := t.lost ++ [w] })) ∧
    (q1[i]? = none ∨ (q1[i]? = some w ∧ ¬ free q1) → Leaves (.writeForward 1 k i) s s)) ∧
  (∀ (s : State) (v n : Nat),
    let t := s.time
    let past := fun (x : Nat) => max t.ptc (min x (2 ^ 64 - 1))
    let sat := fun (x : Int) => max (-(2 ^ 40)) (min (2 ^ 40) x)
    let edge := t.ppsen = true ∧ (decide (v = 1) = t.ppsedge) ∧ ∀ m, t.sincePps = some m → 999000000 ≤ m
    let late := (t.sincePps.map (fun m => decide (1001000000 ≤ m))).getD false
    let err : Int := let e : Int := ((t.ptc : Int) - t.phase) % 1000000000; if 500000000 ≤ e then e - 1000000000 else e
    (¬ edge → Leaves (.ppsEdge v) s s) ∧
    (edge → Leaves (.ppsEdge v) s { s with time := { t with miss := if late = true then min (t.miss + 1) 0xFFFFFFFF else t.miss, edge := t.ptc, edges := min (t.edges + 1) 0xFFFFFFFF, sincePps := some 0, pend := if t.ppslock = true then sat (t.pend - err) else t.pend } }) ∧
    (∀ m, t.sincePps = some m → t.ppsen = true → 1001000000 ≤ m → Leaves .ppsMiss s { s with time := { t with miss := min (t.miss + 1) 0xFFFFFFFF, sincePps := none } }) ∧
    (t.sincePps = none ∨ t.ppsen = false ∨ (∃ m, t.sincePps = some m ∧ m < 1001000000) → Leaves .ppsMiss s s) ∧
    (t.pend = 0 ∨ t.sinceSlew < (1000000 + t.slew - 1) / t.slew → Leaves .ptcSlew s s) ∧
    (t.pend ≠ 0 → (1000000 + t.slew - 1) / t.slew ≤ t.sinceSlew → ∃ u, Leaves .ptcSlew s u ∧
      u = { s with time := u.time, power := { s.power with mclk := s.power.mclk + clockMhz s.power.point } } ∧
      u.time.sinceSlew = 1 ∧ (0 < t.pend → u.time.pend = t.pend - 1) ∧ (t.pend < 0 → u.time.pend = t.pend + 1) ∧ t.ptc ≤ u.time.ptc ∧
      (t.rate = 0 → t.frac < 2 ^ 32 → u.time.ptc = if 0 < t.pend then past (t.ptc + 2) else t.ptc)) ∧
    (t.ptc ≤ (s.elapse n).ptc) ∧ (t.rate = 0 → t.frac < 2 ^ 32 → (s.elapse n).ptc = past (t.ptc + n)) ∧
    (s.hostKeyed = true →
      Leaves (.ptcadjWrite v) s { s with time := { t with pend := sat (t.pend + toSigned 64 v) } } ∧
      ((∀ p ∈ s.ctxs, p.2.state = .free ∨ p.2.kind = 1) → Leaves (.ptcstepWrite v) s { s with time := { t with ptc := min (t.ptc + v % 2 ^ 64) (2 ^ 64 - 1) } }) ∧
      ((∃ p ∈ s.ctxs, p.2.state ≠ .free ∧ p.2.kind ≠ 1) → Leaves (.ptcstepWrite v) s s) ∧
      Leaves (.ptcrateWrite v) s { s with time := { t with rate := max (-(2 ^ 22)) (min (2 ^ 22) (toSigned 64 v)) } } ∧
      Leaves (.ptccfgWrite v) s { s with time := { t with phase := min (v / 2 ^ 32 % 2 ^ 32) 999999999, slew := max (v / 2 ^ 8 % 2 ^ 8) 1, ppslock := bit v 2, ppsedge := bit v 1, ppsen := bit v 0 } })) ∧
  (∀ (s : State) (v g m c d row : Nat),
    let p := s.power
    let x := s.core c
    let busy := ∃ e r, x.seat.mem.q 3 = e :: r ∧ e.busy = true
    (s.hostKeyed = true → ∃ u, Leaves (.pwrcapWrite v) s u ∧ u = { s with power := u.power } ∧ u.power.req = min (v / 2 ^ 18 % 8) 4 ∧
      u.power.cap = max 400 (min 3200 (v % 2 ^ 16)) ∧ u.power.point = p.point ∧ u.power.wrote = (if u.power.cap = p.cap then p.wrote else s.ptc)) ∧
    (∃ u, Leaves (.dvfsPointChange v g m) s u ∧ u.power.point = min v p.req ∧ u.power.req = p.req ∧ u.power.cap = p.cap ∧
      (u.power.capped = true ↔ u.power.point < p.req ∨ u.power.gate = true) ∧ (u.power.gate = true ↔ g = 1 ∧ u.power.point = 0) ∧
      (p.wrote + 10000 ≤ s.ptc → u.power.meas ≤ p.cap) ∧ (min v p.req = p.point → u = { s with power := u.power })) ∧
    (x.arrayOn = true → ¬ busy → x.idleNs + 1000 ≤ s.ptc → Leaves (.arrayPowerDown c) s (s.modCore c (fun x => { x with arrayOn := false }))) ∧
    (x.arrayOn = false ∨ busy ∨ s.ptc < x.idleNs + 1000 → Leaves (.arrayPowerDown c) s s) ∧
    ((s.die d).wake = none → Leaves (.arrayWakeWave d row) s s) ∧
    (∀ t0, (s.die d).wake = some t0 → s.ptc < t0 + 64 * row → Leaves (.arrayWakeWave d row) s s) ∧
    (∀ t0, (s.die d).wake = some t0 → t0 + 64 * row ≤ s.ptc → ∃ u, Leaves (.arrayWakeWave d row) s u ∧
      (∀ k, k < 8 → (s.core (64 * d + 8 * (row % 8) + k)).waking = true →
        (u.core (64 * d + 8 * (row % 8) + k)).arrayOn = true ∧ (u.core (64 * d + 8 * (row % 8) + k)).waking = false) ∧
      (∀ k, (k < 64 * d + 8 * (row % 8) ∨ 64 * d + 8 * (row % 8) + 8 ≤ k) → u.core k = s.core k)) ∧
    (s.hostKeyed = true → d < 8 → Leaves (.errorRegisterWrite d v) s (s.modDie d (fun x =>
      { x with errCe := v / 2 ^ 32 % 2 ^ 32, errUe := v / 2 ^ 16 % 2 ^ 16, errDrop := v % 2 ^ 16 }))) ∧
    Traps .unassignedOpcode s { cause := 0x01 })

/-- A link leaves DOWN for TRAINING, ATTESTING, KEYING and UP by the events of R410 and by no other state's, a trellis link that failed its first
attestation also QUARANTINED; RETRAIN takes it DOWN with its keys and replay buffers gone, and a trellis link that trains again after it attested
begins a new epoch. Keys and route tables come over the management ports of the dies. A new flit takes the next FCNT, is sealed under the sender's
key, stands in the replay buffer and is accepted only in order and under the receiver's key; else it is discarded, counted and waits for a replay. A
LACK names the highest FCNT accepted under the receiver's key, and what it acknowledges leaves the buffer; with NAK the sender replays before it sends
on. DATA, IDLE, MGMT, HOLD, RELEASE and KEYACK are sent only where the sender may; a held VC and CLASS, or one whose buffer is full, sends nothing; a
QUARANTINED link discards. HOLD and RELEASE follow the marks of R404. A rekey goes through its steps, and a direction whose key was spent stays held
until it completes. A DATA flit takes a buffer at each hop, which it frees as it goes on, and is performed in ESEQ order at its destination. New
routes are taken at once where the old one has failed, else after a drain. A send descriptor is taken up in order, sent sector by sector and completed
when acknowledged, and one that breaks a limit is reported. What a peer receives and when it holds a VC, and that the accesses between dies take
effect apart from the flits, are the model's choices (log entry 35), and so are a slab address as LOCAL (log entry 56) and a management port that
carries no flit of the model (log entry 57); what RETRAIN, LINK_ENABLE and a second failure do to which link is its reading (log entry 36). (R401,
R402, R404, R406, R407, R409, R410, R411, R412, R413, R418, R419) -/
def Obligations.LinksAndTheirFlits : Prop :=
  (∀ (s : State) (l d : Nat),
    let x := s.link l
    let ends := linkEnds l
    let out := fun (k : Nat) => (s.die k).state = .measured ∨ (s.die k).state = .joined
    let failed := fun (n : Nat) => l < 16 ∧ x.state = .quarantined ∧ x.attFails = n ∧ (s.die ends.1).state ≠ .quarantined ∧ (s.die ends.2).state ≠ .quarantined
    let k := s.nextId + 1
    let s' : State := { s with nextId := k }
    let enabled := l < 33 ∧ s.power.on = true ∧ (x.state = .down ∨ failed 1) ∧ (l = 32 ∨ (out ends.1 ∧ out ends.2))
    let carries := x.state = .up ∨ x.state = .rekeying
    let ports := (s.die ends.1).mgmt = true ∧ (s.die ends.2).mgmt = true
    (¬ enabled → Leaves (.linkEnable l) s s) ∧
    (enabled → Leaves (.linkEnable l) s (s.modLink l (fun x => { x with state := .training, fails := 0 }))) ∧
    (x.state ≠ .training → Leaves (.trainingComplete l) s s ∧ Leaves (.trainingFailure l) s s) ∧
    (x.state = .training → Leaves (.trainingComplete l) s ((if l < 16 ∧ x.attested = true then s.newEpoch l else s).modLink l
      (fun x => { x with state := .attesting, fails := 0, trains := min (x.trains + 1) 255, attested := true }))) ∧
    ((s.newEpoch l).link l = { x with epoch := x.epoch + 1, attested := false }) ∧
    (∀ k, k = ends.1 ∨ k = ends.2 → out k → tgetD ((s.newEpoch l).die k).psks l 0 = x.epoch + 1) ∧
    (x.state = .training → x.fails < 2 → Leaves (.trainingFailure l) s (s.modLink l (fun x => { x with fails := x.fails + 1 }))) ∧
    (x.state = .training → 2 ≤ x.fails → ∃ u, Leaves (.trainingFailure l) s u ∧ (u.link l).state = .down ∧ (u.link l).fails = 0 ∧
      (u.link l).trains = min (x.trains + 1) 255) ∧
    (32 ≤ l ∨ 2 ≤ d ∨ ¬ ports → Leaves (.keyDelivery l d) s s) ∧
    (l < 32 → d < 2 → ports →
      let v := if l < 16 then k else (x.dir d).next
      (x.state ≠ .keying → x.state ≠ .rekeying → Leaves (.keyDelivery l d) s s') ∧
      (x.state = .keying → (x.dir (1 - d)).keyed = false → Leaves (.keyDelivery l d) s (s'.modDir l d (fun _ => { keyed := true, key := v, rkey := v }))) ∧
      (x.state = .keying → (x.dir (1 - d)).keyed = true → ∃ u, Leaves (.keyDelivery l d) s u ∧ (u.link l).state = .up ∧
        (u.ldir l d) = { keyed := true, key := v, rkey := v } ∧ u.ldir l (1 - d) = x.dir (1 - d)) ∧
      (x.state = .rekeying → (x.dir d).rekey = 1 → (x.dir d).both = false →
        Leaves (.keyDelivery l d) s (s'.modDir l d (fun y => { y with both := true, next := k, rekey := 2 }))) ∧
      (x.state = .rekeying → (x.dir d).rekey ≠ 1 ∨ (x.dir d).both = true → Leaves (.keyDelivery l d) s (s'.modDir l d (fun y => y)))) ∧
    (33 ≤ l ∨ (¬ carries ∧ ¬ failed 2) → Leaves (.retrain l) s s) ∧
    (l < 33 → carries ∨ failed 2 → ∃ u, Leaves (.retrain l) s u ∧ (u.link l).state = .down ∧ (u.link l).dir0 = {} ∧ (u.link l).dir1 = {} ∧ (u.link l).attFails = 0 ∧
      (l = 32 → u.tri.ide = []) ∧
      ∀ j, j ≠ l → { u.link j with dir0 := {}, dir1 := {} } = { s.link j with dir0 := {}, dir1 := {} } ∧
        ∀ e, { u.ldir j e with occ := [] } = { s.ldir j e with occ := [] }) ∧
    (let asks := fun (i : Instr) (e : Nat) =>
      (¬ carries → Leaves i s s) ∧
      (carries → ∃ u, Leaves i s u ∧ (u.link l).state = .rekeying ∧
        ((x.dir e).rekey = 0 → u.ldir l e = { x.dir e with rekey := 1 }) ∧ ((x.dir e).rekey ≠ 0 → u.ldir l e = { x.dir e with again := true }) ∧
        ∀ k, k ≠ l → u.link k = s.link k)
     (32 ≤ l → Leaves (.lctlRekeyDir0 l) s s ∧ Leaves (.lctlRekeyDir1 l) s s ∧ Leaves (.scheduledRekey l d) s s ∧ Leaves (.fcntLimit l d) s s) ∧
     (l < 32 → asks (.lctlRekeyDir0 l) 0 ∧ asks (.lctlRekeyDir1 l) 1 ∧
       (d < 2 → asks (.scheduledRekey l d) d ∧
         ((x.dir d).fcnt < 2 ^ 44 - 2 ^ 20 ∨ (x.dir d).rekey ≠ 0 → Leaves (.fcntLimit l d) s s) ∧
         (2 ^ 44 - 2 ^ 20 ≤ (x.dir d).fcnt → (x.dir d).rekey = 0 → asks (.fcntLimit l d) d)))) ∧
    (isTrellis l = false ∨ x.state ≠ .attesting → Leaves (.pskExchange l) s s) ∧
    (l < 16 → x.state = .attesting → Leaves (.pskExchange l) s (s.modLink l (fun x => { x with exchange := true })))) ∧
  (∀ (s : State) (l d : Nat) (f : Flit) (bad : Bool),
    let x := s.ldir l d
    let may := ((s.link l).state = .up ∨ (s.link l).state = .rekeying) ∧ x.keyed = true ∧ x.stopped = false ∧ x.fcnt < 2 ^ 44 ∧ x.replay.length < 512
    let t := if x.rewind = true then s.replayAll l d none else s
    let y := t.ldir l d
    let g := { f with fcnt := y.fcnt, gen := y.gen, key := y.key }
    let t1 := t.modDir l d (fun z => { z with fcnt := z.fcnt + 1, replay := z.replay ++ [g] })
    (s.canSend l d = true ↔ may) ∧ (t.canSend l d = false → s.sendFlit l d f bad = t) ∧ (t.canSend l d = true → s.sendFlit l d f bad = t1.receive l d g bad)) ∧
  (∀ (s : State) (l d : Nat) (f : Flit) (bad : Bool),
    let x := s.ldir l d
    let inOrder := f.gen = x.rgen ∧ f.key = x.rkey ∧ f.fcnt = x.exp
    let switches := f.gen ≠ x.rgen ∧ x.both = true ∧ x.gap = false ∧ f.key = x.next ∧ f.fcnt = 0
    (bad = true ∨ (¬ inOrder ∧ ¬ switches) →
      s.receive l d f bad = (s.modLink l (fun y => { y with tagfail := min (y.tagfail + 1) 0xFFFF })).modDir l d (fun x =>
        { x with nak := true, gap := x.gap || (f.gen == x.rgen && decide (x.exp ≤ f.fcnt)) })) ∧
    (bad = false → inOrder → s.receive l d f bad = (s.modDir l d (fun _ => { x with exp := x.exp + 1, gap := false })).applyFlit l d f) ∧
    (bad = false → switches →
      s.receive l d f bad = (s.modDir l d (fun _ => { x with rgen := f.gen, rkey := x.next, both := false, exp := 1 })).applyFlit l d f)) ∧
  (∀ (s : State) (l d : Nat) (f : Flit),
    let e := 1 - d
    let x := s.ldir l e
    let z := (s.applyFlit l d f).ldir l e
    (f.type = 0 ∨ f.type = 7 → s.applyFlit l d f = s) ∧
    (f.type = 2 → s.applyFlit l d f = s.modDir l e (fun x => { x with heldBy := addOnce x.heldBy (4 * f.vc + f.cls) })) ∧
    (f.type = 3 → s.applyFlit l d f = s.modDir l e (fun x => { x with heldBy := x.heldBy.filter (fun k => k != 4 * f.vc + f.cls) })) ∧
    (f.type = 4 → s.applyFlit l d f = s.modDir l d (fun x => { x with occ := tset x.occ (4 * f.vc + f.cls) (tgetD x.occ (4 * f.vc + f.cls) 0 + 1) })) ∧
    (f.type = 5 → x.rekey = 2 → z.gen = 1 - x.gen ∧ z.fcnt = 0 ∧ z.key = x.next ∧
      (x.gen ≤ 1 → 2 ^ 44 ≤ x.fcnt → (∃ g ∈ x.replay, g.gen = x.gen) → z.stopped = true)) ∧
    (f.type = 6 → z.replay = unacked f.aux f.agen x.replay ∧ z.rewind = (x.rewind || f.nak))) ∧
  (∀ (aux gen : Nat) (g : Flit) (fs hs : List Flit), (∀ h ∈ fs, h.gen = gen → h.fcnt % 65536 ≠ aux) →
    unacked aux gen fs = fs ∧ (g.gen = gen → g.fcnt % 65536 = aux → unacked aux gen (fs ++ g :: hs) = hs)) ∧
  (∀ (x : LinkDir) (vc cls k : Nat), (x.occ.map (·.1)).Pairwise (· < ·) →
    tgetD (x.take vc cls).occ k 0 = if k = 4 * vc + cls then tgetD x.occ k 0 - 1 else tgetD x.occ k 0) ∧
  (∀ (s : State) (l d vc cls dst bad roff v nak : Nat),
    let x := s.link l
    let k := 4 * vc + cls
    let y := s.ldir l (1 - d)
    let high := if vc = 3 then 32 else 160
    let low := if vc = 3 then 8 else 64
    let sets := fun (i : Instr) (f : Flit) => Leaves i s (s.sendFlit l d f false)
    let peer := 16 ≤ l ∧ d = 1
    let vq := if l < 16 then vc else 2
    (32 ≤ l ∨ 4 ≤ d → Leaves (.mgmt l d) s s) ∧
    (32 ≤ l ∨ 2 ≤ d → Leaves (.idle l d) s s ∧ Leaves (.keyack l d) s s ∧ Leaves (.hold l d vc cls) s s ∧
      Leaves (.release l d vc cls) s s ∧ Leaves (.lack l d nak) s s ∧ Leaves (.data l d vc cls dst bad roff v) s s) ∧
    (l < 32 → d < 2 →
      sets (.idle l d) {} ∧
      (s.isHeld l d vc cls = true ↔ k ∈ (x.dir d).heldBy ∨ (if vc = 3 then 128 else 256) ≤ tgetD (x.dir d).occ k 0) ∧
      (Leaves (.mgmt l (2 + d)) s (s.modDir l d (fun z => z.take 3 0))) ∧
      (s.isHeld l d 3 0 = true → Leaves (.mgmt l d) s s) ∧ (s.isHeld l d 3 0 = false → sets (.mgmt l d) { type := 4, vc := 3 }) ∧
      (y.rekey ≠ 2 → Leaves (.keyack l d) s s) ∧ (y.rekey = 2 → sets (.keyack l d) { type := 5, vc := 3 }) ∧
      (4 ≤ vc ∨ 3 ≤ cls ∨ s.canSend l d = false ∨ (¬ peer ∧ tgetD y.occ k 0 < high) ∨ k ∈ y.holding → Leaves (.hold l d vc cls) s s) ∧
      (vc < 4 → cls < 3 → s.canSend l d = true → peer ∨ high ≤ tgetD y.occ k 0 → k ∉ y.holding → Leaves (.hold l d vc cls) s
        ((s.modDir l (1 - d) (fun z => { z with holding := k :: z.holding })).sendFlit l d { type := 2, vc := vc, cls := cls } false)) ∧
      (4 ≤ vc ∨ 3 ≤ cls ∨ s.canSend l d = false ∨ (¬ peer ∧ low < tgetD y.occ k 0) ∨ k ∉ y.holding → Leaves (.release l d vc cls) s s) ∧
      (vc < 4 → cls < 3 → s.canSend l d = true → peer ∨ tgetD y.occ k 0 ≤ low → k ∈ y.holding → Leaves (.release l d vc cls) s
        ((s.modDir l (1 - d) (fun z => { z with holding := z.holding.filter (fun i => i != k) })).sendFlit l d { type := 3, vc := vc, cls := cls } false)) ∧
      (s.canSend l d = false → Leaves (.lack l d nak) s s) ∧
      (s.canSend l d = true →
        let go := decide (0 < nak) && y.nak
        let s1 := (s.modDir l (1 - d) (fun z => { z with nak := z.nak && !go })).sendFlit l d { type := 6, nak := go, aux := (y.exp + 65535) % 65536, agen := y.rgen } false
        Leaves (.lack l d nak) s (if (s1.ldir l (1 - d)).rewind = true ∧ (s1.link l).carries = true then
          s1.replayAll l (1 - d) (if 2 ≤ nak then some (nak - 2) else none) else s1)) ∧
      ((l < 16 ∧ 3 ≤ vc) ∨ 3 ≤ cls → Leaves (.data l d vc cls dst bad roff v) s s) ∧
      (16 ≤ l ∨ vc < 3 → cls < 3 →
        (x.state = .quarantined → Leaves (.data l d vc cls dst bad roff v) s (s.modLink l (fun y => { y with tagfail := min (y.tagfail + 1) 0xFFFF }))) ∧
        (x.state ≠ .quarantined →
          let open_ := s.canSend l d = true ∧ s.isHeld l d vq cls = false
          (l < 16 → bad = 2 → Leaves (.data l d vc cls dst bad roff v) s (s.performData l d vc cls)) ∧
          (16 ≤ l → bad = 2 → Leaves (.data l d vc cls dst bad roff v) s (if d = 1 then s.performPeer l else s)) ∧
          (bad ≠ 2 → ¬ open_ → Leaves (.data l d vc cls dst bad roff v) s s) ∧
          (open_ →
            (16 ≤ l → bad ≠ 2 → d = 0 → Leaves (.data l d vc cls dst bad roff v) s (s.sendPiece l (bad == 1))) ∧
            (16 ≤ l → bad ≠ 2 → d = 1 → Leaves (.data l d vc cls dst bad roff v) s
              (s.sendFlit l d { type := 1, vc := 2, src := noDie, dst := noDie, roff := roff, val := v } (bad == 1))) ∧
            (l < 16 → bad ≠ 2 → s.nextData l d vc cls (dst % 8) = none → Leaves (.data l d vc cls dst bad roff v) s s) ∧
            (∀ f s1, l < 16 → bad ≠ 2 → s.nextData l d vc cls (dst % 8) = some (f, s1) → Leaves (.data l d vc cls dst bad roff v) s (s1.sendFlit l d f (bad == 1)))))))) ∧
  (∀ (s : State) (l d : Nat) (k : Option Nat),
    let fs := (s.ldir l d).replay.map (fun f => { f with replays := f.replays + 1 })
    (∃ f ∈ fs, 8 ≤ f.replays) → d < 2 → ((s.replayAll l d k).link l).state = .down) ∧
  (∀ (s : State) (l d : Nat) (f : Flit), (16 ≤ l → d ≠ 1 → s.deliverData l d f = s) ∧ (l < 16 ∨ d = 1 →
    s.deliverData l d f = (s.modDie (dirTo l d) (fun x => { x with transit := x.transit ++ [{ f with via := 2 * l + d + 1 }] })).modDir l d
      (fun x => { x with occ := tset x.occ (4 * f.vc + f.cls) (tgetD x.occ (4 * f.vc + f.cls) 0 + 1) }))) ∧
  (∀ (s : State) (l d vc cls : Nat),
    let t := dirTo l d
    let here := fun (f : Flit) => f.via == 2 * l + d + 1 && f.vc == vc && f.cls == cls && f.path.isEmpty && decide (f.eseq ≤ tgetD (s.die t).eseqRx (4 * f.src + vc) 0)
    let u := s.performData l d vc cls
    ((s.die t).transit.find? here = none → u = s) ∧
    (∀ f, (s.die t).transit.find? here = some f →
      (u.die t).transit = (s.die t).transit.eraseIdx ((s.die t).transit.findIdx here) ∧
      tgetD (u.die t).eseqRx (4 * f.src + vc) 0 = max (f.eseq + 1) (tgetD (s.die t).eseqRx (4 * f.src + vc) 0) ∧
      (d < 2 → u.ldir l d = (s.ldir l d).take vc cls) ∧
      (∀ g ∈ (u.die t).kept, g ∈ (s.die t).kept) ∧ (f.acks = [] → (u.die t).kept = (s.die t).kept))) ∧
  (∀ (s : State) (d : Nat),
    (8 ≤ d ∨ (s.die d).mgmt = false → Leaves (.routeTable d) s s) ∧
    (d < 8 → (s.die d).mgmt = true → (∀ t, t < 8 → (s.route d t).getD [] = s.routeOf d t) → ∃ u, Leaves (.routeTable d) s u ∧ ∀ t, t < 8 → u.routeOf d t = s.routeOf d t) ∧
    (d < 8 → (s.die d).mgmt = true → (∀ t, t < 8 → s.routeOf d t = [] ∨ ∃ h ∈ routeLinks d (s.routeOf d t), (s.link h.1).carries = false) →
      ∃ u, Leaves (.routeTable d) s u ∧ ∀ t, t < 8 → u.routeOf d t = (s.route d t).getD [])) ∧
  (∀ (s : State) (d t : Nat) (r : List Nat), s.route d t = some r → r.length ≤ 3 ∧ (d ≠ t → r ≠ []) ∧
    (∀ h ∈ routeLinks d r, (s.link h.1).carries = true) ∧ (∀ n q, s.routeIn n d t = some q → d ≠ t → 1 ≤ n → n ≤ 3 → r.length ≤ n)) ∧
  (∀ (s : State) (a b : Nat),
    let onWay := ∃ p ∈ s.dies, ∃ f ∈ p.2.transit, f.src = a ∧ f.dst = b
    let old := classed (routeLinks a (s.routeOf a b))
    let waits := (∀ h ∈ old, (s.link h.1).carries = true) ∧ ∃ h ∈ old, s.drainsOver h.1 h.2.1 h.2.2 = false
    (8 ≤ a ∨ 8 ≤ b ∨ b ∉ (s.die a).draining ∨ onWay ∨ waits → Leaves (.drain a b) s s) ∧
    (a < 8 → b < 8 → b ∈ (s.die a).draining → ¬ onWay → ¬ waits → ∃ u, Leaves (.drain a b) s u ∧ u.routeOf a b = tgetD (s.die a).newRoutes b [] ∧
      b ∉ (u.die a).draining)) ∧
  (∀ (s : State) (p v : Nat),
    let l := 16 + p
    let x := s.link l
    let r := s.readArea (1024 + p / 2 % 8) x.pctx (x.sring + 32 * (x.shead % 2 ^ (x.psz + 4))) 32 .read
    let next := fun (u : State) => u.modLink l (fun y => { y with shead := (y.shead + 1) % 2 ^ 32, job := none })
    let report := fun (u : State) (tag cause : Nat) => u.postRecord x.pctx (eventBytes 2 cause partyDispatcher 0 u.ptc tag)
    let live := p < 16 ∧ x.carries = true ∧ x.shead ≠ x.stail ∧ (s.ctx x.pctx).state ≠ .free
    (16 ≤ p → Leaves (.stailWrite p v) s s) ∧ (p < 16 → Leaves (.stailWrite p v) s (s.modLink l (fun y => { y with stail := v % 2 ^ 32 }))) ∧
    (¬ live → Leaves (.sendDescriptor p) s s) ∧
    (∀ j, live → x.job = some j →
      let ended := j.len ≤ j.off ∧ ∀ f ∈ x.dir0.replay, f.type ≠ 1
      (ended → Leaves (.sendDescriptor p) s (next s)) ∧ (¬ ended → Leaves (.sendDescriptor p) s s)) ∧
    (live → x.job = none →
      (∀ t s1, r = (.error t, s1) → Leaves (.sendDescriptor p) s (report (next s1) 0 t.cause)) ∧
      (∀ bs s1, r = (.ok bs, s1) →
        let f := fieldOf bs
        let even := f 0 8 % 64 = 0 ∧ f 8 8 % 64 = 0 ∧ f 16 8 % 64 = 0
        let sized := f 16 8 ≤ 2 ^ 36 ∧ f 28 4 = 0
        (¬ even → Leaves (.sendDescriptor p) s (report (next s1) (f 24 4) 0x13)) ∧
        (even → ¬ sized → Leaves (.sendDescriptor p) s (report (next s1) (f 24 4) 0x52)) ∧
        (even → sized → Leaves (.sendDescriptor p) s
          (s1.modLink l (fun y => { y with job := some { loc := f 0 8, roff := f 8 8, len := f 16 8, tag := f 24 4 } })))))) ∧
  (∀ (s : State) (p : Nat) (bad : Bool), p < 16 →
    let l := 16 + p
    let x := s.link l
    let party := 1024 + p / 2 % 8
    (x.job = none → s.sendPiece l bad = s) ∧
    (∀ j, x.job = some j →
      let r := s.translate party x.pctx (j.loc + j.off) .read true
      (j.len ≤ j.off → s.sendPiece l bad = s) ∧
      (∀ t s1, j.off < j.len → r = (.error t, s1) →
        let u := s1.modLink l (fun y => { y with shead := (y.shead + 1) % 2 ^ 32, job := none })
        s.sendPiece l bad = u.postRecord x.pctx (eventBytes 2 t.cause partyDispatcher 0 u.ptc j.tag)) ∧
      (∀ m s1, j.off < j.len → r = (.ok m, s1) → s1.ue = [] → s1.reachable (p / 2) m = true →
        s.sendPiece l bad = (s1.modLink l (fun y => { y with job := some { j with off := j.off + 64 } })).sendFlit l 0
          { type := 1, vc := 2, roff := (j.roff + j.off) / 64, val := leNat (s1.homeRead (p / 2) m 64) } bad))) ∧
  (∀ (s : State) (l : Nat), 16 ≤ l → l < 32 →
    let t := dirTo l 1
    let here := fun (f : Flit) => f.src == noDie && f.via == 2 * l + 2
    ((s.die t).transit.find? here = none → s.performPeer l = s) ∧
    (∀ f, (s.die t).transit.find? here = some f → s.performPeer l =
      ((s.modDie t (fun x => { x with transit := x.transit.eraseIdx (x.transit.findIdx here) })).modDir l 1 (fun x => x.take f.vc f.cls)).peerWrite l f)) ∧
  (∀ (s : State) (l : Nat) (f : Flit), 16 ≤ l → l < 32 →
    let x := s.link l
    let va := x.rwin + 64 * f.roff
    let party := 1024 + (l - 16) / 2
    (x.rlen < 64 * f.roff + 64 → s.peerWrite l f = s.modLink l (fun y => { y with tagfail := min (y.tagfail + 1) 0xFFFF })) ∧
    (∀ m s1, 64 * f.roff + 64 ≤ x.rlen → s.translate party x.pctx va .write true = (.ok m, s1) → s1.reachable ((l - 16) / 2) m = true →
      s.peerWrite l f = s1.systemWrite party m (leBytes 64 f.val)) ∧
    (∀ t s1, 64 * f.roff + 64 ≤ x.rlen → s.translate party x.pctx va .write true = (.error t, s1) →
      s.peerWrite l f = s1.errorRecord party x.pctx 11 0 va 0))

/-- While the module is off, the host link DOWN, or the module HALTED the responder answers nothing beyond version and capabilities, and while off or DOWN
not those. A request out of the order of R444 is answered with an error and changes nothing else; a signed answer spends one leaf of the boot tree and
carries TOPPUB and the HSS signature. A request in chunks is answered as one that comes whole, and a vendor payload that breaks its table is INVALID.
A vendor request waits while another runs; it is DENIED outside a session authenticated by a host root, INVALID outside its limits, and else acts:
KEYSET gives the key to the released dies and KEYRETIRE takes it back after an invalidation, each complete when the last die acknowledges; ROOTADD and
ROOTREVOKE change the roots; IDE_KM keys a stream, and with stream 0 the host link is UP and what waited to be signalled goes. DIERESET, a
control-logic fault and a second failed exchange of a link reset dies: cores cleared, links RESET (the host link back to ATTESTING), tenant contexts
there FAULTED with DIE_RESET, not ready and their collective instances discarded. DIERESET of a QUARANTINED die changes its links alone. A first
failed exchange QUARANTINES the link in a new epoch; one succeeds only where both ends hold the link's PSK. A port's session proves the root of the
slot that the peer names and gives the port its keys. A die whose DIEID, measurement and tag of the nonce match within 1 ms passes: it zeroes its HBM,
is released and takes the keys, and its links train, or are QUARANTINED beside a QUARANTINED die; one that fails or is late is QUARANTINED with its
links. POWER_UP holds every die in PHASE ROM and then burns a boot bit, POWER_OFF keeps only fuses and OTP. (The numbers of SPDM requests, responses
and errors are the model's own, log entry 46, and so are the widths in the texts of keys, the two turns of POWER_UP and the nonces, log entry 57;
which links reset how is its reading, log entry 36.) (R437, R438, R441, R442, R443, R444, R445, R446, R392, R415, R488) -/
def Obligations.TrustResetsAndModulePower : Prop :=
  (∀ (s : State) (a b c d e : Nat),
    let saying := fun (i : Instr) (r : List Nat) => Leaves i s { s with tri := { s.tri with resp := s.tri.resp ++ [r] } }
    let answers := fun (i : Instr) (t : Trifort) (r : List Nat) => Leaves i s { s with tri := { t with resp := s.tri.resp ++ [r] } }
    let up := s.power.on = true ∧ (s.link 32).state ≠ .down
    let on := up ∧ s.tri.exh = false
    let t := s.tri
    let full := fun (r : List Nat) => r ++ [leNat topPub, leNat (hssSign t.boots (32768 - t.lsig) r)]
    let all := [Instr.negotiateAlgorithms a b c d, .challenge a, .getMeasurements a b, .keyExchange (a % 256), .heartbeat a, .keyUpdate a, .endSession a,
      .chunkSend a b c, .chunkGet a b, .unsupportedRequest a, .ideKm a b, .keyset a b c d e, .keyretire a b, .rootadd a b c d, .rootrevoke a b, .diereset a b,
      .status a]
    (¬ on → (∀ i ∈ all, Leaves i s s) ∧ (a < 16 → Leaves (.finish a b) s s)) ∧
    (¬ up → Leaves .getVersion s s ∧ Leaves .getCapabilities s s) ∧
    (up → answers .getVersion { t with version := true, caps := false, algs := false } [1, 0x13] ∧
      (t.version = false → saying .getCapabilities [0, 3]) ∧ (t.version = true → answers .getCapabilities { t with caps := true } [2, capFlags])) ∧
    (on →
      (t.caps = false → saying (.negotiateAlgorithms a b c d) [0, 3]) ∧
      (t.caps = true → ¬ (a = 1 ∧ b = 1 ∧ c = 1 ∧ d = 1) → saying (.negotiateAlgorithms a b c d) [0, 4]) ∧
      (t.caps = true → answers (.negotiateAlgorithms 1 1 1 1) { t with algs := true } [3, 0xFFD2]) ∧
      (t.algs = false → saying (.challenge a) [0, 3] ∧ saying (.getMeasurements a b) [0, 3] ∧ saying (.keyExchange (a % 256)) [0, 3]) ∧
      (t.algs = true →
        (t.lsig = 0 → saying (.challenge a) [0, 2]) ∧ (t.lsig ≠ 0 → answers (.challenge a) { t with lsig := t.lsig - 1, large := full [4, a] } (full [4, a])) ∧
        (s.measurements a = none → saying (.getMeasurements a b) [0, 4]) ∧
        (∀ vs, s.measurements a = some vs → (b ≠ 1 → saying (.getMeasurements a b) ([5, a] ++ vs)) ∧ (b = 1 → t.lsig = 0 → saying (.getMeasurements a b) [0, 2]) ∧
          (b = 1 → t.lsig ≠ 0 → answers (.getMeasurements a b) { t with lsig := t.lsig - 1, large := full ([5, a] ++ vs) } (full ([5, a] ++ vs)))) ∧
        ((∀ k, k < 4 → tget t.sessions k ≠ none) → saying (.keyExchange (a % 256)) [0, 5]) ∧
        (∀ k, k < 4 → tget t.sessions k = none → (∀ j, j < k → tget t.sessions j ≠ none) → (t.lsig = 0 → saying (.keyExchange (a % 256)) [0, 2]) ∧
          (t.lsig ≠ 0 → answers (.keyExchange (a % 256)) { t with lsig := t.lsig - 1, large := full [6, k], sessions := tset t.sessions k { slot := a % 256 } } (full [6, k])))) ∧
      (tget t.sessions a = none → saying (.heartbeat a) [0, 4] ∧ saying (.keyUpdate a) [0, 4] ∧ saying (.endSession a) [0, 4] ∧ saying (.ideKm a b) [0, 4] ∧
        (a < 16 → saying (.finish a b) [0, 4])) ∧
      (∀ x, tget t.sessions a = some x →
        let h := (s.link 32).state
        let root := (tgetD t.slots x.slot {}).kind ∈ [1, 2, 3] ∧ bit t.revoke x.slot = false
        saying (.heartbeat a) [8, a] ∧ answers (.keyUpdate a) { t with sessions := tset t.sessions a { x with gen := x.gen + 1 } } [9, a] ∧
        answers (.endSession a) { t with sessions := tdel t.sessions a } [10, a] ∧
        (a < 16 → b = 1 → root → answers (.finish a b) { t with sessions := tset t.sessions a { x with auth := true } } [7, a]) ∧
        (a < 16 → b ≠ 1 ∨ ¬ root → answers (.finish a b) { t with sessions := tdel t.sessions a } [0, 6]) ∧
        (x.auth = false ∨ 4 ≤ b ∨ (h ≠ .attesting ∧ h ≠ .up) → saying (.ideKm a b) [0, 4]) ∧
        (x.auth = true → b < 4 → h = .attesting ∨ h = .up → ∃ u, Leaves (.ideKm a b) s u ∧ u.tri = { t with ide := addOnce t.ide b, resp := t.resp ++ [[14, b]] } ∧
          (u.link 32).state = (if b = 0 then .up else h) ∧ (∀ l, l ≠ 32 → u.link l = s.link l) ∧
          (let goes := (b = 0 ∨ h = .up) ∧ (s.die 0).state ≠ .quarantined ∧ s.fmask = false
           (goes → u.irqs = s.irqs ++ (s.msix.filter (fun p => p.2.pending && !p.2.masked)).map (fun p => p.1)) ∧ (¬ goes → u.irqs = s.irqs ∧ u.msix = s.msix)))) ∧
      (tgetD t.chunks (2 * a) 0 ≠ b → saying (.chunkSend a b c) [0, 4]) ∧ (tgetD t.chunks (2 * a + 1) 0 ≠ b ∨ t.large.length ≤ b → saying (.chunkGet a b) [0, 4]) ∧
      (let bs := tgetD t.parts a [] ++ leBytes (c / 2 % 2 ^ 16) (c / 2 ^ 17)
       (tgetD t.chunks (2 * a) 0 = b → c % 2 = 1 → exec (.chunkSend a b c) s = ({ s with tri := { t with
          chunks := tdel t.chunks (2 * a), parts := tdel t.parts a, resp := t.resp ++ [[11, a, b]] } } : State).request bs) ∧
       (tgetD t.chunks (2 * a) 0 = b → c % 2 = 0 →
          answers (.chunkSend a b c) { t with chunks := tset t.chunks (2 * a) (b + 1), parts := tset t.parts a bs } [11, a, b])) ∧
      (tgetD t.chunks (2 * a + 1) 0 = b → b + 1 < t.large.length →
        answers (.chunkGet a b) { t with chunks := tset t.chunks (2 * a + 1) (b + 1) } [12, a, b, t.large.getD b 0, 0]) ∧
      (tgetD t.chunks (2 * a + 1) 0 = b → b + 1 = t.large.length →
        answers (.chunkGet a b) { t with chunks := tdel t.chunks (2 * a + 1) } [12, a, b, t.large.getD b 0, 1]) ∧
      saying (.unsupportedRequest a) [0, 1] ∧
      (∀ p, t.req = some p → p.2.2.2 ≠ 0 → ∀ q ∈ [(Instr.keyset a b c d e, [1, a, b, c, d, e]), (.keyretire a b, [2, a, b]), (.rootadd a b c d, [3, a, b, c, d]),
        (.rootrevoke a b, [4, a, b]), (.diereset a b, [5, a, b]), (.status a, [6, a])], Leaves q.1 s { s with tri := { t with reqq := t.reqq ++ [q.2] } }) ∧
      (t.req = none → t.reqq = [] →
        let mine := ∃ x, tget t.sessions a = some x ∧ x.auth = true ∧ (tgetD t.slots x.slot {}).kind ∈ [1, 3] ∧ bit t.revoke x.slot = false
        let keyBad := b = 0 ∨ 256 ≤ b ∨ 256 ≤ c ∨ 1 < d
        let noCtx := (s.ctx c).state = .free ∨ (s.ctx c).kind = 1
        let hosts := (List.range 8).filter (fun j => t.rootOk j [1, 3])
        (¬ mine → ∀ i ∈ [Instr.keyset a b c d e, .keyretire a b, .rootadd a b c d, .rootrevoke a b, .diereset a b, .status a], saying i [13, 3]) ∧
        (mine →
          (keyBad → saying (.keyset a b c d e) [13, 2]) ∧ (¬ keyBad → tget t.keys b ≠ none → saying (.keyset a b c d e) [13, 1]) ∧
          (¬ keyBad → tget t.keys b = none → noCtx → saying (.keyset a b c d e) [13, 2]) ∧
          s.vendor [0, a] = .next { s with tri := { t with resp := t.resp ++ [[13, 2]] } } ∧
          (¬ keyBad → tget t.keys b = none → ¬ noCtx → s.releasedMask ≠ 0 → ∃ u v, Leaves (.keyset a b c d e) s u ∧
            u.tri = { t with keys := tset t.keys b { val := v, ctx := c }, req := some (1, a, b, s.releasedMask) } ∧ (d = 0 → ∃ r, v = 4 * r + 2) ∧
            (d = 1 → v = 2 * (e % 2 ^ 512) + 1)) ∧
          (b = 0 ∨ tget t.keys b = none → saying (.keyretire a b) [13, 2]) ∧
          (∀ k, b ≠ 0 → tget t.keys b = some k → ∃ (u : State) (i : Nat), Leaves (.keyretire a b) s u ∧ u.tri = { t with req := some (2, a, b, 255) } ∧
            tget u.invals i = some { core := 0x3FF, kind := 1, ctx := k.ctx, arg := b, after := 2 }) ∧
          (let bad := b = 0 ∨ 8 ≤ b ∨ c = 0 ∨ 3 < c ∨ (tgetD t.slots b {}).kind ≠ 0 ∨ bit t.revoke b = true
           (bad → saying (.rootadd a b c d) [13, 2]) ∧
           (¬ bad → answers (.rootadd a b c d) { t with slots := tset t.slots b { kind := c, key := d % 2 ^ 480 } } [13, 0])) ∧
          (8 ≤ b ∨ hosts = [b] → saying (.rootrevoke a b) [13, 2]) ∧
          (b < 8 → hosts ≠ [b] → answers (.rootrevoke a b) { t with revoke := t.revoke ||| 2 ^ b, sessions := t.sessions.filter (fun p => p.2.slot != b) } [13, 0]) ∧
          (b = 0 ∨ 8 ≤ b → saying (.diereset a b) [13, 2]) ∧
          (let released := (s.die b).state = .measured ∨ (s.die b).state = .joined
           (b ≠ 0 → b < 8 → ¬ released → (s.die b).state ≠ .quarantined → saying (.diereset a b) [13, 1]) ∧
           (b ≠ 0 → b < 8 → released → Leaves (.diereset a b) s ((s.resetDie b).respond [13, 0])) ∧
           (b ≠ 0 → b < 8 → (s.die b).state = .quarantined → Leaves (.diereset a b) s ((s.resetQuarantined b).respond [13, 0]))) ∧
          saying (.status a) [13, 0, s.tstat]))) ∧
    (16 ≤ a → ¬ (a < 32 ∧ (s.link a).state = .attesting) → Leaves (.finish a b) s s) ∧
    (16 ≤ a → a < 32 → (s.link a).state = .attesting →
      let proved := ∃ j, (s.link a).peer = some j ∧ (tgetD t.slots j {}).kind ∈ [2, 3] ∧ bit t.revoke j = false
      (b = 1 → proved → Leaves (.finish a b) s (({ s with nextId := s.nextId + 2 } : State).modLink a (fun x =>
        { x with state := .keying, dir0 := { next := s.nextId + 1 }, dir1 := { next := s.nextId + 2 } }))) ∧
      (b ≠ 1 ∨ ¬ proved → ∃ u, Leaves (.finish a b) s u ∧ (u.link a).state = .quarantined)) ∧
    (let b := a / 256
     b ≠ 0 → b < 16 ∨ 32 ≤ b ∨ (s.link b).state ≠ .attesting ∨ t.exh = true → Leaves (.keyExchange a) s s) ∧
    (let b := a / 256
     16 ≤ b → b < 32 → (s.link b).state = .attesting → t.exh = false → Leaves (.keyExchange a) s (s.modLink b (fun x => { x with peer := some (a % 256) })))) ∧
  (∀ (s : State) (bs : List Byte),
    let a := fun (i : Nat) => fieldOf bs i 1
    let is := fun (c : Nat) (i : Instr) => a 0 = c → s.request bs = exec i s
    is 0x84 .getVersion ∧ is 0xE1 .getCapabilities ∧ is 0xE3 (.negotiateAlgorithms (a 1) (a 2) (a 3) (a 4)) ∧ is 0x83 (.challenge (a 1)) ∧
    is 0xE0 (.getMeasurements (a 1) (a 2)) ∧ is 0xE4 (.keyExchange (a 1)) ∧ is 0xE5 (.finish (a 1) (a 2)) ∧ is 0xE8 (.heartbeat (a 1)) ∧
    is 0xE9 (.keyUpdate (a 1)) ∧ is 0xEC (.endSession (a 1)) ∧ is 0x85 (.unsupportedRequest 0x85) ∧
    (a 0 = 0xFE → s.request bs = s.vendor (vendorPayload (a 1) (bs.drop 2)))) ∧
  (∀ (ses : Nat) (op k x r m : Byte) (body : List Byte),
    vendorPayload ses [1, 0, 3, 0, k, x, 0] = [1, ses, k.toNat, x.toNat, 0, 0] ∧
    (body.length = 64 → vendorPayload ses ([1, 0, 67, 0, k, x, 1] ++ body) = [1, ses, k.toNat, x.toNat, 1, leNat body]) ∧
    vendorPayload ses [2, 0, 1, 0, k] = [2, ses, k.toNat] ∧
    (body.length = 60 → vendorPayload ses ([3, 0, 62, 0, k, m] ++ body) = [3, ses, k.toNat, m.toNat, leNat body]) ∧
    vendorPayload ses [4, 0, 1, 0, k] = [4, ses, k.toNat] ∧ vendorPayload ses [5, 0, 1, 0, k] = [5, ses, k.toNat] ∧ vendorPayload ses [6, 0, 0, 0] = [6, ses] ∧
    (r ≠ 0 → vendorPayload ses ([op, r, k, x] ++ body) = [0, ses]) ∧
    (k.toNat + 256 * x.toNat ≠ body.length → vendorPayload ses ([op, 0, k, x] ++ body) = [0, ses]) ∧
    (op = 0 ∨ 6 < op.toNat → vendorPayload ses ([op, 0, k, x] ++ body) = [0, ses])) ∧
  (∀ (s : State) (i : Nat), s.measurements 0 = some [11] ∧ (i ≠ 0 → i ≠ 255 → s.measurements i = (s.measurement i).map (fun v => [v])) ∧
    s.measurement 11 = some s.tri.boots ∧ s.measurement 1 = some Config.romd ∧
    (2 ≤ i → i ≤ 9 → (s.die (i - 2)).released = true → s.measurement i = some (leNat (sha256 (leBytes 8 (Config.dieId (i - 2)).toNat ++ leBytes 32 (Config.gold (i - 2)).toNat)))) ∧
    (2 ≤ i → i ≤ 9 → (s.die (i - 2)).released = false → s.measurement i = some 0) ∧ (11 < i → s.measurement i = none)) ∧
  (∀ (s : State) (d : Nat),
    (s.tri.req = none → Leaves (.dieKeyAck d) s s) ∧
    (∀ op a k w, s.tri.req = some (op, a, k, w) →
      let gone := ∃ p ∈ s.invals, p.2.after = 2 ∧ p.2.arg = k ∧ bit p.2.acked d = true
      (bit w d = false ∨ (op ≠ 1 ∧ ¬ gone) → Leaves (.dieKeyAck d) s s) ∧
      (∀ e, bit w d = true → w ≠ 2 ^ d → op = 1 ∨ gone → tget s.tri.keys k = some e → Leaves (.dieKeyAck d) s { s with tri := { s.tri with
        req := some (op, a, k, w - 2 ^ d), keys := tset s.tri.keys k { e with dies := if op = 1 then e.dies ||| 2 ^ d else clearBit e.dies d } } }) ∧
      (∀ e, w = 2 ^ d → op = 1 → s.tri.reqq = [] → tget s.tri.keys k = some e → Leaves (.dieKeyAck d) s { s with tri := { s.tri with
        req := none, keys := tset s.tri.keys k { e with dies := e.dies ||| 2 ^ d }, resp := s.tri.resp ++ [[13, 0]] } }))) ∧
  (∀ (s : State) (d x : Nat), d < 8 →
    let u := s.resetDie d
    (u.die d).state = .resetting ∧ (∀ n, n < 64 → u.core (64 * d + n) = {}) ∧ u.core (512 + d) = {} ∧
    (∀ l ∈ linksOf d, (u.link l).state = (if l = 32 then .attesting else .reset)) ∧ (∀ p ∈ u.tri.keys, bit p.2.dies d = false) ∧
    (∀ k, k ≠ d → (u.die k).state = (s.die k).state) ∧ u.tri.measuring ≠ some d ∧ (d = 0 → u.tri.ide = []) ∧
    (tget s.ctxs x ≠ none → s.hitByReset x d = true → (∀ p ∈ s.invals, p.2.after = 3 → p.2.ctx ≠ x) →
      ((s.ctx x).state ≠ .created → (s.ctx x).state ≠ .destroying → (u.ctx x).state = .faulted ∧ ((s.ctx x).state ≠ .faulted → (u.ctx x).cause = 0xB1)) ∧ (u.ctx x).rdy = 0 ∧
      (∀ g, tget s.groups g ≠ none → (s.group g).ctx = x → (u.group g).insts = []))) ∧
  (∀ (s : State) (d : Nat), d < 8 →
    let u := s.resetQuarantined d
    (u.die d).state = .resetting ∧ (∀ l ∈ linksOf d, (u.link l).state = (if l = 32 then .attesting else .reset)) ∧
    u.hbm = s.hbm ∧ u.hbmKey = s.hbmKey ∧ u.cores = s.cores ∧ u.ctxs = s.ctxs ∧ u.tri = s.tri) ∧
  (∀ (s : State) (d l ok reply : Nat),
    let rel := fun (k : Nat) => (s.die k).state = .measured ∨ (s.die k).state = .joined
    let x := s.link l
    let idle := s.tri.req = none ∧ s.tri.reqq = []
    (8 ≤ d ∨ ¬ rel d → Leaves (.controlLogicFault d) s s) ∧
    (d < 8 → rel d → idle → Leaves (.controlLogicFault d) s (s.resetDie d)) ∧
    (s.tri.measuring ≠ some d → Leaves (.measurementReply d reply) s s ∧ Leaves (.measurementTimeout d) s s) ∧
    ((s.die d).mgmt = false → Leaves (.measurementReply d reply) s s) ∧
    (s.ptc < s.tri.measT0 + 1000000 → Leaves (.measurementTimeout d) s s) ∧
    (s.tri.measuring = some d → d < 8 →
      let id := reply % 2 ^ 64
      let m := reply / 2 ^ 64 % 2 ^ 256
      let v := reply / 2 ^ 320
      let timely := s.ptc ≤ s.tri.measT0 + 1000000
      let passed := id = (Config.dieId d).toNat ∧ m = (Config.gold d).toNat ∧
        v = leNat (hmac (leBytes 32 (Config.dieSecret d).toNat) (leBytes 32 s.tri.nonce ++ leBytes 8 id ++ leBytes 32 m ++ leBytes 1 d))
      ((s.die d).mgmt = true → timely → passed → ∃ u, Leaves (.measurementReply d reply) s u ∧ (∀ p ∈ u.hbm, homeDie p.1 ≠ d) ∧ (∀ p ∈ u.hbmKey, homeDie (16 * p.1) ≠ d) ∧
        (∀ j ∈ linksOf d, j < 16 → tgetD (u.die d).psks j 0 = (s.link j).epoch) ∧ ((u.die d).state = .measured ∨ (u.die d).state = .joined) ∧
        (∀ p ∈ u.tri.keys, bit p.2.dies d = true) ∧
        (∀ j ∈ linksOf d, (s.link j).state = .reset →
          let ends := [(linkEnds j).1, (linkEnds j).2]
          ((∀ k ∈ ends, k = d ∨ rel k) → (u.link j).state = (if 2 ≤ (s.link j).attFails then .quarantined else .training)) ∧
          (∀ k ∈ ends, k ≠ d → (s.die k).state = .quarantined → (u.link j).state = .quarantined))) ∧
      (let fails := fun (i : Instr) => ∃ u, Leaves i s u ∧ (u.die d).state = .quarantined ∧ ∀ j ∈ linksOf d, j ≠ 32 → (u.link j).state = .quarantined
       ((s.die d).mgmt = true → ¬ (timely ∧ passed) → fails (.measurementReply d reply)) ∧ (s.tri.measT0 + 1000000 ≤ s.ptc → fails (.measurementTimeout d)))) ∧
    ((s.die d).state ≠ .resetting → Leaves (.dieResetComplete d) s s) ∧
    ((s.die d).state = .resetting → d < 8 → ∃ u, Leaves (.dieResetComplete d) s u ∧ (u.die d).state = .heldReset ∧
      (∀ j ∈ linksOf d, (u.link j).epoch = (s.link j).epoch + 1 ∧ (u.link j).state = (s.link j).state) ∧
      (s.tri.measuring = none → s.tri.exh = false → ∃ k, k < 8 ∧ u.tri.measuring = some k ∧ (u.die k).state = .heldReset)) ∧
    (16 ≤ l ∨ x.state ≠ .attesting ∨ x.exchange = false → Leaves (.pskFinish l ok) s s) ∧
    (l < 16 → x.state = .attesting → x.exchange = true →
      let proved := ok = 1 ∧ ∀ k ∈ [(linkEnds l).1, (linkEnds l).2], rel k ∧ tgetD (s.die k).psks l 0 = x.epoch
      (proved → Leaves (.pskFinish l ok) s (s.modLink l (fun x => { x with state := .keying, exchange := false, attFails := 0 }))) ∧
      (¬ proved → idle → x.attFails = 0 → ∃ u, Leaves (.pskFinish l ok) s u ∧ (u.link l).state = .quarantined ∧ (u.link l).attFails = 1 ∧
        (u.link l).epoch = x.epoch + 1 ∧ (∀ k, (u.die k).state = (s.die k).state) ∧
        ∀ k ∈ [(linkEnds l).1, (linkEnds l).2], rel k → tgetD (u.die k).psks l 0 = x.epoch + 1) ∧
      (¬ proved → idle → x.attFails ≠ 0 → ∃ u, Leaves (.pskFinish l ok) s u ∧ (u.link l).state = .reset ∧ (u.link l).attFails = 2 ∧
        (u.die (linkEnds l).1).state = .resetting ∧ (u.die (linkEnds l).2).state = .resetting))) ∧
  (∀ s : State,
    (s.power.on = true → s.tri.phase ≠ 0 → Leaves .powerUp s s) ∧
    (s.power.on = false → ∃ u, Leaves .powerUp s u ∧ u.power = { on := true } ∧ u.tri = { s.tri with phase := 0, exh := false, lsig := 0, keys := [] } ∧
      (∀ d, d < 8 → (u.die d).state = .heldReset ∧ (u.die d).mgmt = true ∧ ∀ k, u.routeOf d k = (if k < 8 then [] else bootRoute d k)) ∧
      (∀ l, l < 32 → (u.link l).state = .down) ∧ (u.link 32).state = .training) ∧
    (s.power.on = true → s.tri.phase = 0 → ∃ u, Leaves .powerUp s u ∧ u.power = s.power ∧ u.dies = s.dies ∧ u.links = s.links ∧
      u.tri.slots = s.tri.slots ∧ u.tri.revoke = s.tri.revoke ∧
      (s.tri.boots < 32768 → u.tri.phase = 1 ∧ u.tri.exh = false ∧ u.tri.boots = s.tri.boots + 1 ∧ u.tri.lsig = 32768 ∧
        u.tri.keys = [(0, { val := supKey (s.tri.boots + 1), ctx := 256 })] ∧
        (s.tri.measuring = none → (s.die 0).state = .heldReset → u.tri.measuring = some 0)) ∧
      (32768 ≤ s.tri.boots → u.tri.phase = 3 ∧ u.tri.exh = true ∧ u.tri.boots = s.tri.boots ∧ u.tri.lsig = 0 ∧ u.tri.keys = [] ∧ u.tri.measuring = s.tri.measuring)) ∧
    (∃ u, Leaves .powerOff s u ∧ u.power.on = false ∧ u.tri.phase = 0 ∧ (∀ d, d < 8 → (u.die d).state = .off ∧ (u.die d).mgmt = false) ∧ u.cores = [] ∧ u.hbm = [] ∧ u.ctxs = [] ∧ u.queues = [] ∧ u.links = [] ∧
      u.tri.slots = s.tri.slots ∧ u.tri.revoke = s.tri.revoke ∧ u.tri.boots = s.tri.boots ∧ u.tri.keys = [] ∧ u.tri.sessions = [] ∧
      u.hostMem = s.hostMem ∧ u.cxlMem = s.cxlMem))
end

