-- ==== Sys2Proof/Laws/Tab.lean ====
section
/-! SUPPORT. Tables and memories: reading after writing, and the canonical form that every memory operation keeps. -/

namespace Sys2Proof.Machine

-- Tables.

@[simp] theorem tget_tset {α : Type} (t : Tab α) (k : Nat) (v : α) : tget (tset t k v) k = some v := by
  induction t with
  | nil => simp [tset, tget]
  | cons p r ih =>
    obtain ⟨i, u⟩ := p
    simp only [tset]
    split
    · simp [tget]
    · split
      · simp [tget]
      · simp [tget, *]

theorem tget_tset_ne {α : Type} (t : Tab α) {k j : Nat} (v : α) (h : j ≠ k) : tget (tset t k v) j = tget t j := by
  induction t with
  | nil =>
    simp only [tset, tget]
    rw [if_neg (Ne.symm h)]
    split <;> rfl
  | cons p r ih =>
    obtain ⟨i, u⟩ := p
    simp only [tset]
    split
    · next hi => subst hi; simp [tget, Ne.symm h]
    · split
      · next hi hk =>
        simp only [tget]
        rw [if_neg (Ne.symm h)]
        by_cases hj : j < k
        · rw [if_pos hj, if_neg (by omega), if_pos (by omega)]
        · rw [if_neg hj]
      · simp [tget, ih]

@[simp] theorem tgetD_tset {α : Type} (t : Tab α) (k : Nat) (v d : α) : tgetD (tset t k v) k d = v := by simp [tgetD]

theorem tgetD_tset_ne {α : Type} (t : Tab α) {k j : Nat} (v : α) {d : α} (h : j ≠ k) : tgetD (tset t k v) j d = tgetD t j d := by
  simp [tgetD, tget_tset_ne t v h]

/-- Writing what a table holds changes nothing. -/
theorem tset_tget {α : Type} (t : Tab α) (k : Nat) (v : α) (h : tget t k = some v) : tset t k v = t := by
  induction t with
  | nil => simp [tget] at h
  | cons p r ih =>
    obtain ⟨i, u⟩ := p
    simp only [tget] at h
    simp only [tset]
    split at h
    · next hi => cases h; simp [hi]
    · split at h
      · cases h
      · next h1 h2 => simp [h1, h2, ih h]

/-- A second write of the same key replaces the first. -/
@[simp] theorem tset_tset {α : Type} (t : Tab α) (k : Nat) (v w : α) : tset (tset t k v) k w = tset t k w := by
  induction t with
  | nil => simp [tset]
  | cons p r ih =>
    obtain ⟨i, u⟩ := p
    by_cases h1 : i = k
    · simp [tset, h1]
    · by_cases h2 : k < i
      · simp [tset, h1, h2]
      · simp [tset, h1, h2, ih]

@[simp] theorem tget_tmap {α β : Type} (f : Nat → α → β) (t : Tab α) (k : Nat) : tget (tmap f t) k = (tget t k).map (f k) := by
  induction t with
  | nil => rfl
  | cons p r ih =>
    obtain ⟨i, u⟩ := p
    simp only [tmap, List.map_cons, tget]
    by_cases h1 : i = k
    · subst h1; simp
    · by_cases h2 : k < i
      · simp [h1, h2]
      · simp only [h1, h2, if_false]; exact ih

/-- What a table holds stands in it. -/
theorem mem_of_tget {α : Type} (t : Tab α) (k : Nat) (v : α) (h : tget t k = some v) : (k, v) ∈ t := by
  induction t with
  | nil => simp [tget] at h
  | cons p r ih =>
    obtain ⟨i, u⟩ := p
    simp only [tget] at h
    split at h
    · next hi => cases h; simp [hi]
    · split at h
      · cases h
      · simp [ih h]

-- Memories in canonical form.

theorem wfFrom_mono (m : Mem) (a b : Nat) (h : a ≤ b) (w : wfFrom b m = true) : wfFrom a m = true := by
  cases m with
  | nil => rfl
  | cons p r =>
    obtain ⟨i, v⟩ := p
    simp only [wfFrom, Bool.and_eq_true, decide_eq_true_eq] at w ⊢
    exact ⟨⟨by omega, w.1.2⟩, w.2⟩

/-- Below its first address a memory holds nothing. -/
theorem tget_below (m : Mem) (lo a : Nat) (w : wfFrom lo m = true) (h : a < lo) : tget m a = none := by
  cases m with
  | nil => rfl
  | cons p r =>
    obtain ⟨i, v⟩ := p
    simp only [wfFrom, Bool.and_eq_true, decide_eq_true_eq] at w
    simp [tget, show ¬ i = a by omega, show a < i by omega]

theorem wfFrom_tdel (m : Mem) (lo k : Nat) (w : wfFrom lo m = true) : wfFrom lo (tdel m k) = true := by
  induction m generalizing lo with
  | nil => rfl
  | cons p r ih =>
    obtain ⟨i, v⟩ := p
    simp only [wfFrom, Bool.and_eq_true, decide_eq_true_eq] at w
    simp only [tdel]
    split
    · exact wfFrom_mono r lo (i + 1) (by omega) w.2
    · split
      · simp only [wfFrom, Bool.and_eq_true, decide_eq_true_eq]
        exact w
      · simp only [wfFrom, Bool.and_eq_true, decide_eq_true_eq]
        exact ⟨w.1, ih (i + 1) w.2⟩

theorem wfFrom_tset (m : Mem) (lo k : Nat) (b : Byte) (hb : b ≠ 0) (hk : lo ≤ k) (w : wfFrom lo m = true) : wfFrom lo (tset m k b) = true := by
  have hb : (b != 0) = true := bne_iff_ne.mpr hb
  induction m generalizing lo with
  | nil => simp only [tset, wfFrom, hk, hb, decide_true, Bool.and_true]
  | cons p r ih =>
    obtain ⟨i, v⟩ := p
    simp only [wfFrom, Bool.and_eq_true, decide_eq_true_eq] at w
    simp only [tset]
    split
    · next hi => subst hi; simp only [wfFrom, hk, hb, w.2, decide_true, Bool.and_true]
    · split
      · next h1 h2 =>
        simp only [wfFrom, Bool.and_eq_true, decide_eq_true_eq]
        exact ⟨⟨hk, hb⟩, ⟨⟨by omega, w.1.2⟩, w.2⟩⟩
      · next h1 h2 =>
        simp only [wfFrom, Bool.and_eq_true, decide_eq_true_eq]
        exact ⟨w.1, ih (i + 1) (by omega) w.2⟩

/-- Writing a byte keeps the canonical form. -/
theorem mset_wf (m : Mem) (a : Nat) (b : Byte) (w : m.wf = true) : (mset m a b).wf = true := by
  unfold mset
  split
  · exact wfFrom_tdel m 0 a w
  · next h => exact wfFrom_tset m 0 a b h (by omega) w

/-- Writing bytes keeps the canonical form. -/
theorem mwrite_wf (bs : List Byte) (m : Mem) (a : Nat) (w : m.wf = true) : (mwrite m a bs).wf = true := by
  induction bs generalizing m a with
  | nil => exact w
  | cons b r ih => exact ih _ _ (mset_wf m a b w)

/-- Writing a number keeps the canonical form. -/
theorem mputNat_wf (m : Mem) (a n v : Nat) (w : m.wf = true) : (mputNat m a n v).wf = true := mwrite_wf _ m a w

/-- Leaving bytes out keeps the canonical form. -/
theorem filter_wf (m : Mem) (p : Host.Cell → Bool) (w : m.wf = true) : Mem.wf (m.filter p) = true := by
  have go : ∀ (m : Mem) (lo : Nat), wfFrom lo m = true → wfFrom lo (m.filter p) = true := by
    intro m
    induction m with
    | nil => intros; rfl
    | cons q r ih =>
      intro lo w
      obtain ⟨i, v⟩ := q
      simp only [wfFrom, Bool.and_eq_true, decide_eq_true_eq] at w
      simp only [List.filter_cons]
      split
      · simp only [wfFrom, Bool.and_eq_true, decide_eq_true_eq]
        exact ⟨w.1, ih (i + 1) w.2⟩
      · exact ih lo (wfFrom_mono r lo (i + 1) (by omega) w.2)
  exact go m 0 w

/-- Any run of byte writes keeps the canonical form. -/
theorem foldl_mset_wf (l : List Host.Cell) (m : Mem) (w : m.wf = true) : (l.foldl (fun m b => mset m b.1 b.2) m).wf = true := by
  induction l generalizing m with
  | nil => exact w
  | cons b r ih => exact ih _ (mset_wf m b.1 b.2 w)

theorem tget_tdel (m : Mem) (lo k : Nat) (w : wfFrom lo m = true) : tget (tdel m k) k = none := by
  induction m generalizing lo with
  | nil => rfl
  | cons p r ih =>
    obtain ⟨i, v⟩ := p
    simp only [wfFrom, Bool.and_eq_true, decide_eq_true_eq] at w
    simp only [tdel]
    split
    · next hi => exact tget_below r (i + 1) k w.2 (by omega)
    · split
      · next h1 h2 => simp [tget, h1, h2]
      · next h1 h2 => simp [tget, h1, h2, ih (i + 1) w.2]

theorem tget_tdel_ne (m : Mem) (lo : Nat) {k j : Nat} (h : j ≠ k) (w : wfFrom lo m = true) : tget (tdel m k) j = tget m j := by
  induction m generalizing lo with
  | nil => rfl
  | cons p r ih =>
    obtain ⟨i, v⟩ := p
    simp only [wfFrom, Bool.and_eq_true, decide_eq_true_eq] at w
    simp only [tdel]
    split
    · next hi =>
      subst hi
      simp only [tget]
      rw [if_neg (Ne.symm h)]
      split
      · exact tget_below r (i + 1) j w.2 (by omega)
      · rfl
    · split
      · rfl
      · simp [tget, ih (i + 1) w.2]

/-- A byte written reads back. -/
@[simp] theorem mget_mset (m : Mem) (a : Nat) (b : Byte) (w : m.wf = true) : mget (mset m a b) a = b := by
  unfold mget mset tgetD
  split
  · next h => rw [tget_tdel m 0 a w, h]; rfl
  · simp

/-- The other bytes stand. -/
theorem mget_mset_ne (m : Mem) (a j : Nat) (b : Byte) (h : j ≠ a) (w : m.wf = true) : mget (mset m a b) j = mget m j := by
  unfold mget mset tgetD
  split
  · rw [tget_tdel_ne m 0 h w]
  · rw [tget_tset_ne m b h]

/-- Bytes outside a run that is written stand. -/
theorem mget_mwrite_out (bs : List Byte) (m : Mem) (a j : Nat) (w : m.wf = true) (h : j < a ∨ a + bs.length ≤ j) : mget (mwrite m a bs) j = mget m j := by
  induction bs generalizing m a with
  | nil => rfl
  | cons b r ih =>
    simp only [List.length_cons] at h
    simp only [mwrite]
    rw [ih (mset m a b) (a + 1) (mset_wf m a b w) (by omega), mget_mset_ne m a j b (by omega) w]

/-- A run of bytes that is written reads back. -/
theorem mget_mwrite (bs : List Byte) (m : Mem) (a i : Nat) (w : m.wf = true) (h : i < bs.length) : mget (mwrite m a bs) (a + i) = bs.getD i 0 := by
  induction bs generalizing m a i with
  | nil => simp at h
  | cons b r ih =>
    simp only [mwrite]
    cases i with
    | zero => rw [show a + 0 = a from rfl, mget_mwrite_out r _ (a + 1) a (mset_wf m a b w) (by omega), mget_mset m a b w]; rfl
    | succ k =>
      have := ih (mset m a b) (a + 1) k (mset_wf m a b w) (by simpa using h)
      rw [show a + (k + 1) = a + 1 + k by omega, this]; rfl

/-- Two memories in canonical form that read alike are the same data. -/
theorem mem_ext (m n : Mem) (hm : m.wf = true) (hn : n.wf = true) (h : ∀ a, mget m a = mget n a) : m = n := by
  have go : ∀ (m n : Mem) (lo : Nat), wfFrom lo m = true → wfFrom lo n = true → (∀ a, mget m a = mget n a) → m = n := by
    intro m
    induction m with
    | nil =>
      intro n lo _ hn h
      cases n with
      | nil => rfl
      | cons q r =>
        obtain ⟨i, v⟩ := q
        have := h i
        simp only [wfFrom, Bool.and_eq_true] at hn
        simp [mget, tgetD, tget] at this
        simp [this] at hn
    | cons p r ih =>
      intro n lo hm hn h
      obtain ⟨i, v⟩ := p
      cases n with
      | nil =>
        have := h i
        simp only [wfFrom, Bool.and_eq_true] at hm
        simp [mget, tgetD, tget] at this
        simp [this] at hm
      | cons q t =>
        obtain ⟨j, u⟩ := q
        simp only [wfFrom, Bool.and_eq_true, decide_eq_true_eq] at hm hn
        have hv : v ≠ 0 := by simpa using hm.1.2
        have hu : u ≠ 0 := by simpa using hn.1.2
        have hij : i = j := by
          rcases Nat.lt_trichotomy i j with hlt | heq | hgt
          · have := h i
            simp [mget, tgetD, tget, show ¬ j = i by omega, hlt] at this
            exact absurd this hv
          · exact heq
          · have := h j
            simp [mget, tgetD, tget, show ¬ i = j by omega, hgt] at this
            exact absurd this.symm hu
        subst hij
        have hvu : v = u := by
          have := h i
          simpa [mget, tgetD, tget] using this
        subst hvu
        have : r = t := by
          refine ih t (i + 1) hm.2 hn.2 (fun a => ?_)
          have ha := h a
          rcases Nat.lt_trichotomy a i with hlt | heq | hgt
          · simp [mget, tgetD, tget_below r (i + 1) a hm.2 (by omega), tget_below t (i + 1) a hn.2 (by omega)]
          · subst heq
            simp [mget, tgetD, tget_below r (a + 1) a hm.2 (by omega), tget_below t (a + 1) a hn.2 (by omega)]
          · simpa [mget, tgetD, tget, show ¬ i = a by omega, show ¬ a < i by omega] using ha
        rw [this]
  exact go m n 0 hm hn h

end Sys2Proof.Machine
end

