-- ==== Sys2Proof/Laws/State.lean ====
section
/-! SUPPORT. What each update of the state leaves of each field, and what reading a part after writing it gives. -/

namespace Sys2Proof.Machine

@[simp] theorem State.setCore_dies (s : State) (c : Nat) (x : Core) : (s.setCore c x).dies = s.dies := rfl
@[simp] theorem State.setCore_links (s : State) (c : Nat) (x : Core) : (s.setCore c x).links = s.links := rfl
@[simp] theorem State.setCore_ctxs (s : State) (c : Nat) (x : Core) : (s.setCore c x).ctxs = s.ctxs := rfl
@[simp] theorem State.setCore_queues (s : State) (c : Nat) (x : Core) : (s.setCore c x).queues = s.queues := rfl
@[simp] theorem State.setCore_groups (s : State) (c : Nat) (x : Core) : (s.setCore c x).groups = s.groups := rfl
@[simp] theorem State.setCore_invals (s : State) (c : Nat) (x : Core) : (s.setCore c x).invals = s.invals := rfl
@[simp] theorem State.setCore_hbm (s : State) (c : Nat) (x : Core) : (s.setCore c x).hbm = s.hbm := rfl
@[simp] theorem State.setCore_hbmKey (s : State) (c : Nat) (x : Core) : (s.setCore c x).hbmKey = s.hbmKey := rfl
@[simp] theorem State.setCore_hostMem (s : State) (c : Nat) (x : Core) : (s.setCore c x).hostMem = s.hostMem := rfl
@[simp] theorem State.setCore_cxlMem (s : State) (c : Nat) (x : Core) : (s.setCore c x).cxlMem = s.cxlMem := rfl
@[simp] theorem State.setCore_tri (s : State) (c : Nat) (x : Core) : (s.setCore c x).tri = s.tri := rfl
@[simp] theorem State.setCore_power (s : State) (c : Nat) (x : Core) : (s.setCore c x).power = s.power := rfl
@[simp] theorem State.setCore_time (s : State) (c : Nat) (x : Core) : (s.setCore c x).time = s.time := rfl
@[simp] theorem State.setCore_msix (s : State) (c : Nat) (x : Core) : (s.setCore c x).msix = s.msix := rfl
@[simp] theorem State.setCore_fmask (s : State) (c : Nat) (x : Core) : (s.setCore c x).fmask = s.fmask := rfl
@[simp] theorem State.setCore_irqs (s : State) (c : Nat) (x : Core) : (s.setCore c x).irqs = s.irqs := rfl
@[simp] theorem State.setCore_reads (s : State) (c : Nat) (x : Core) : (s.setCore c x).reads = s.reads := rfl
@[simp] theorem State.setCore_lost (s : State) (c : Nat) (x : Core) : (s.setCore c x).lost = s.lost := rfl
@[simp] theorem State.setCore_disp (s : State) (c : Nat) (x : Core) : (s.setCore c x).disp = s.disp := rfl
@[simp] theorem State.setCore_nextId (s : State) (c : Nat) (x : Core) : (s.setCore c x).nextId = s.nextId := rfl
@[simp] theorem State.setCore_fresh (s : State) (c : Nat) (x : Core) : (s.setCore c x).fresh = s.fresh := rfl
@[simp] theorem State.setCore_ue (s : State) (c : Nat) (x : Core) : (s.setCore c x).ue = s.ue := rfl
@[simp] theorem State.setCore_agenda (s : State) (c : Nat) (x : Core) : (s.setCore c x).agenda = s.agenda := rfl
@[simp] theorem State.setCore_cur (s : State) (c : Nat) (x : Core) : (s.setCore c x).cur = s.cur := rfl

@[simp] theorem State.modCore_dies (s : State) (c : Nat) (f : Core → Core) : (s.modCore c f).dies = s.dies := rfl
@[simp] theorem State.modCore_links (s : State) (c : Nat) (f : Core → Core) : (s.modCore c f).links = s.links := rfl
@[simp] theorem State.modCore_ctxs (s : State) (c : Nat) (f : Core → Core) : (s.modCore c f).ctxs = s.ctxs := rfl
@[simp] theorem State.modCore_queues (s : State) (c : Nat) (f : Core → Core) : (s.modCore c f).queues = s.queues := rfl
@[simp] theorem State.modCore_groups (s : State) (c : Nat) (f : Core → Core) : (s.modCore c f).groups = s.groups := rfl
@[simp] theorem State.modCore_invals (s : State) (c : Nat) (f : Core → Core) : (s.modCore c f).invals = s.invals := rfl
@[simp] theorem State.modCore_hbm (s : State) (c : Nat) (f : Core → Core) : (s.modCore c f).hbm = s.hbm := rfl
@[simp] theorem State.modCore_hbmKey (s : State) (c : Nat) (f : Core → Core) : (s.modCore c f).hbmKey = s.hbmKey := rfl
@[simp] theorem State.modCore_hostMem (s : State) (c : Nat) (f : Core → Core) : (s.modCore c f).hostMem = s.hostMem := rfl
@[simp] theorem State.modCore_cxlMem (s : State) (c : Nat) (f : Core → Core) : (s.modCore c f).cxlMem = s.cxlMem := rfl
@[simp] theorem State.modCore_tri (s : State) (c : Nat) (f : Core → Core) : (s.modCore c f).tri = s.tri := rfl
@[simp] theorem State.modCore_power (s : State) (c : Nat) (f : Core → Core) : (s.modCore c f).power = s.power := rfl
@[simp] theorem State.modCore_time (s : State) (c : Nat) (f : Core → Core) : (s.modCore c f).time = s.time := rfl
@[simp] theorem State.modCore_msix (s : State) (c : Nat) (f : Core → Core) : (s.modCore c f).msix = s.msix := rfl
@[simp] theorem State.modCore_fmask (s : State) (c : Nat) (f : Core → Core) : (s.modCore c f).fmask = s.fmask := rfl
@[simp] theorem State.modCore_irqs (s : State) (c : Nat) (f : Core → Core) : (s.modCore c f).irqs = s.irqs := rfl
@[simp] theorem State.modCore_reads (s : State) (c : Nat) (f : Core → Core) : (s.modCore c f).reads = s.reads := rfl
@[simp] theorem State.modCore_lost (s : State) (c : Nat) (f : Core → Core) : (s.modCore c f).lost = s.lost := rfl
@[simp] theorem State.modCore_disp (s : State) (c : Nat) (f : Core → Core) : (s.modCore c f).disp = s.disp := rfl
@[simp] theorem State.modCore_nextId (s : State) (c : Nat) (f : Core → Core) : (s.modCore c f).nextId = s.nextId := rfl
@[simp] theorem State.modCore_fresh (s : State) (c : Nat) (f : Core → Core) : (s.modCore c f).fresh = s.fresh := rfl
@[simp] theorem State.modCore_ue (s : State) (c : Nat) (f : Core → Core) : (s.modCore c f).ue = s.ue := rfl
@[simp] theorem State.modCore_agenda (s : State) (c : Nat) (f : Core → Core) : (s.modCore c f).agenda = s.agenda := rfl
@[simp] theorem State.modCore_cur (s : State) (c : Nat) (f : Core → Core) : (s.modCore c f).cur = s.cur := rfl

@[simp] theorem State.modSeat_dies (s : State) (c : Nat) (f : Seat → Seat) : (s.modSeat c f).dies = s.dies := rfl
@[simp] theorem State.modSeat_links (s : State) (c : Nat) (f : Seat → Seat) : (s.modSeat c f).links = s.links := rfl
@[simp] theorem State.modSeat_ctxs (s : State) (c : Nat) (f : Seat → Seat) : (s.modSeat c f).ctxs = s.ctxs := rfl
@[simp] theorem State.modSeat_queues (s : State) (c : Nat) (f : Seat → Seat) : (s.modSeat c f).queues = s.queues := rfl
@[simp] theorem State.modSeat_groups (s : State) (c : Nat) (f : Seat → Seat) : (s.modSeat c f).groups = s.groups := rfl
@[simp] theorem State.modSeat_invals (s : State) (c : Nat) (f : Seat → Seat) : (s.modSeat c f).invals = s.invals := rfl
@[simp] theorem State.modSeat_hbm (s : State) (c : Nat) (f : Seat → Seat) : (s.modSeat c f).hbm = s.hbm := rfl
@[simp] theorem State.modSeat_hbmKey (s : State) (c : Nat) (f : Seat → Seat) : (s.modSeat c f).hbmKey = s.hbmKey := rfl
@[simp] theorem State.modSeat_hostMem (s : State) (c : Nat) (f : Seat → Seat) : (s.modSeat c f).hostMem = s.hostMem := rfl
@[simp] theorem State.modSeat_cxlMem (s : State) (c : Nat) (f : Seat → Seat) : (s.modSeat c f).cxlMem = s.cxlMem := rfl
@[simp] theorem State.modSeat_tri (s : State) (c : Nat) (f : Seat → Seat) : (s.modSeat c f).tri = s.tri := rfl
@[simp] theorem State.modSeat_power (s : State) (c : Nat) (f : Seat → Seat) : (s.modSeat c f).power = s.power := rfl
@[simp] theorem State.modSeat_time (s : State) (c : Nat) (f : Seat → Seat) : (s.modSeat c f).time = s.time := rfl
@[simp] theorem State.modSeat_msix (s : State) (c : Nat) (f : Seat → Seat) : (s.modSeat c f).msix = s.msix := rfl
@[simp] theorem State.modSeat_fmask (s : State) (c : Nat) (f : Seat → Seat) : (s.modSeat c f).fmask = s.fmask := rfl
@[simp] theorem State.modSeat_irqs (s : State) (c : Nat) (f : Seat → Seat) : (s.modSeat c f).irqs = s.irqs := rfl
@[simp] theorem State.modSeat_reads (s : State) (c : Nat) (f : Seat → Seat) : (s.modSeat c f).reads = s.reads := rfl
@[simp] theorem State.modSeat_lost (s : State) (c : Nat) (f : Seat → Seat) : (s.modSeat c f).lost = s.lost := rfl
@[simp] theorem State.modSeat_disp (s : State) (c : Nat) (f : Seat → Seat) : (s.modSeat c f).disp = s.disp := rfl
@[simp] theorem State.modSeat_nextId (s : State) (c : Nat) (f : Seat → Seat) : (s.modSeat c f).nextId = s.nextId := rfl
@[simp] theorem State.modSeat_fresh (s : State) (c : Nat) (f : Seat → Seat) : (s.modSeat c f).fresh = s.fresh := rfl
@[simp] theorem State.modSeat_ue (s : State) (c : Nat) (f : Seat → Seat) : (s.modSeat c f).ue = s.ue := rfl
@[simp] theorem State.modSeat_agenda (s : State) (c : Nat) (f : Seat → Seat) : (s.modSeat c f).agenda = s.agenda := rfl
@[simp] theorem State.modSeat_cur (s : State) (c : Nat) (f : Seat → Seat) : (s.modSeat c f).cur = s.cur := rfl

@[simp] theorem State.modMem_dies (s : State) (c : Nat) (f : Member → Member) : (s.modMem c f).dies = s.dies := rfl
@[simp] theorem State.modMem_links (s : State) (c : Nat) (f : Member → Member) : (s.modMem c f).links = s.links := rfl
@[simp] theorem State.modMem_ctxs (s : State) (c : Nat) (f : Member → Member) : (s.modMem c f).ctxs = s.ctxs := rfl
@[simp] theorem State.modMem_queues (s : State) (c : Nat) (f : Member → Member) : (s.modMem c f).queues = s.queues := rfl
@[simp] theorem State.modMem_groups (s : State) (c : Nat) (f : Member → Member) : (s.modMem c f).groups = s.groups := rfl
@[simp] theorem State.modMem_invals (s : State) (c : Nat) (f : Member → Member) : (s.modMem c f).invals = s.invals := rfl
@[simp] theorem State.modMem_hbm (s : State) (c : Nat) (f : Member → Member) : (s.modMem c f).hbm = s.hbm := rfl
@[simp] theorem State.modMem_hbmKey (s : State) (c : Nat) (f : Member → Member) : (s.modMem c f).hbmKey = s.hbmKey := rfl
@[simp] theorem State.modMem_hostMem (s : State) (c : Nat) (f : Member → Member) : (s.modMem c f).hostMem = s.hostMem := rfl
@[simp] theorem State.modMem_cxlMem (s : State) (c : Nat) (f : Member → Member) : (s.modMem c f).cxlMem = s.cxlMem := rfl
@[simp] theorem State.modMem_tri (s : State) (c : Nat) (f : Member → Member) : (s.modMem c f).tri = s.tri := rfl
@[simp] theorem State.modMem_power (s : State) (c : Nat) (f : Member → Member) : (s.modMem c f).power = s.power := rfl
@[simp] theorem State.modMem_time (s : State) (c : Nat) (f : Member → Member) : (s.modMem c f).time = s.time := rfl
@[simp] theorem State.modMem_msix (s : State) (c : Nat) (f : Member → Member) : (s.modMem c f).msix = s.msix := rfl
@[simp] theorem State.modMem_fmask (s : State) (c : Nat) (f : Member → Member) : (s.modMem c f).fmask = s.fmask := rfl
@[simp] theorem State.modMem_irqs (s : State) (c : Nat) (f : Member → Member) : (s.modMem c f).irqs = s.irqs := rfl
@[simp] theorem State.modMem_reads (s : State) (c : Nat) (f : Member → Member) : (s.modMem c f).reads = s.reads := rfl
@[simp] theorem State.modMem_lost (s : State) (c : Nat) (f : Member → Member) : (s.modMem c f).lost = s.lost := rfl
@[simp] theorem State.modMem_disp (s : State) (c : Nat) (f : Member → Member) : (s.modMem c f).disp = s.disp := rfl
@[simp] theorem State.modMem_nextId (s : State) (c : Nat) (f : Member → Member) : (s.modMem c f).nextId = s.nextId := rfl
@[simp] theorem State.modMem_fresh (s : State) (c : Nat) (f : Member → Member) : (s.modMem c f).fresh = s.fresh := rfl
@[simp] theorem State.modMem_ue (s : State) (c : Nat) (f : Member → Member) : (s.modMem c f).ue = s.ue := rfl
@[simp] theorem State.modMem_agenda (s : State) (c : Nat) (f : Member → Member) : (s.modMem c f).agenda = s.agenda := rfl
@[simp] theorem State.modMem_cur (s : State) (c : Nat) (f : Member → Member) : (s.modMem c f).cur = s.cur := rfl

@[simp] theorem State.modCm_dies (s : State) (f : Member → Member) : (s.modCm f).dies = s.dies := rfl
@[simp] theorem State.modCm_links (s : State) (f : Member → Member) : (s.modCm f).links = s.links := rfl
@[simp] theorem State.modCm_ctxs (s : State) (f : Member → Member) : (s.modCm f).ctxs = s.ctxs := rfl
@[simp] theorem State.modCm_queues (s : State) (f : Member → Member) : (s.modCm f).queues = s.queues := rfl
@[simp] theorem State.modCm_groups (s : State) (f : Member → Member) : (s.modCm f).groups = s.groups := rfl
@[simp] theorem State.modCm_invals (s : State) (f : Member → Member) : (s.modCm f).invals = s.invals := rfl
@[simp] theorem State.modCm_hbm (s : State) (f : Member → Member) : (s.modCm f).hbm = s.hbm := rfl
@[simp] theorem State.modCm_hbmKey (s : State) (f : Member → Member) : (s.modCm f).hbmKey = s.hbmKey := rfl
@[simp] theorem State.modCm_hostMem (s : State) (f : Member → Member) : (s.modCm f).hostMem = s.hostMem := rfl
@[simp] theorem State.modCm_cxlMem (s : State) (f : Member → Member) : (s.modCm f).cxlMem = s.cxlMem := rfl
@[simp] theorem State.modCm_tri (s : State) (f : Member → Member) : (s.modCm f).tri = s.tri := rfl
@[simp] theorem State.modCm_power (s : State) (f : Member → Member) : (s.modCm f).power = s.power := rfl
@[simp] theorem State.modCm_time (s : State) (f : Member → Member) : (s.modCm f).time = s.time := rfl
@[simp] theorem State.modCm_msix (s : State) (f : Member → Member) : (s.modCm f).msix = s.msix := rfl
@[simp] theorem State.modCm_fmask (s : State) (f : Member → Member) : (s.modCm f).fmask = s.fmask := rfl
@[simp] theorem State.modCm_irqs (s : State) (f : Member → Member) : (s.modCm f).irqs = s.irqs := rfl
@[simp] theorem State.modCm_reads (s : State) (f : Member → Member) : (s.modCm f).reads = s.reads := rfl
@[simp] theorem State.modCm_lost (s : State) (f : Member → Member) : (s.modCm f).lost = s.lost := rfl
@[simp] theorem State.modCm_disp (s : State) (f : Member → Member) : (s.modCm f).disp = s.disp := rfl
@[simp] theorem State.modCm_nextId (s : State) (f : Member → Member) : (s.modCm f).nextId = s.nextId := rfl
@[simp] theorem State.modCm_fresh (s : State) (f : Member → Member) : (s.modCm f).fresh = s.fresh := rfl
@[simp] theorem State.modCm_ue (s : State) (f : Member → Member) : (s.modCm f).ue = s.ue := rfl
@[simp] theorem State.modCm_agenda (s : State) (f : Member → Member) : (s.modCm f).agenda = s.agenda := rfl
@[simp] theorem State.modCm_cur (s : State) (f : Member → Member) : (s.modCm f).cur = s.cur := rfl

@[simp] theorem State.putS_dies (s : State) (n : Nat) (v : Word) : (s.putS n v).dies = s.dies := rfl
@[simp] theorem State.putS_links (s : State) (n : Nat) (v : Word) : (s.putS n v).links = s.links := rfl
@[simp] theorem State.putS_ctxs (s : State) (n : Nat) (v : Word) : (s.putS n v).ctxs = s.ctxs := rfl
@[simp] theorem State.putS_queues (s : State) (n : Nat) (v : Word) : (s.putS n v).queues = s.queues := rfl
@[simp] theorem State.putS_groups (s : State) (n : Nat) (v : Word) : (s.putS n v).groups = s.groups := rfl
@[simp] theorem State.putS_invals (s : State) (n : Nat) (v : Word) : (s.putS n v).invals = s.invals := rfl
@[simp] theorem State.putS_hbm (s : State) (n : Nat) (v : Word) : (s.putS n v).hbm = s.hbm := rfl
@[simp] theorem State.putS_hbmKey (s : State) (n : Nat) (v : Word) : (s.putS n v).hbmKey = s.hbmKey := rfl
@[simp] theorem State.putS_hostMem (s : State) (n : Nat) (v : Word) : (s.putS n v).hostMem = s.hostMem := rfl
@[simp] theorem State.putS_cxlMem (s : State) (n : Nat) (v : Word) : (s.putS n v).cxlMem = s.cxlMem := rfl
@[simp] theorem State.putS_tri (s : State) (n : Nat) (v : Word) : (s.putS n v).tri = s.tri := rfl
@[simp] theorem State.putS_power (s : State) (n : Nat) (v : Word) : (s.putS n v).power = s.power := rfl
@[simp] theorem State.putS_time (s : State) (n : Nat) (v : Word) : (s.putS n v).time = s.time := rfl
@[simp] theorem State.putS_msix (s : State) (n : Nat) (v : Word) : (s.putS n v).msix = s.msix := rfl
@[simp] theorem State.putS_fmask (s : State) (n : Nat) (v : Word) : (s.putS n v).fmask = s.fmask := rfl
@[simp] theorem State.putS_irqs (s : State) (n : Nat) (v : Word) : (s.putS n v).irqs = s.irqs := rfl
@[simp] theorem State.putS_reads (s : State) (n : Nat) (v : Word) : (s.putS n v).reads = s.reads := rfl
@[simp] theorem State.putS_lost (s : State) (n : Nat) (v : Word) : (s.putS n v).lost = s.lost := rfl
@[simp] theorem State.putS_disp (s : State) (n : Nat) (v : Word) : (s.putS n v).disp = s.disp := rfl
@[simp] theorem State.putS_nextId (s : State) (n : Nat) (v : Word) : (s.putS n v).nextId = s.nextId := rfl
@[simp] theorem State.putS_fresh (s : State) (n : Nat) (v : Word) : (s.putS n v).fresh = s.fresh := rfl
@[simp] theorem State.putS_ue (s : State) (n : Nat) (v : Word) : (s.putS n v).ue = s.ue := rfl
@[simp] theorem State.putS_agenda (s : State) (n : Nat) (v : Word) : (s.putS n v).agenda = s.agenda := rfl
@[simp] theorem State.putS_cur (s : State) (n : Nat) (v : Word) : (s.putS n v).cur = s.cur := rfl

@[simp] theorem State.modDie_cores (s : State) (d : Nat) (f : Die → Die) : (s.modDie d f).cores = s.cores := rfl
@[simp] theorem State.modDie_links (s : State) (d : Nat) (f : Die → Die) : (s.modDie d f).links = s.links := rfl
@[simp] theorem State.modDie_ctxs (s : State) (d : Nat) (f : Die → Die) : (s.modDie d f).ctxs = s.ctxs := rfl
@[simp] theorem State.modDie_queues (s : State) (d : Nat) (f : Die → Die) : (s.modDie d f).queues = s.queues := rfl
@[simp] theorem State.modDie_groups (s : State) (d : Nat) (f : Die → Die) : (s.modDie d f).groups = s.groups := rfl
@[simp] theorem State.modDie_invals (s : State) (d : Nat) (f : Die → Die) : (s.modDie d f).invals = s.invals := rfl
@[simp] theorem State.modDie_hbm (s : State) (d : Nat) (f : Die → Die) : (s.modDie d f).hbm = s.hbm := rfl
@[simp] theorem State.modDie_hbmKey (s : State) (d : Nat) (f : Die → Die) : (s.modDie d f).hbmKey = s.hbmKey := rfl
@[simp] theorem State.modDie_hostMem (s : State) (d : Nat) (f : Die → Die) : (s.modDie d f).hostMem = s.hostMem := rfl
@[simp] theorem State.modDie_cxlMem (s : State) (d : Nat) (f : Die → Die) : (s.modDie d f).cxlMem = s.cxlMem := rfl
@[simp] theorem State.modDie_tri (s : State) (d : Nat) (f : Die → Die) : (s.modDie d f).tri = s.tri := rfl
@[simp] theorem State.modDie_power (s : State) (d : Nat) (f : Die → Die) : (s.modDie d f).power = s.power := rfl
@[simp] theorem State.modDie_time (s : State) (d : Nat) (f : Die → Die) : (s.modDie d f).time = s.time := rfl
@[simp] theorem State.modDie_msix (s : State) (d : Nat) (f : Die → Die) : (s.modDie d f).msix = s.msix := rfl
@[simp] theorem State.modDie_fmask (s : State) (d : Nat) (f : Die → Die) : (s.modDie d f).fmask = s.fmask := rfl
@[simp] theorem State.modDie_irqs (s : State) (d : Nat) (f : Die → Die) : (s.modDie d f).irqs = s.irqs := rfl
@[simp] theorem State.modDie_reads (s : State) (d : Nat) (f : Die → Die) : (s.modDie d f).reads = s.reads := rfl
@[simp] theorem State.modDie_lost (s : State) (d : Nat) (f : Die → Die) : (s.modDie d f).lost = s.lost := rfl
@[simp] theorem State.modDie_disp (s : State) (d : Nat) (f : Die → Die) : (s.modDie d f).disp = s.disp := rfl
@[simp] theorem State.modDie_nextId (s : State) (d : Nat) (f : Die → Die) : (s.modDie d f).nextId = s.nextId := rfl
@[simp] theorem State.modDie_fresh (s : State) (d : Nat) (f : Die → Die) : (s.modDie d f).fresh = s.fresh := rfl
@[simp] theorem State.modDie_ue (s : State) (d : Nat) (f : Die → Die) : (s.modDie d f).ue = s.ue := rfl
@[simp] theorem State.modDie_agenda (s : State) (d : Nat) (f : Die → Die) : (s.modDie d f).agenda = s.agenda := rfl
@[simp] theorem State.modDie_cur (s : State) (d : Nat) (f : Die → Die) : (s.modDie d f).cur = s.cur := rfl

@[simp] theorem State.modLink_cores (s : State) (l : Nat) (f : Link → Link) : (s.modLink l f).cores = s.cores := rfl
@[simp] theorem State.modLink_dies (s : State) (l : Nat) (f : Link → Link) : (s.modLink l f).dies = s.dies := rfl
@[simp] theorem State.modLink_ctxs (s : State) (l : Nat) (f : Link → Link) : (s.modLink l f).ctxs = s.ctxs := rfl
@[simp] theorem State.modLink_queues (s : State) (l : Nat) (f : Link → Link) : (s.modLink l f).queues = s.queues := rfl
@[simp] theorem State.modLink_groups (s : State) (l : Nat) (f : Link → Link) : (s.modLink l f).groups = s.groups := rfl
@[simp] theorem State.modLink_invals (s : State) (l : Nat) (f : Link → Link) : (s.modLink l f).invals = s.invals := rfl
@[simp] theorem State.modLink_hbm (s : State) (l : Nat) (f : Link → Link) : (s.modLink l f).hbm = s.hbm := rfl
@[simp] theorem State.modLink_hbmKey (s : State) (l : Nat) (f : Link → Link) : (s.modLink l f).hbmKey = s.hbmKey := rfl
@[simp] theorem State.modLink_hostMem (s : State) (l : Nat) (f : Link → Link) : (s.modLink l f).hostMem = s.hostMem := rfl
@[simp] theorem State.modLink_cxlMem (s : State) (l : Nat) (f : Link → Link) : (s.modLink l f).cxlMem = s.cxlMem := rfl
@[simp] theorem State.modLink_tri (s : State) (l : Nat) (f : Link → Link) : (s.modLink l f).tri = s.tri := rfl
@[simp] theorem State.modLink_power (s : State) (l : Nat) (f : Link → Link) : (s.modLink l f).power = s.power := rfl
@[simp] theorem State.modLink_time (s : State) (l : Nat) (f : Link → Link) : (s.modLink l f).time = s.time := rfl
@[simp] theorem State.modLink_msix (s : State) (l : Nat) (f : Link → Link) : (s.modLink l f).msix = s.msix := rfl
@[simp] theorem State.modLink_fmask (s : State) (l : Nat) (f : Link → Link) : (s.modLink l f).fmask = s.fmask := rfl
@[simp] theorem State.modLink_irqs (s : State) (l : Nat) (f : Link → Link) : (s.modLink l f).irqs = s.irqs := rfl
@[simp] theorem State.modLink_reads (s : State) (l : Nat) (f : Link → Link) : (s.modLink l f).reads = s.reads := rfl
@[simp] theorem State.modLink_lost (s : State) (l : Nat) (f : Link → Link) : (s.modLink l f).lost = s.lost := rfl
@[simp] theorem State.modLink_disp (s : State) (l : Nat) (f : Link → Link) : (s.modLink l f).disp = s.disp := rfl
@[simp] theorem State.modLink_nextId (s : State) (l : Nat) (f : Link → Link) : (s.modLink l f).nextId = s.nextId := rfl
@[simp] theorem State.modLink_fresh (s : State) (l : Nat) (f : Link → Link) : (s.modLink l f).fresh = s.fresh := rfl
@[simp] theorem State.modLink_ue (s : State) (l : Nat) (f : Link → Link) : (s.modLink l f).ue = s.ue := rfl
@[simp] theorem State.modLink_agenda (s : State) (l : Nat) (f : Link → Link) : (s.modLink l f).agenda = s.agenda := rfl
@[simp] theorem State.modLink_cur (s : State) (l : Nat) (f : Link → Link) : (s.modLink l f).cur = s.cur := rfl

@[simp] theorem State.modCtx_cores (s : State) (x : Nat) (f : Ctx → Ctx) : (s.modCtx x f).cores = s.cores := rfl
@[simp] theorem State.modCtx_dies (s : State) (x : Nat) (f : Ctx → Ctx) : (s.modCtx x f).dies = s.dies := rfl
@[simp] theorem State.modCtx_links (s : State) (x : Nat) (f : Ctx → Ctx) : (s.modCtx x f).links = s.links := rfl
@[simp] theorem State.modCtx_queues (s : State) (x : Nat) (f : Ctx → Ctx) : (s.modCtx x f).queues = s.queues := rfl
@[simp] theorem State.modCtx_groups (s : State) (x : Nat) (f : Ctx → Ctx) : (s.modCtx x f).groups = s.groups := rfl
@[simp] theorem State.modCtx_invals (s : State) (x : Nat) (f : Ctx → Ctx) : (s.modCtx x f).invals = s.invals := rfl
@[simp] theorem State.modCtx_hbm (s : State) (x : Nat) (f : Ctx → Ctx) : (s.modCtx x f).hbm = s.hbm := rfl
@[simp] theorem State.modCtx_hbmKey (s : State) (x : Nat) (f : Ctx → Ctx) : (s.modCtx x f).hbmKey = s.hbmKey := rfl
@[simp] theorem State.modCtx_hostMem (s : State) (x : Nat) (f : Ctx → Ctx) : (s.modCtx x f).hostMem = s.hostMem := rfl
@[simp] theorem State.modCtx_cxlMem (s : State) (x : Nat) (f : Ctx → Ctx) : (s.modCtx x f).cxlMem = s.cxlMem := rfl
@[simp] theorem State.modCtx_tri (s : State) (x : Nat) (f : Ctx → Ctx) : (s.modCtx x f).tri = s.tri := rfl
@[simp] theorem State.modCtx_power (s : State) (x : Nat) (f : Ctx → Ctx) : (s.modCtx x f).power = s.power := rfl
@[simp] theorem State.modCtx_time (s : State) (x : Nat) (f : Ctx → Ctx) : (s.modCtx x f).time = s.time := rfl
@[simp] theorem State.modCtx_msix (s : State) (x : Nat) (f : Ctx → Ctx) : (s.modCtx x f).msix = s.msix := rfl
@[simp] theorem State.modCtx_fmask (s : State) (x : Nat) (f : Ctx → Ctx) : (s.modCtx x f).fmask = s.fmask := rfl
@[simp] theorem State.modCtx_irqs (s : State) (x : Nat) (f : Ctx → Ctx) : (s.modCtx x f).irqs = s.irqs := rfl
@[simp] theorem State.modCtx_reads (s : State) (x : Nat) (f : Ctx → Ctx) : (s.modCtx x f).reads = s.reads := rfl
@[simp] theorem State.modCtx_lost (s : State) (x : Nat) (f : Ctx → Ctx) : (s.modCtx x f).lost = s.lost := rfl
@[simp] theorem State.modCtx_disp (s : State) (x : Nat) (f : Ctx → Ctx) : (s.modCtx x f).disp = s.disp := rfl
@[simp] theorem State.modCtx_nextId (s : State) (x : Nat) (f : Ctx → Ctx) : (s.modCtx x f).nextId = s.nextId := rfl
@[simp] theorem State.modCtx_fresh (s : State) (x : Nat) (f : Ctx → Ctx) : (s.modCtx x f).fresh = s.fresh := rfl
@[simp] theorem State.modCtx_ue (s : State) (x : Nat) (f : Ctx → Ctx) : (s.modCtx x f).ue = s.ue := rfl
@[simp] theorem State.modCtx_agenda (s : State) (x : Nat) (f : Ctx → Ctx) : (s.modCtx x f).agenda = s.agenda := rfl
@[simp] theorem State.modCtx_cur (s : State) (x : Nat) (f : Ctx → Ctx) : (s.modCtx x f).cur = s.cur := rfl

@[simp] theorem State.modQueue_cores (s : State) (q : Nat) (f : Queue → Queue) : (s.modQueue q f).cores = s.cores := rfl
@[simp] theorem State.modQueue_dies (s : State) (q : Nat) (f : Queue → Queue) : (s.modQueue q f).dies = s.dies := rfl
@[simp] theorem State.modQueue_links (s : State) (q : Nat) (f : Queue → Queue) : (s.modQueue q f).links = s.links := rfl
@[simp] theorem State.modQueue_ctxs (s : State) (q : Nat) (f : Queue → Queue) : (s.modQueue q f).ctxs = s.ctxs := rfl
@[simp] theorem State.modQueue_groups (s : State) (q : Nat) (f : Queue → Queue) : (s.modQueue q f).groups = s.groups := rfl
@[simp] theorem State.modQueue_invals (s : State) (q : Nat) (f : Queue → Queue) : (s.modQueue q f).invals = s.invals := rfl
@[simp] theorem State.modQueue_hbm (s : State) (q : Nat) (f : Queue → Queue) : (s.modQueue q f).hbm = s.hbm := rfl
@[simp] theorem State.modQueue_hbmKey (s : State) (q : Nat) (f : Queue → Queue) : (s.modQueue q f).hbmKey = s.hbmKey := rfl
@[simp] theorem State.modQueue_hostMem (s : State) (q : Nat) (f : Queue → Queue) : (s.modQueue q f).hostMem = s.hostMem := rfl
@[simp] theorem State.modQueue_cxlMem (s : State) (q : Nat) (f : Queue → Queue) : (s.modQueue q f).cxlMem = s.cxlMem := rfl
@[simp] theorem State.modQueue_tri (s : State) (q : Nat) (f : Queue → Queue) : (s.modQueue q f).tri = s.tri := rfl
@[simp] theorem State.modQueue_power (s : State) (q : Nat) (f : Queue → Queue) : (s.modQueue q f).power = s.power := rfl
@[simp] theorem State.modQueue_time (s : State) (q : Nat) (f : Queue → Queue) : (s.modQueue q f).time = s.time := rfl
@[simp] theorem State.modQueue_msix (s : State) (q : Nat) (f : Queue → Queue) : (s.modQueue q f).msix = s.msix := rfl
@[simp] theorem State.modQueue_fmask (s : State) (q : Nat) (f : Queue → Queue) : (s.modQueue q f).fmask = s.fmask := rfl
@[simp] theorem State.modQueue_irqs (s : State) (q : Nat) (f : Queue → Queue) : (s.modQueue q f).irqs = s.irqs := rfl
@[simp] theorem State.modQueue_reads (s : State) (q : Nat) (f : Queue → Queue) : (s.modQueue q f).reads = s.reads := rfl
@[simp] theorem State.modQueue_lost (s : State) (q : Nat) (f : Queue → Queue) : (s.modQueue q f).lost = s.lost := rfl
@[simp] theorem State.modQueue_disp (s : State) (q : Nat) (f : Queue → Queue) : (s.modQueue q f).disp = s.disp := rfl
@[simp] theorem State.modQueue_nextId (s : State) (q : Nat) (f : Queue → Queue) : (s.modQueue q f).nextId = s.nextId := rfl
@[simp] theorem State.modQueue_fresh (s : State) (q : Nat) (f : Queue → Queue) : (s.modQueue q f).fresh = s.fresh := rfl
@[simp] theorem State.modQueue_ue (s : State) (q : Nat) (f : Queue → Queue) : (s.modQueue q f).ue = s.ue := rfl
@[simp] theorem State.modQueue_agenda (s : State) (q : Nat) (f : Queue → Queue) : (s.modQueue q f).agenda = s.agenda := rfl
@[simp] theorem State.modQueue_cur (s : State) (q : Nat) (f : Queue → Queue) : (s.modQueue q f).cur = s.cur := rfl

@[simp] theorem State.modGroup_cores (s : State) (g : Nat) (f : Group → Group) : (s.modGroup g f).cores = s.cores := rfl
@[simp] theorem State.modGroup_dies (s : State) (g : Nat) (f : Group → Group) : (s.modGroup g f).dies = s.dies := rfl
@[simp] theorem State.modGroup_links (s : State) (g : Nat) (f : Group → Group) : (s.modGroup g f).links = s.links := rfl
@[simp] theorem State.modGroup_ctxs (s : State) (g : Nat) (f : Group → Group) : (s.modGroup g f).ctxs = s.ctxs := rfl
@[simp] theorem State.modGroup_queues (s : State) (g : Nat) (f : Group → Group) : (s.modGroup g f).queues = s.queues := rfl
@[simp] theorem State.modGroup_invals (s : State) (g : Nat) (f : Group → Group) : (s.modGroup g f).invals = s.invals := rfl
@[simp] theorem State.modGroup_hbm (s : State) (g : Nat) (f : Group → Group) : (s.modGroup g f).hbm = s.hbm := rfl
@[simp] theorem State.modGroup_hbmKey (s : State) (g : Nat) (f : Group → Group) : (s.modGroup g f).hbmKey = s.hbmKey := rfl
@[simp] theorem State.modGroup_hostMem (s : State) (g : Nat) (f : Group → Group) : (s.modGroup g f).hostMem = s.hostMem := rfl
@[simp] theorem State.modGroup_cxlMem (s : State) (g : Nat) (f : Group → Group) : (s.modGroup g f).cxlMem = s.cxlMem := rfl
@[simp] theorem State.modGroup_tri (s : State) (g : Nat) (f : Group → Group) : (s.modGroup g f).tri = s.tri := rfl
@[simp] theorem State.modGroup_power (s : State) (g : Nat) (f : Group → Group) : (s.modGroup g f).power = s.power := rfl
@[simp] theorem State.modGroup_time (s : State) (g : Nat) (f : Group → Group) : (s.modGroup g f).time = s.time := rfl
@[simp] theorem State.modGroup_msix (s : State) (g : Nat) (f : Group → Group) : (s.modGroup g f).msix = s.msix := rfl
@[simp] theorem State.modGroup_fmask (s : State) (g : Nat) (f : Group → Group) : (s.modGroup g f).fmask = s.fmask := rfl
@[simp] theorem State.modGroup_irqs (s : State) (g : Nat) (f : Group → Group) : (s.modGroup g f).irqs = s.irqs := rfl
@[simp] theorem State.modGroup_reads (s : State) (g : Nat) (f : Group → Group) : (s.modGroup g f).reads = s.reads := rfl
@[simp] theorem State.modGroup_lost (s : State) (g : Nat) (f : Group → Group) : (s.modGroup g f).lost = s.lost := rfl
@[simp] theorem State.modGroup_disp (s : State) (g : Nat) (f : Group → Group) : (s.modGroup g f).disp = s.disp := rfl
@[simp] theorem State.modGroup_nextId (s : State) (g : Nat) (f : Group → Group) : (s.modGroup g f).nextId = s.nextId := rfl
@[simp] theorem State.modGroup_fresh (s : State) (g : Nat) (f : Group → Group) : (s.modGroup g f).fresh = s.fresh := rfl
@[simp] theorem State.modGroup_ue (s : State) (g : Nat) (f : Group → Group) : (s.modGroup g f).ue = s.ue := rfl
@[simp] theorem State.modGroup_agenda (s : State) (g : Nat) (f : Group → Group) : (s.modGroup g f).agenda = s.agenda := rfl
@[simp] theorem State.modGroup_cur (s : State) (g : Nat) (f : Group → Group) : (s.modGroup g f).cur = s.cur := rfl

@[simp] theorem State.finish_cores (s : State) (st : Status) : (s.finish st).cores = s.cores := rfl
@[simp] theorem State.finish_dies (s : State) (st : Status) : (s.finish st).dies = s.dies := rfl
@[simp] theorem State.finish_links (s : State) (st : Status) : (s.finish st).links = s.links := rfl
@[simp] theorem State.finish_ctxs (s : State) (st : Status) : (s.finish st).ctxs = s.ctxs := rfl
@[simp] theorem State.finish_queues (s : State) (st : Status) : (s.finish st).queues = s.queues := rfl
@[simp] theorem State.finish_groups (s : State) (st : Status) : (s.finish st).groups = s.groups := rfl
@[simp] theorem State.finish_invals (s : State) (st : Status) : (s.finish st).invals = s.invals := rfl
@[simp] theorem State.finish_hbm (s : State) (st : Status) : (s.finish st).hbm = s.hbm := rfl
@[simp] theorem State.finish_hbmKey (s : State) (st : Status) : (s.finish st).hbmKey = s.hbmKey := rfl
@[simp] theorem State.finish_hostMem (s : State) (st : Status) : (s.finish st).hostMem = s.hostMem := rfl
@[simp] theorem State.finish_cxlMem (s : State) (st : Status) : (s.finish st).cxlMem = s.cxlMem := rfl
@[simp] theorem State.finish_tri (s : State) (st : Status) : (s.finish st).tri = s.tri := rfl
@[simp] theorem State.finish_power (s : State) (st : Status) : (s.finish st).power = s.power := rfl
@[simp] theorem State.finish_time (s : State) (st : Status) : (s.finish st).time = s.time := rfl
@[simp] theorem State.finish_msix (s : State) (st : Status) : (s.finish st).msix = s.msix := rfl
@[simp] theorem State.finish_fmask (s : State) (st : Status) : (s.finish st).fmask = s.fmask := rfl
@[simp] theorem State.finish_irqs (s : State) (st : Status) : (s.finish st).irqs = s.irqs := rfl
@[simp] theorem State.finish_reads (s : State) (st : Status) : (s.finish st).reads = s.reads := rfl
@[simp] theorem State.finish_lost (s : State) (st : Status) : (s.finish st).lost = s.lost := rfl
@[simp] theorem State.finish_disp (s : State) (st : Status) : (s.finish st).disp = s.disp := rfl
@[simp] theorem State.finish_nextId (s : State) (st : Status) : (s.finish st).nextId = s.nextId := rfl
@[simp] theorem State.finish_fresh (s : State) (st : Status) : (s.finish st).fresh = s.fresh := rfl
@[simp] theorem State.finish_ue (s : State) (st : Status) : (s.finish st).ue = s.ue := rfl
@[simp] theorem State.finish_agenda (s : State) (st : Status) : (s.finish st).agenda = s.agenda := rfl

@[simp] theorem State.setCur_cores (s : State) (c : Nat) (g : Eng) (e : Entry) : (s.setCur c g e).cores = s.cores := rfl
@[simp] theorem State.setCur_dies (s : State) (c : Nat) (g : Eng) (e : Entry) : (s.setCur c g e).dies = s.dies := rfl
@[simp] theorem State.setCur_links (s : State) (c : Nat) (g : Eng) (e : Entry) : (s.setCur c g e).links = s.links := rfl
@[simp] theorem State.setCur_ctxs (s : State) (c : Nat) (g : Eng) (e : Entry) : (s.setCur c g e).ctxs = s.ctxs := rfl
@[simp] theorem State.setCur_queues (s : State) (c : Nat) (g : Eng) (e : Entry) : (s.setCur c g e).queues = s.queues := rfl
@[simp] theorem State.setCur_groups (s : State) (c : Nat) (g : Eng) (e : Entry) : (s.setCur c g e).groups = s.groups := rfl
@[simp] theorem State.setCur_invals (s : State) (c : Nat) (g : Eng) (e : Entry) : (s.setCur c g e).invals = s.invals := rfl
@[simp] theorem State.setCur_hbm (s : State) (c : Nat) (g : Eng) (e : Entry) : (s.setCur c g e).hbm = s.hbm := rfl
@[simp] theorem State.setCur_hbmKey (s : State) (c : Nat) (g : Eng) (e : Entry) : (s.setCur c g e).hbmKey = s.hbmKey := rfl
@[simp] theorem State.setCur_hostMem (s : State) (c : Nat) (g : Eng) (e : Entry) : (s.setCur c g e).hostMem = s.hostMem := rfl
@[simp] theorem State.setCur_cxlMem (s : State) (c : Nat) (g : Eng) (e : Entry) : (s.setCur c g e).cxlMem = s.cxlMem := rfl
@[simp] theorem State.setCur_tri (s : State) (c : Nat) (g : Eng) (e : Entry) : (s.setCur c g e).tri = s.tri := rfl
@[simp] theorem State.setCur_power (s : State) (c : Nat) (g : Eng) (e : Entry) : (s.setCur c g e).power = s.power := rfl
@[simp] theorem State.setCur_time (s : State) (c : Nat) (g : Eng) (e : Entry) : (s.setCur c g e).time = s.time := rfl
@[simp] theorem State.setCur_msix (s : State) (c : Nat) (g : Eng) (e : Entry) : (s.setCur c g e).msix = s.msix := rfl
@[simp] theorem State.setCur_fmask (s : State) (c : Nat) (g : Eng) (e : Entry) : (s.setCur c g e).fmask = s.fmask := rfl
@[simp] theorem State.setCur_irqs (s : State) (c : Nat) (g : Eng) (e : Entry) : (s.setCur c g e).irqs = s.irqs := rfl
@[simp] theorem State.setCur_reads (s : State) (c : Nat) (g : Eng) (e : Entry) : (s.setCur c g e).reads = s.reads := rfl
@[simp] theorem State.setCur_lost (s : State) (c : Nat) (g : Eng) (e : Entry) : (s.setCur c g e).lost = s.lost := rfl
@[simp] theorem State.setCur_disp (s : State) (c : Nat) (g : Eng) (e : Entry) : (s.setCur c g e).disp = s.disp := rfl
@[simp] theorem State.setCur_nextId (s : State) (c : Nat) (g : Eng) (e : Entry) : (s.setCur c g e).nextId = s.nextId := rfl
@[simp] theorem State.setCur_fresh (s : State) (c : Nat) (g : Eng) (e : Entry) : (s.setCur c g e).fresh = s.fresh := rfl
@[simp] theorem State.setCur_ue (s : State) (c : Nat) (g : Eng) (e : Entry) : (s.setCur c g e).ue = s.ue := rfl
@[simp] theorem State.setCur_agenda (s : State) (c : Nat) (g : Eng) (e : Entry) : (s.setCur c g e).agenda = s.agenda := rfl

@[simp] theorem State.modEnt_cores (s : State) (f : Entry → Entry) : (s.modEnt f).cores = s.cores := rfl
@[simp] theorem State.modEnt_dies (s : State) (f : Entry → Entry) : (s.modEnt f).dies = s.dies := rfl
@[simp] theorem State.modEnt_links (s : State) (f : Entry → Entry) : (s.modEnt f).links = s.links := rfl
@[simp] theorem State.modEnt_ctxs (s : State) (f : Entry → Entry) : (s.modEnt f).ctxs = s.ctxs := rfl
@[simp] theorem State.modEnt_queues (s : State) (f : Entry → Entry) : (s.modEnt f).queues = s.queues := rfl
@[simp] theorem State.modEnt_groups (s : State) (f : Entry → Entry) : (s.modEnt f).groups = s.groups := rfl
@[simp] theorem State.modEnt_invals (s : State) (f : Entry → Entry) : (s.modEnt f).invals = s.invals := rfl
@[simp] theorem State.modEnt_hbm (s : State) (f : Entry → Entry) : (s.modEnt f).hbm = s.hbm := rfl
@[simp] theorem State.modEnt_hbmKey (s : State) (f : Entry → Entry) : (s.modEnt f).hbmKey = s.hbmKey := rfl
@[simp] theorem State.modEnt_hostMem (s : State) (f : Entry → Entry) : (s.modEnt f).hostMem = s.hostMem := rfl
@[simp] theorem State.modEnt_cxlMem (s : State) (f : Entry → Entry) : (s.modEnt f).cxlMem = s.cxlMem := rfl
@[simp] theorem State.modEnt_tri (s : State) (f : Entry → Entry) : (s.modEnt f).tri = s.tri := rfl
@[simp] theorem State.modEnt_power (s : State) (f : Entry → Entry) : (s.modEnt f).power = s.power := rfl
@[simp] theorem State.modEnt_time (s : State) (f : Entry → Entry) : (s.modEnt f).time = s.time := rfl
@[simp] theorem State.modEnt_msix (s : State) (f : Entry → Entry) : (s.modEnt f).msix = s.msix := rfl
@[simp] theorem State.modEnt_fmask (s : State) (f : Entry → Entry) : (s.modEnt f).fmask = s.fmask := rfl
@[simp] theorem State.modEnt_irqs (s : State) (f : Entry → Entry) : (s.modEnt f).irqs = s.irqs := rfl
@[simp] theorem State.modEnt_reads (s : State) (f : Entry → Entry) : (s.modEnt f).reads = s.reads := rfl
@[simp] theorem State.modEnt_lost (s : State) (f : Entry → Entry) : (s.modEnt f).lost = s.lost := rfl
@[simp] theorem State.modEnt_disp (s : State) (f : Entry → Entry) : (s.modEnt f).disp = s.disp := rfl
@[simp] theorem State.modEnt_nextId (s : State) (f : Entry → Entry) : (s.modEnt f).nextId = s.nextId := rfl
@[simp] theorem State.modEnt_fresh (s : State) (f : Entry → Entry) : (s.modEnt f).fresh = s.fresh := rfl
@[simp] theorem State.modEnt_ue (s : State) (f : Entry → Entry) : (s.modEnt f).ue = s.ue := rfl
@[simp] theorem State.modEnt_agenda (s : State) (f : Entry → Entry) : (s.modEnt f).agenda = s.agenda := rfl

@[simp] theorem State.elapse_cores (s : State) (n : Nat) : (s.elapse n).cores = s.cores := rfl
@[simp] theorem State.elapse_dies (s : State) (n : Nat) : (s.elapse n).dies = s.dies := rfl
@[simp] theorem State.elapse_links (s : State) (n : Nat) : (s.elapse n).links = s.links := rfl
@[simp] theorem State.elapse_ctxs (s : State) (n : Nat) : (s.elapse n).ctxs = s.ctxs := rfl
@[simp] theorem State.elapse_queues (s : State) (n : Nat) : (s.elapse n).queues = s.queues := rfl
@[simp] theorem State.elapse_groups (s : State) (n : Nat) : (s.elapse n).groups = s.groups := rfl
@[simp] theorem State.elapse_invals (s : State) (n : Nat) : (s.elapse n).invals = s.invals := rfl
@[simp] theorem State.elapse_hbm (s : State) (n : Nat) : (s.elapse n).hbm = s.hbm := rfl
@[simp] theorem State.elapse_hbmKey (s : State) (n : Nat) : (s.elapse n).hbmKey = s.hbmKey := rfl
@[simp] theorem State.elapse_hostMem (s : State) (n : Nat) : (s.elapse n).hostMem = s.hostMem := rfl
@[simp] theorem State.elapse_cxlMem (s : State) (n : Nat) : (s.elapse n).cxlMem = s.cxlMem := rfl
@[simp] theorem State.elapse_tri (s : State) (n : Nat) : (s.elapse n).tri = s.tri := rfl
@[simp] theorem State.elapse_msix (s : State) (n : Nat) : (s.elapse n).msix = s.msix := rfl
@[simp] theorem State.elapse_fmask (s : State) (n : Nat) : (s.elapse n).fmask = s.fmask := rfl
@[simp] theorem State.elapse_irqs (s : State) (n : Nat) : (s.elapse n).irqs = s.irqs := rfl
@[simp] theorem State.elapse_reads (s : State) (n : Nat) : (s.elapse n).reads = s.reads := rfl
@[simp] theorem State.elapse_lost (s : State) (n : Nat) : (s.elapse n).lost = s.lost := rfl
@[simp] theorem State.elapse_disp (s : State) (n : Nat) : (s.elapse n).disp = s.disp := rfl
@[simp] theorem State.elapse_nextId (s : State) (n : Nat) : (s.elapse n).nextId = s.nextId := rfl
@[simp] theorem State.elapse_fresh (s : State) (n : Nat) : (s.elapse n).fresh = s.fresh := rfl
@[simp] theorem State.elapse_ue (s : State) (n : Nat) : (s.elapse n).ue = s.ue := rfl
@[simp] theorem State.elapse_agenda (s : State) (n : Nat) : (s.elapse n).agenda = s.agenda := rfl
@[simp] theorem State.elapse_cur (s : State) (n : Nat) : (s.elapse n).cur = s.cur := rfl

@[simp] theorem State.settled_cores (s : State) : (s.settled).cores = s.cores := rfl
@[simp] theorem State.settled_dies (s : State) : (s.settled).dies = s.dies := rfl
@[simp] theorem State.settled_links (s : State) : (s.settled).links = s.links := rfl
@[simp] theorem State.settled_ctxs (s : State) : (s.settled).ctxs = s.ctxs := rfl
@[simp] theorem State.settled_queues (s : State) : (s.settled).queues = s.queues := rfl
@[simp] theorem State.settled_groups (s : State) : (s.settled).groups = s.groups := rfl
@[simp] theorem State.settled_invals (s : State) : (s.settled).invals = s.invals := rfl
@[simp] theorem State.settled_hbm (s : State) : (s.settled).hbm = s.hbm := rfl
@[simp] theorem State.settled_hbmKey (s : State) : (s.settled).hbmKey = s.hbmKey := rfl
@[simp] theorem State.settled_hostMem (s : State) : (s.settled).hostMem = s.hostMem := rfl
@[simp] theorem State.settled_cxlMem (s : State) : (s.settled).cxlMem = s.cxlMem := rfl
@[simp] theorem State.settled_tri (s : State) : (s.settled).tri = s.tri := rfl
@[simp] theorem State.settled_power (s : State) : (s.settled).power = s.power := rfl
@[simp] theorem State.settled_time (s : State) : (s.settled).time = s.time := rfl
@[simp] theorem State.settled_msix (s : State) : (s.settled).msix = s.msix := rfl
@[simp] theorem State.settled_fmask (s : State) : (s.settled).fmask = s.fmask := rfl
@[simp] theorem State.settled_irqs (s : State) : (s.settled).irqs = s.irqs := rfl
@[simp] theorem State.settled_reads (s : State) : (s.settled).reads = s.reads := rfl
@[simp] theorem State.settled_lost (s : State) : (s.settled).lost = s.lost := rfl
@[simp] theorem State.settled_disp (s : State) : (s.settled).disp = s.disp := rfl
@[simp] theorem State.settled_nextId (s : State) : (s.settled).nextId = s.nextId := rfl
@[simp] theorem State.settled_fresh (s : State) : (s.settled).fresh = s.fresh := rfl
@[simp] theorem State.settled_agenda (s : State) : (s.settled).agenda = s.agenda := rfl

-- Reading what was written, and what was not.

@[simp] theorem State.modCore_core (s : State) (k : Nat) (f : Core → Core) : (s.modCore k f).core k = f (s.core k) := by
  simp [State.modCore, State.setCore, State.core]

theorem State.modCore_core_ne (s : State) (k j : Nat) (f : Core → Core) (h : j ≠ k) : (s.modCore k f).core j = s.core j := by
  simp [State.modCore, State.setCore, State.core, tgetD_tset_ne _ _ h]

@[simp] theorem State.modDie_die (s : State) (k : Nat) (f : Die → Die) : (s.modDie k f).die k = f (s.die k) := by
  simp [State.modDie, State.die]

theorem State.modDie_die_ne (s : State) (k j : Nat) (f : Die → Die) (h : j ≠ k) : (s.modDie k f).die j = s.die j := by
  simp [State.modDie, State.die, tgetD_tset_ne _ _ h]

@[simp] theorem State.modLink_link (s : State) (k : Nat) (f : Link → Link) : (s.modLink k f).link k = f (s.link k) := by
  simp [State.modLink, State.link]

theorem State.modLink_link_ne (s : State) (k j : Nat) (f : Link → Link) (h : j ≠ k) : (s.modLink k f).link j = s.link j := by
  simp [State.modLink, State.link, tgetD_tset_ne _ _ h]

@[simp] theorem State.modCtx_ctx (s : State) (k : Nat) (f : Ctx → Ctx) : (s.modCtx k f).ctx k = f (s.ctx k) := by
  simp [State.modCtx, State.ctx]

theorem State.modCtx_ctx_ne (s : State) (k j : Nat) (f : Ctx → Ctx) (h : j ≠ k) : (s.modCtx k f).ctx j = s.ctx j := by
  simp [State.modCtx, State.ctx, tgetD_tset_ne _ _ h]

@[simp] theorem State.modQueue_queue (s : State) (k : Nat) (f : Queue → Queue) : (s.modQueue k f).queue k = f (s.queue k) := by
  simp [State.modQueue, State.queue]

theorem State.modQueue_queue_ne (s : State) (k j : Nat) (f : Queue → Queue) (h : j ≠ k) : (s.modQueue k f).queue j = s.queue j := by
  simp [State.modQueue, State.queue, tgetD_tset_ne _ _ h]

@[simp] theorem State.modGroup_group (s : State) (k : Nat) (f : Group → Group) : (s.modGroup k f).group k = f (s.group k) := by
  simp [State.modGroup, State.group]

theorem State.modGroup_group_ne (s : State) (k j : Nat) (f : Group → Group) (h : j ≠ k) : (s.modGroup k f).group j = s.group j := by
  simp [State.modGroup, State.group, tgetD_tset_ne _ _ h]

@[simp] theorem State.modSeat_seat (s : State) (c : Nat) (f : Seat → Seat) : (s.modSeat c f).seat c = f (s.seat c) := by
  simp [State.modSeat, State.seat]

@[simp] theorem State.modMem_mem (s : State) (c : Nat) (f : Member → Member) : (s.modMem c f).mem c = f (s.mem c) := by
  simp [State.modMem, State.mem]

@[simp] theorem State.modCm_cm (s : State) (f : Member → Member) : (s.modCm f).cm = f s.cm := by
  simp [State.modCm, State.cm]

theorem State.modSeat_core_ne (s : State) (c k : Nat) (f : Seat → Seat) (h : k ≠ c) : (s.modSeat c f).core k = s.core k :=
  State.modCore_core_ne s c k _ h

theorem State.modMem_core_ne (s : State) (c k : Nat) (f : Member → Member) (h : k ≠ c) : (s.modMem c f).core k = s.core k :=
  State.modSeat_core_ne s c k _ h

/-- A register other than s0 holds what was written. -/
theorem Member.putS_rs (m : Member) (n : Nat) (v : Word) (h : n ≠ 0) : (m.putS n v).rs n = v := by
  simp [Member.putS, Member.rs, h]

/-- The other registers stand. -/
theorem Member.putS_rs_ne (m : Member) (n k : Nat) (v : Word) (h : k ≠ n) : (m.putS n v).rs k = m.rs k := by
  by_cases hn : n = 0 <;> simp [Member.putS, Member.rs, hn, tgetD_tset_ne _ _ h]

/-- s0 reads zero. -/
@[simp] theorem Member.rs_zero (m : Member) : m.rs 0 = 0 := rfl

/-- A write to s0 is discarded. -/
@[simp] theorem Member.putS_zero (m : Member) (v : Word) : m.putS 0 v = m := rfl

@[simp] theorem State.finish_core (s : State) (st : Status) (c : Nat) : (s.finish st).core c = s.core c := rfl
@[simp] theorem State.finish_mem (s : State) (st : Status) (c : Nat) : (s.finish st).mem c = s.mem c := rfl
@[simp] theorem State.putS_cur_core (s : State) (n : Nat) (v : Word) : (s.putS n v).cur.core = s.cur.core := rfl
@[simp] theorem State.finish_status (s : State) (st : Status) : (s.finish st).cur.status = st := rfl

end Sys2Proof.Machine
end

