-- ==== Sys2Proof/Laws/Order.lean ====
section
/-! SUPPORT. What the operations on home memory and the memory path leave (13 R330, R331, 12 R309), and the tokens and scalar registers of a member. -/

namespace Sys2Proof.Machine

-- Home memory keeps its canonical form.

theorem rekeyBlock_memWf (s : State) (key blk : Nat) (h : s.memWf) : (s.rekeyBlock key blk).memWf := by
  unfold State.rekeyBlock
  split
  · exact h
  · exact ⟨mwrite_wf _ _ _ h.1, h.2⟩

theorem homePut_memWf (s : State) (l : Loc) (i : Nat) (b : Byte) (h : s.memWf) : (s.homePut l i b).memWf := by
  unfold State.homePut
  split
  · have := rekeyBlock_memWf s l.key ((l.pa + i) / 16) h
    exact ⟨mset_wf _ _ _ this.1, this.2⟩
  · split
    · exact ⟨h.1, mset_wf _ _ _ h.2.1, h.2.2⟩
    · exact ⟨h.1, h.2.1, mset_wf _ _ _ h.2.2⟩

theorem foldl_homePut_memWf (bs : List (Nat × Byte)) (s : State) (l : Loc) (h : s.memWf) : (bs.foldl (fun s p => s.homePut l p.1 p.2) s).memWf := by
  induction bs generalizing s with
  | nil => exact h
  | cons p r ih => exact ih _ (homePut_memWf s l p.1 p.2 h)

theorem homeWrite_memWf (s : State) (d : Nat) (l : Loc) (bs : List (Nat × Byte)) (h : s.memWf) : (s.homeWrite d l bs).memWf := by
  unfold State.homeWrite
  split
  · exact foldl_homePut_memWf bs s l h
  · exact h

/-- A held write that is lost leaves home memory. -/
theorem homeForward_memWf (s : State) (d : Nat) (w : MemWrite) (h : s.memWf) : (s.homeForward d w).memWf := by
  unfold State.homeForward
  split
  · exact homeWrite_memWf _ _ _ _ h
  · exact h

/-- Updates outside home memory keep its form. -/
theorem memWf_of_eq (s t : State) (h : s.memWf) (a : t.hbm = s.hbm) (b : t.hostMem = s.hostMem) (c : t.cxlMem = s.cxlMem) : t.memWf := by
  unfold State.memWf at *
  rw [a, b, c]
  exact h

theorem foldl_memWf {α : Type} (f : State → α → State) (hf : ∀ s x, s.memWf → (f s x).memWf) (q : List α) (s : State) (h : s.memWf) :
    (q.foldl f s).memWf := by
  induction q generalizing s with
  | nil => exact h
  | cons x r ih => exact ih _ (hf s x h)

theorem drainOrd_memWf (s : State) (d : Nat) (p : Nat × Nat → Bool) (h : s.memWf) : (s.drainOrd d p).memWf := by
  exact foldl_memWf _ (fun s w h => homeForward_memWf s d w.2 h) _ _ h

theorem pushWrites_memWf (s : State) (c : Nat) (sys : Bool) (p : Nat × Nat → Bool) (h : s.memWf) : (s.pushWrites c sys p).memWf :=
  drainOrd_memWf _ _ _ h

theorem pushSectors_memWf (s : State) (c : Nat) (l : Loc) (ss : List (Nat × Nat)) (h : s.memWf) : (s.pushSectors c l ss).memWf := by
  have := pushWrites_memWf s c false (fun x => ss.contains x) h
  unfold State.pushSectors
  simp only
  split
  · exact drainOrd_memWf _ _ _ this
  · exact this

theorem portWrite_memWf (s : State) (c : Nat) (l : Loc) (bs : List Byte) (h : s.memWf) : (s.portWrite c l bs).memWf := by
  unfold State.portWrite
  split <;> exact h

theorem performWrite_memWf (s : State) (c : Nat) (l : Loc) (bs : List Byte) (h : s.memWf) : (s.performWrite c l bs).memWf :=
  pushWrites_memWf _ _ _ _ (portWrite_memWf s c l bs h)

theorem systemWrite_memWf (s : State) (c : Nat) (l : Loc) (bs : List Byte) (h : s.memWf) : (s.systemWrite c l bs).memWf := by
  refine homeWrite_memWf _ _ _ _ ?_
  split
  · exact drainOrd_memWf _ _ _ (pushWrites_memWf _ _ _ _ h)
  · exact h

theorem release_memWf (s : State) (c : Nat) (sys : Bool) (h : s.memWf) : (s.release c sys).memWf := by
  unfold State.release
  refine pushWrites_memWf _ _ _ _ (foldl_memWf _ (fun s l h => ?_) _ s h)
  split <;> exact h

theorem flush_memWf (s : State) (c : Nat) (h : s.memWf) : (s.flush c).memWf := pushWrites_memWf _ _ _ _ h

theorem zeroHbm_memWf (s : State) (d : Nat) (h : s.memWf) : (s.zeroHbm d).memWf := ⟨filter_wf _ _ h.1, h.2⟩

-- Home memory reads back what is written.

theorem hbmKey_rekeyBlock (s : State) (key blk : Nat) : tget (s.rekeyBlock key blk).hbmKey blk = some key := by
  unfold State.rekeyBlock
  split
  · assumption
  · simp

/-- A place outside HBM reads back the byte written to it. -/
theorem homeByte_homePut_outside (s : State) (l : Loc) (i : Nat) (b : Byte) (h : s.memWf) (ht : l.tgt ≠ 0) : (s.homePut l i b).homeByte l i = b := by
  unfold State.homePut State.homeByte
  rw [if_neg ht, if_neg ht]
  split
  · simp [h.2.1]
  · simp [h.2.2]

-- What writes at home leave of the rest.

@[simp] theorem rekeyBlock_cores (s : State) (k b : Nat) : (s.rekeyBlock k b).cores = s.cores := by unfold State.rekeyBlock; split <;> rfl
@[simp] theorem rekeyBlock_dies (s : State) (k b : Nat) : (s.rekeyBlock k b).dies = s.dies := by unfold State.rekeyBlock; split <;> rfl
@[simp] theorem rekeyBlock_ctxs (s : State) (k b : Nat) : (s.rekeyBlock k b).ctxs = s.ctxs := by unfold State.rekeyBlock; split <;> rfl
@[simp] theorem rekeyBlock_queues (s : State) (k b : Nat) : (s.rekeyBlock k b).queues = s.queues := by unfold State.rekeyBlock; split <;> rfl
@[simp] theorem rekeyBlock_groups (s : State) (k b : Nat) : (s.rekeyBlock k b).groups = s.groups := by unfold State.rekeyBlock; split <;> rfl
@[simp] theorem rekeyBlock_links (s : State) (k b : Nat) : (s.rekeyBlock k b).links = s.links := by unfold State.rekeyBlock; split <;> rfl
@[simp] theorem rekeyBlock_tri (s : State) (k b : Nat) : (s.rekeyBlock k b).tri = s.tri := by unfold State.rekeyBlock; split <;> rfl
@[simp] theorem rekeyBlock_cur (s : State) (k b : Nat) : (s.rekeyBlock k b).cur = s.cur := by unfold State.rekeyBlock; split <;> rfl

/-- A write of a byte at home changes home memory and nothing else. -/
theorem homePut_frame (s : State) (l : Loc) (i : Nat) (b : Byte) :
    ∃ (m : Mem) (k : Tab Nat) (h x : Mem), s.homePut l i b = { s with hbm := m, hbmKey := k, hostMem := h, cxlMem := x } := by
  unfold State.homePut State.rekeyBlock
  split
  · split
    · exact ⟨_, _, _, _, rfl⟩
    · exact ⟨_, _, _, _, rfl⟩
  · split
    · exact ⟨_, _, _, _, rfl⟩
    · exact ⟨_, _, _, _, rfl⟩

theorem foldl_homePut_frame (bs : List (Nat × Byte)) (s : State) (l : Loc) :
    ∃ (m : Mem) (k : Tab Nat) (h x : Mem), bs.foldl (fun s p => s.homePut l p.1 p.2) s = { s with hbm := m, hbmKey := k, hostMem := h, cxlMem := x } := by
  induction bs generalizing s with
  | nil => exact ⟨s.hbm, s.hbmKey, s.hostMem, s.cxlMem, rfl⟩
  | cons p r ih =>
    obtain ⟨m, k, h, x, e⟩ := homePut_frame s l p.1 p.2
    obtain ⟨m', k', h', x', e'⟩ := ih (s.homePut l p.1 p.2)
    refine ⟨m', k', h', x', ?_⟩
    rw [List.foldl_cons, e', e]

/-- Writes at home change home memory and nothing else. -/
theorem homeWrite_frame (s : State) (d : Nat) (l : Loc) (bs : List (Nat × Byte)) :
    ∃ (m : Mem) (k : Tab Nat) (h x : Mem), s.homeWrite d l bs = { s with hbm := m, hbmKey := k, hostMem := h, cxlMem := x } := by
  unfold State.homeWrite
  split
  · exact foldl_homePut_frame bs s l
  · exact ⟨s.hbm, s.hbmKey, s.hostMem, s.cxlMem, rfl⟩

-- Tokens.

/-- A post of a token below 63 raises it by one. -/
theorem Member.post_tok (m : Member) (g n : Nat) (h : m.tok n < 63) : (m.post g n).tok n = m.tok n + 1 := by
  simp [Member.post, Member.tok] at *
  simp [h]

/-- A post leaves the other tokens. -/
theorem Member.post_tok_ne (m : Member) (g n k : Nat) (h : k ≠ n) : (m.post g n).tok k = m.tok k := by
  unfold Member.post
  split
  · simp [Member.tok, tgetD_tset_ne _ _ h]
  · rfl

/-- A post leaves the scalar registers. -/
theorem Member.post_rs (m : Member) (g n k : Nat) : (m.post g n).rs k = m.rs k := by
  unfold Member.post
  split <;> rfl

-- Turns.

/-- A turn ends in a next state when its action does. -/
theorem endTurn_next (o : Out) (t : State) (h : endTurn o = .next t) : ∃ u, o = .next u ∧ t = u.reportLost.settled := by
  cases o with
  | next u => exact ⟨u, rfl, by simpa [endTurn] using h.symm⟩
  | fault r => simp [endTurn] at h
  | refused r => simp [endTurn] at h

/-- A turn that lost no write reports none. -/
theorem reportLost_none (s : State) (h : s.lost = []) : s.reportLost = s := by
  cases s
  simp_all [State.reportLost]

/-- A step is the turn at the head of the agenda. -/
theorem step_cons (s : State) (a : Turn) (r : List Turn) (h : s.agenda = a :: r) :
    step s = endTurn ((({ s with agenda := r } : State).open a).act exec a.act) := by
  unfold step State.turn State.takeTurn
  rw [h]

/-- With nothing listed a step is a turn of free choice. -/
theorem step_nil (s : State) (h : s.agenda = []) :
    step s = endTurn ((({ s with fresh := s.fresh + 1 } : State).open (freeTurn s.fresh)).act exec (freeTurn s.fresh).act) := by
  unfold step State.turn State.takeTurn
  rw [h]

end Sys2Proof.Machine
end

