-- ==== Sys2Proof/Laws/PerInstr.lean ====
section
/-! SUPPORT. The per-instruction family `Fits`: the words of a well-formed instruction, one lemma for each constructor. -/

namespace Sys2Proof.Laws

section
set_option Elab.async false

/-- A well-formed instruction's words are 32-bit lanes, as many as the opcode in their first word has; an event has none. -/
def Fits.Statement (i : Instr) : Prop :=
  wellFormed i = true →
    match engineOf i with
    | none => encodeNat i = []
    | some g => opLanes g (opOf ((encodeNat i).headD 0)) = some (encodeNat i).length ∧ ∀ w ∈ encodeNat i, w < 4294967296

/-- What shows it for an instruction. -/
theorem fits_of (i : Instr) (g : Eng) (op w : Nat) (r : List Nat) (hg : engineOf i = some g) (he : encodeNat i = w :: r) (ho : w / 33554432 = op)
    (hl : opLanes g op = some (r.length + 1)) (hw : w < 4294967296) (hr : ∀ x ∈ r, x < 4294967296) : Fits.Statement i := by
  intro _
  rw [hg, he]
  refine ⟨?_, fun x hx => ?_⟩
  · simp only [List.headD_cons, List.length_cons, opOf, ho, hl]
  · rcases List.mem_cons.mp hx with rfl | h
    · exact hw
    · exact hr x h

/-- As `fits_of`, for an instruction of one lane. -/
theorem fits_one (i : Instr) (g : Eng) (op w : Nat) (hg : engineOf i = some g) (he : encodeNat i = [w]) (ho : w / 33554432 = op)
    (hl : opLanes g op = some 1) (hw : w < 4294967296) : Fits.Statement i :=
  fits_of i g op w [] hg he ho hl hw (fun _ h => absurd h List.not_mem_nil)

/-- What shows it for an event. -/
theorem fits_event (i : Instr) (hg : engineOf i = none) (he : encodeNat i = []) : Fits.Statement i := by
  intro _
  rw [hg]
  exact he

theorem Fits.nop : Fits.Statement .nop := fits_one _ .ce 0 _ rfl rfl rfl rfl (by decide)
theorem Fits.add (d a b : Nat) : Fits.Statement (.add d a b) := by
  intro h
  have w := of_decide_eq_true h
  exact fits_one _ .ce 1 _ rfl rfl (by omega) rfl (by omega) h
theorem Fits.sub (d a b : Nat) : Fits.Statement (.sub d a b) := by
  intro h
  have w := of_decide_eq_true h
  exact fits_one _ .ce 2 _ rfl rfl (by omega) rfl (by omega) h
theorem Fits.and (d a b : Nat) : Fits.Statement (.and d a b) := by
  intro h
  have w := of_decide_eq_true h
  exact fits_one _ .ce 3 _ rfl rfl (by omega) rfl (by omega) h
theorem Fits.or (d a b : Nat) : Fits.Statement (.or d a b) := by
  intro h
  have w := of_decide_eq_true h
  exact fits_one _ .ce 4 _ rfl rfl (by omega) rfl (by omega) h
theorem Fits.xor (d a b : Nat) : Fits.Statement (.xor d a b) := by
  intro h
  have w := of_decide_eq_true h
  exact fits_one _ .ce 5 _ rfl rfl (by omega) rfl (by omega) h
theorem Fits.shl (d a b : Nat) : Fits.Statement (.shl d a b) := by
  intro h
  have w := of_decide_eq_true h
  exact fits_one _ .ce 6 _ rfl rfl (by omega) rfl (by omega) h
theorem Fits.shr (d a b : Nat) : Fits.Statement (.shr d a b) := by
  intro h
  have w := of_decide_eq_true h
  exact fits_one _ .ce 7 _ rfl rfl (by omega) rfl (by omega) h
theorem Fits.sar (d a b : Nat) : Fits.Statement (.sar d a b) := by
  intro h
  have w := of_decide_eq_true h
  exact fits_one _ .ce 8 _ rfl rfl (by omega) rfl (by omega) h
theorem Fits.mul (d a b : Nat) : Fits.Statement (.mul d a b) := by
  intro h
  have w := of_decide_eq_true h
  exact fits_one _ .ce 9 _ rfl rfl (by omega) rfl (by omega) h
theorem Fits.mulh (d a b : Nat) : Fits.Statement (.mulh d a b) := by
  intro h
  have w := of_decide_eq_true h
  exact fits_one _ .ce 10 _ rfl rfl (by omega) rfl (by omega) h
theorem Fits.mulhn (d a b : Nat) : Fits.Statement (.mulhn d a b) := by
  intro h
  have w := of_decide_eq_true h
  exact fits_one _ .ce 11 _ rfl rfl (by omega) rfl (by omega) h
theorem Fits.div (d a b : Nat) : Fits.Statement (.div d a b) := by
  intro h
  have w := of_decide_eq_true h
  exact fits_one _ .ce 12 _ rfl rfl (by omega) rfl (by omega) h
theorem Fits.divn (d a b : Nat) : Fits.Statement (.divn d a b) := by
  intro h
  have w := of_decide_eq_true h
  exact fits_one _ .ce 13 _ rfl rfl (by omega) rfl (by omega) h
theorem Fits.rem (d a b : Nat) : Fits.Statement (.rem d a b) := by
  intro h
  have w := of_decide_eq_true h
  exact fits_one _ .ce 14 _ rfl rfl (by omega) rfl (by omega) h
theorem Fits.remn (d a b : Nat) : Fits.Statement (.remn d a b) := by
  intro h
  have w := of_decide_eq_true h
  exact fits_one _ .ce 15 _ rfl rfl (by omega) rfl (by omega) h
theorem Fits.min (d a b : Nat) : Fits.Statement (.min d a b) := by
  intro h
  have w := of_decide_eq_true h
  exact fits_one _ .ce 16 _ rfl rfl (by omega) rfl (by omega) h
theorem Fits.max (d a b : Nat) : Fits.Statement (.max d a b) := by
  intro h
  have w := of_decide_eq_true h
  exact fits_one _ .ce 17 _ rfl rfl (by omega) rfl (by omega) h
theorem Fits.minn (d a b : Nat) : Fits.Statement (.minn d a b) := by
  intro h
  have w := of_decide_eq_true h
  exact fits_one _ .ce 18 _ rfl rfl (by omega) rfl (by omega) h
theorem Fits.maxn (d a b : Nat) : Fits.Statement (.maxn d a b) := by
  intro h
  have w := of_decide_eq_true h
  exact fits_one _ .ce 19 _ rfl rfl (by omega) rfl (by omega) h
theorem Fits.slt (d a b : Nat) : Fits.Statement (.slt d a b) := by
  intro h
  have w := of_decide_eq_true h
  exact fits_one _ .ce 20 _ rfl rfl (by omega) rfl (by omega) h
theorem Fits.sltn (d a b : Nat) : Fits.Statement (.sltn d a b) := by
  intro h
  have w := of_decide_eq_true h
  exact fits_one _ .ce 21 _ rfl rfl (by omega) rfl (by omega) h
theorem Fits.seq (d a b : Nat) : Fits.Statement (.seq d a b) := by
  intro h
  have w := of_decide_eq_true h
  exact fits_one _ .ce 22 _ rfl rfl (by omega) rfl (by omega) h
theorem Fits.clz (d a : Nat) : Fits.Statement (.clz d a) := by
  intro h
  have w := of_decide_eq_true h
  exact fits_one _ .ce 23 _ rfl rfl (by omega) rfl (by omega) h
theorem Fits.popc (d a : Nat) : Fits.Statement (.popc d a) := by
  intro h
  have w := of_decide_eq_true h
  exact fits_one _ .ce 24 _ rfl rfl (by omega) rfl (by omega) h
theorem Fits.bext (d a b l : Nat) : Fits.Statement (.bext d a b l) := by
  intro h
  have w := of_decide_eq_true h
  exact fits_one _ .ce 25 _ rfl rfl (by omega) rfl (by omega) h
theorem Fits.bins (d a b l : Nat) : Fits.Statement (.bins d a b l) := by
  intro h
  have w := of_decide_eq_true h
  exact fits_one _ .ce 26 _ rfl rfl (by omega) rfl (by omega) h
theorem Fits.brev (d a : Nat) : Fits.Statement (.brev d a) := by
  intro h
  have w := of_decide_eq_true h
  exact fits_one _ .ce 27 _ rfl rfl (by omega) rfl (by omega) h
theorem Fits.addi (d a i : Nat) : Fits.Statement (.addi d a i) := by
  intro h
  have w := of_decide_eq_true h
  exact fits_one _ .ce 32 _ rfl rfl (by omega) rfl (by omega) h
theorem Fits.andi (d a i : Nat) : Fits.Statement (.andi d a i) := by
  intro h
  have w := of_decide_eq_true h
  exact fits_one _ .ce 33 _ rfl rfl (by omega) rfl (by omega) h
theorem Fits.ori (d a i : Nat) : Fits.Statement (.ori d a i) := by
  intro h
  have w := of_decide_eq_true h
  exact fits_one _ .ce 34 _ rfl rfl (by omega) rfl (by omega) h
theorem Fits.xori (d a i : Nat) : Fits.Statement (.xori d a i) := by
  intro h
  have w := of_decide_eq_true h
  exact fits_one _ .ce 35 _ rfl rfl (by omega) rfl (by omega) h
theorem Fits.shli (d a n : Nat) : Fits.Statement (.shli d a n) := by
  intro h
  have w := of_decide_eq_true h
  exact fits_one _ .ce 36 _ rfl rfl (by omega) rfl (by omega) h
theorem Fits.shri (d a n : Nat) : Fits.Statement (.shri d a n) := by
  intro h
  have w := of_decide_eq_true h
  exact fits_one _ .ce 37 _ rfl rfl (by omega) rfl (by omega) h
theorem Fits.sari (d a n : Nat) : Fits.Statement (.sari d a n) := by
  intro h
  have w := of_decide_eq_true h
  exact fits_one _ .ce 38 _ rfl rfl (by omega) rfl (by omega) h
theorem Fits.slti (d a i : Nat) : Fits.Statement (.slti d a i) := by
  intro h
  have w := of_decide_eq_true h
  exact fits_one _ .ce 39 _ rfl rfl (by omega) rfl (by omega) h
theorem Fits.ldi (d i : Nat) : Fits.Statement (.ldi d i) := by
  intro h
  have w := of_decide_eq_true h
  exact fits_one _ .ce 40 _ rfl rfl (by omega) rfl (by omega) h
theorem Fits.ldiw (d i : Nat) : Fits.Statement (.ldiw d i) := by
  intro h
  have w := of_decide_eq_true h
  exact fits_of _ .ce 41 _ _ rfl rfl (by omega) rfl (by omega) (by intro x hx; simp at hx; omega) h
theorem Fits.ldih (d a i : Nat) : Fits.Statement (.ldih d a i) := by
  intro h
  have w := of_decide_eq_true h
  exact fits_of _ .ce 42 _ _ rfl rfl (by omega) rfl (by omega) (by intro x hx; simp at hx; omega) h
theorem Fits.muli (d a i : Nat) : Fits.Statement (.muli d a i) := by
  intro h
  have w := of_decide_eq_true h
  exact fits_one _ .ce 43 _ rfl rfl (by omega) rfl (by omega) h
theorem Fits.lds (d a z i : Nat) : Fits.Statement (.lds d a z i) := by
  intro h
  have w := of_decide_eq_true h
  exact fits_one _ .ce 48 _ rfl rfl (by omega) rfl (by omega) h
theorem Fits.sts (d a z i : Nat) : Fits.Statement (.sts d a z i) := by
  intro h
  have w := of_decide_eq_true h
  exact fits_one _ .ce 49 _ rfl rfl (by omega) rfl (by omega) h
theorem Fits.lda (d a z i : Nat) : Fits.Statement (.lda d a z i) := by
  intro h
  have w := of_decide_eq_true h
  exact fits_one _ .ce 50 _ rfl rfl (by omega) rfl (by omega) h
theorem Fits.stl (d a z i : Nat) : Fits.Statement (.stl d a z i) := by
  intro h
  have w := of_decide_eq_true h
  exact fits_one _ .ce 51 _ rfl rfl (by omega) rfl (by omega) h
theorem Fits.fence : Fits.Statement .fence := fits_one _ .ce 52 _ rfl rfl rfl rfl (by decide)
theorem Fits.fenceAcq : Fits.Statement .fenceAcq := fits_one _ .ce 52 _ rfl rfl rfl rfl (by decide)
theorem Fits.fenceRel : Fits.Statement .fenceRel := fits_one _ .ce 52 _ rfl rfl rfl rfl (by decide)
theorem Fits.cflush (a i : Nat) : Fits.Statement (.cflush a i) := by
  intro h
  have w := of_decide_eq_true h
  exact fits_one _ .ce 53 _ rfl rfl (by omega) rfl (by omega) h
theorem Fits.b (o : Nat) : Fits.Statement (.b o) := by
  intro h
  have w := of_decide_eq_true h
  exact fits_one _ .ce 64 _ rfl rfl (by omega) rfl (by omega) h
theorem Fits.bc (a b c o : Nat) : Fits.Statement (.bc a b c o) := by
  intro h
  have w := of_decide_eq_true h
  exact fits_one _ .ce 65 _ rfl rfl (by omega) rfl (by omega) h
theorem Fits.bz (a c o : Nat) : Fits.Statement (.bz a c o) := by
  intro h
  have w := of_decide_eq_true h
  exact fits_one _ .ce 66 _ rfl rfl (by omega) rfl (by omega) h
theorem Fits.call (d o : Nat) : Fits.Statement (.call d o) := by
  intro h
  have w := of_decide_eq_true h
  exact fits_one _ .ce 67 _ rfl rfl (by omega) rfl (by omega) h
theorem Fits.ret (a : Nat) : Fits.Statement (.ret a) := by
  intro h
  have w := of_decide_eq_true h
  exact fits_one _ .ce 68 _ rfl rfl (by omega) rfl (by omega) h
theorem Fits.jr (a : Nat) : Fits.Statement (.jr a) := by
  intro h
  have w := of_decide_eq_true h
  exact fits_one _ .ce 69 _ rfl rfl (by omega) rfl (by omega) h
theorem Fits.loop (l a o : Nat) : Fits.Statement (.loop l a o) := by
  intro h
  have w := of_decide_eq_true h
  exact fits_one _ .ce 72 _ rfl rfl (by omega) rfl (by omega) h
theorem Fits.loopx (l a o : Nat) : Fits.Statement (.loopx l a o) := by
  intro h
  have w := of_decide_eq_true h
  exact fits_one _ .ce 73 _ rfl rfl (by omega) rfl (by omega) h
theorem Fits.lcrd (d l : Nat) : Fits.Statement (.lcrd d l) := by
  intro h
  have w := of_decide_eq_true h
  exact fits_one _ .ce 74 _ rfl rfl (by omega) rfl (by omega) h
theorem Fits.lcrdTrips (d l : Nat) : Fits.Statement (.lcrdTrips d l) := by
  intro h
  have w := of_decide_eq_true h
  exact fits_one _ .ce 74 _ rfl rfl (by omega) rfl (by omega) h
theorem Fits.stage (n : Nat) : Fits.Statement (.stage n) := by
  intro h
  have w := of_decide_eq_true h
  exact fits_one _ .ce 75 _ rfl rfl (by omega) rfl (by omega) h
theorem Fits.stageSet (a n : Nat) : Fits.Statement (.stageSet a n) := by
  intro h
  have w := of_decide_eq_true h
  exact fits_one _ .ce 75 _ rfl rfl (by omega) rfl (by omega) h
theorem Fits.rotb (a n : Nat) : Fits.Statement (.rotb a n) := by
  intro h
  have w := of_decide_eq_true h
  exact fits_one _ .ce 76 _ rfl rfl (by omega) rfl (by omega) h
theorem Fits.tkwait (k : Nat) : Fits.Statement (.tkwait k) := by
  intro h
  have w := of_decide_eq_true h
  exact fits_one _ .ce 80 _ rfl rfl (by omega) rfl (by omega) h
theorem Fits.tkpost (k : Nat) : Fits.Statement (.tkpost k) := by
  intro h
  have w := of_decide_eq_true h
  exact fits_one _ .ce 81 _ rfl rfl (by omega) rfl (by omega) h
theorem Fits.tkset (a k : Nat) : Fits.Statement (.tkset a k) := by
  intro h
  have w := of_decide_eq_true h
  exact fits_one _ .ce 82 _ rfl rfl (by omega) rfl (by omega) h
theorem Fits.tkrd (d k : Nat) : Fits.Statement (.tkrd d k) := by
  intro h
  have w := of_decide_eq_true h
  exact fits_one _ .ce 83 _ rfl rfl (by omega) rfl (by omega) h
theorem Fits.mbrd (d x : Nat) : Fits.Statement (.mbrd d x) := by
  intro h
  have w := of_decide_eq_true h
  exact fits_one _ .ce 84 _ rfl rfl (by omega) rfl (by omega) h
theorem Fits.mbwr (a x : Nat) : Fits.Statement (.mbwr a x) := by
  intro h
  have w := of_decide_eq_true h
  exact fits_one _ .ce 85 _ rfl rfl (by omega) rfl (by omega) h
theorem Fits.binit (a n : Nat) : Fits.Statement (.binit a n) := by
  intro h
  have w := of_decide_eq_true h
  exact fits_one _ .ce 88 _ rfl rfl (by omega) rfl (by omega) h
theorem Fits.barv (n : Nat) : Fits.Statement (.barv n) := by
  intro h
  have w := of_decide_eq_true h
  exact fits_one _ .ce 89 _ rfl rfl (by omega) rfl (by omega) h
theorem Fits.bwait (d n : Nat) : Fits.Statement (.bwait d n) := by
  intro h
  have w := of_decide_eq_true h
  exact fits_one _ .ce 90 _ rfl rfl (by omega) rfl (by omega) h
theorem Fits.bdrop (n : Nat) : Fits.Statement (.bdrop n) := by
  intro h
  have w := of_decide_eq_true h
  exact fits_one _ .ce 91 _ rfl rfl (by omega) rfl (by omega) h
theorem Fits.binval (n : Nat) : Fits.Statement (.binval n) := by
  intro h
  have w := of_decide_eq_true h
  exact fits_one _ .ce 92 _ rfl rfl (by omega) rfl (by omega) h
theorem Fits.btime (a n : Nat) : Fits.Statement (.btime a n) := by
  intro h
  have w := of_decide_eq_true h
  exact fits_one _ .ce 93 _ rfl rfl (by omega) rfl (by omega) h
theorem Fits.csrrd (d r : Nat) : Fits.Statement (.csrrd d r) := by
  intro h
  have w := of_decide_eq_true h
  exact fits_one _ .ce 96 _ rfl rfl (by omega) rfl (by omega) h
theorem Fits.csrwr (a r : Nat) : Fits.Statement (.csrwr a r) := by
  intro h
  have w := of_decide_eq_true h
  exact fits_one _ .ce 97 _ rfl rfl (by omega) rfl (by omega) h
theorem Fits.ptcrd (d : Nat) : Fits.Statement (.ptcrd d) := by
  intro h
  have w := of_decide_eq_true h
  exact fits_one _ .ce 98 _ rfl rfl (by omega) rfl (by omega) h
theorem Fits.trap (c : Nat) : Fits.Statement (.trap c) := by
  intro h
  have w := of_decide_eq_true h
  exact fits_one _ .ce 99 _ rfl rfl (by omega) rfl (by omega) h
theorem Fits.tret : Fits.Statement .tret := fits_one _ .ce 100 _ rfl rfl rfl rfl (by decide)
theorem Fits.yield : Fits.Statement .yield := fits_one _ .ce 101 _ rfl rfl rfl rfl (by decide)
theorem Fits.endK : Fits.Statement .endK := fits_one _ .ce 102 _ rfl rfl rfl rfl (by decide)
theorem Fits.halt : Fits.Statement .halt := fits_one _ .ce 103 _ rfl rfl rfl rfl (by decide)
theorem Fits.evpost (a b : Nat) : Fits.Statement (.evpost a b) := by
  intro h
  have w := of_decide_eq_true h
  exact fits_one _ .ce 104 _ rfl rfl (by omega) rfl (by omega) h
theorem Fits.brk (n : Nat) : Fits.Statement (.brk n) := by
  intro h
  have w := of_decide_eq_true h
  exact fits_one _ .ce 105 _ rfl rfl (by omega) rfl (by omega) h
theorem Fits.ctxsave (d a k : Nat) : Fits.Statement (.ctxsave d a k) := by
  intro h
  have w := of_decide_eq_true h
  exact fits_one _ .ce 106 _ rfl rfl (by omega) rfl (by omega) h
theorem Fits.ctxsavePark (d a k : Nat) : Fits.Statement (.ctxsavePark d a k) := by
  intro h
  have w := of_decide_eq_true h
  exact fits_one _ .ce 106 _ rfl rfl (by omega) rfl (by omega) h
theorem Fits.ctxload (d a k : Nat) : Fits.Statement (.ctxload d a k) := by
  intro h
  have w := of_decide_eq_true h
  exact fits_one _ .ce 107 _ rfl rfl (by omega) rfl (by omega) h
theorem Fits.ctxloadUnpark (d a k : Nat) : Fits.Statement (.ctxloadUnpark d a k) := by
  intro h
  have w := of_decide_eq_true h
  exact fits_one _ .ce 107 _ rfl rfl (by omega) rfl (by omega) h
theorem Fits.ctxmap (d a b : Nat) : Fits.Statement (.ctxmap d a b) := by
  intro h
  have w := of_decide_eq_true h
  exact fits_one _ .ce 108 _ rfl rfl (by omega) rfl (by omega) h
theorem Fits.preempt (d a : Nat) : Fits.Statement (.preempt d a) := by
  intro h
  have w := of_decide_eq_true h
  exact fits_one _ .ce 109 _ rfl rfl (by omega) rfl (by omega) h
theorem Fits.preemptY (d a : Nat) : Fits.Statement (.preemptY d a) := by
  intro h
  have w := of_decide_eq_true h
  exact fits_one _ .ce 109 _ rfl rfl (by omega) rfl (by omega) h
theorem Fits.resume (d a : Nat) : Fits.Statement (.resume d a) := by
  intro h
  have w := of_decide_eq_true h
  exact fits_one _ .ce 110 _ rfl rfl (by omega) rfl (by omega) h
theorem Fits.resumeM (d a b : Nat) : Fits.Statement (.resumeM d a b) := by
  intro h
  have w := of_decide_eq_true h
  exact fits_one _ .ce 110 _ rfl rfl (by omega) rfl (by omega) h
theorem Fits.resumeSkip (d a b : Nat) : Fits.Statement (.resumeSkip d a b) := by
  intro h
  have w := of_decide_eq_true h
  exact fits_one _ .ce 110 _ rfl rfl (by omega) rfl (by omega) h
theorem Fits.resumeEnd (d a b : Nat) : Fits.Statement (.resumeEnd d a b) := by
  intro h
  have w := of_decide_eq_true h
  exact fits_one _ .ce 110 _ rfl rfl (by omega) rfl (by omega) h
theorem Fits.atadd (d a b t : Nat) : Fits.Statement (.atadd d a b t) := by
  intro h
  have w := of_decide_eq_true h
  exact fits_one _ .ce 112 _ rfl rfl (by omega) rfl (by omega) h
theorem Fits.atmax (d a b t : Nat) : Fits.Statement (.atmax d a b t) := by
  intro h
  have w := of_decide_eq_true h
  exact fits_one _ .ce 113 _ rfl rfl (by omega) rfl (by omega) h
theorem Fits.atmin (d a b t : Nat) : Fits.Statement (.atmin d a b t) := by
  intro h
  have w := of_decide_eq_true h
  exact fits_one _ .ce 114 _ rfl rfl (by omega) rfl (by omega) h
theorem Fits.atxchg (d a b t : Nat) : Fits.Statement (.atxchg d a b t) := by
  intro h
  have w := of_decide_eq_true h
  exact fits_one _ .ce 115 _ rfl rfl (by omega) rfl (by omega) h
theorem Fits.atcas (d a b t c : Nat) : Fits.Statement (.atcas d a b t c) := by
  intro h
  have w := of_decide_eq_true h
  exact fits_of _ .ce 116 _ _ rfl rfl (by omega) rfl (by omega) (by intro x hx; simp at hx; omega) h
theorem Fits.atincnz (d a t : Nat) : Fits.Statement (.atincnz d a t) := by
  intro h
  have w := of_decide_eq_true h
  exact fits_one _ .ce 117 _ rfl rfl (by omega) rfl (by omega) h
theorem Fits.atdec (d a t : Nat) : Fits.Statement (.atdec d a t) := by
  intro h
  have w := of_decide_eq_true h
  exact fits_one _ .ce 118 _ rfl rfl (by omega) rfl (by omega) h
theorem Fits.pgpin (d a b : Nat) : Fits.Statement (.pgpin d a b) := by
  intro h
  have w := of_decide_eq_true h
  exact fits_one _ .ce 120 _ rfl rfl (by omega) rfl (by omega) h
theorem Fits.pgunpin (d a b : Nat) : Fits.Statement (.pgunpin d a b) := by
  intro h
  have w := of_decide_eq_true h
  exact fits_one _ .ce 121 _ rfl rfl (by omega) rfl (by omega) h
theorem Fits.pgunpinEv (d a b : Nat) : Fits.Statement (.pgunpinEv d a b) := by
  intro h
  have w := of_decide_eq_true h
  exact fits_one _ .ce 121 _ rfl rfl (by omega) rfl (by omega) h
theorem Fits.slabfwSt (d a b : Nat) : Fits.Statement (.slabfwSt d a b) := by
  intro h
  have w := of_decide_eq_true h
  exact fits_one _ .ce 122 _ rfl rfl (by omega) rfl (by omega) h
theorem Fits.slabfwMw (d a b : Nat) : Fits.Statement (.slabfwMw d a b) := by
  intro h
  have w := of_decide_eq_true h
  exact fits_one _ .ce 122 _ rfl rfl (by omega) rfl (by omega) h
theorem Fits.slabfwEnd (d a : Nat) : Fits.Statement (.slabfwEnd d a) := by
  intro h
  have w := of_decide_eq_true h
  exact fits_one _ .ce 122 _ rfl rfl (by omega) rfl (by omega) h
theorem Fits.tlbinvVa (d a b : Nat) : Fits.Statement (.tlbinvVa d a b) := by
  intro h
  have w := of_decide_eq_true h
  exact fits_one _ .ce 123 _ rfl rfl (by omega) rfl (by omega) h
theorem Fits.tlbinvCtx (d b : Nat) : Fits.Statement (.tlbinvCtx d b) := by
  intro h
  have w := of_decide_eq_true h
  exact fits_one _ .ce 123 _ rfl rfl (by omega) rfl (by omega) h
theorem Fits.tlbinvSlab (d a b : Nat) : Fits.Statement (.tlbinvSlab d a b) := by
  intro h
  have w := of_decide_eq_true h
  exact fits_one _ .ce 123 _ rfl rfl (by omega) rfl (by omega) h
theorem Fits.tlbinvAll (d : Nat) : Fits.Statement (.tlbinvAll d) := by
  intro h
  have w := of_decide_eq_true h
  exact fits_one _ .ce 123 _ rfl rfl (by omega) rfl (by omega) h
theorem Fits.vadd (d a b p q m : Nat) : Fits.Statement (.vadd d a b p q m) := by
  intro h
  have w := of_decide_eq_true h
  exact fits_one _ .ve 1 _ rfl rfl (by omega) rfl (by omega) h
theorem Fits.vsub (d a b p q m : Nat) : Fits.Statement (.vsub d a b p q m) := by
  intro h
  have w := of_decide_eq_true h
  exact fits_one _ .ve 2 _ rfl rfl (by omega) rfl (by omega) h
theorem Fits.vmul (d a b p q m : Nat) : Fits.Statement (.vmul d a b p q m) := by
  intro h
  have w := of_decide_eq_true h
  exact fits_one _ .ve 3 _ rfl rfl (by omega) rfl (by omega) h
theorem Fits.vfma (d a b p q m c u : Nat) : Fits.Statement (.vfma d a b p q m c u) := by
  intro h
  have w := of_decide_eq_true h
  exact fits_of _ .ve 4 _ _ rfl rfl (by omega) rfl (by omega) (by intro x hx; simp at hx; omega) h
theorem Fits.vfms (d a b p q m c u : Nat) : Fits.Statement (.vfms d a b p q m c u) := by
  intro h
  have w := of_decide_eq_true h
  exact fits_of _ .ve 5 _ _ rfl rfl (by omega) rfl (by omega) (by intro x hx; simp at hx; omega) h
theorem Fits.vfnma (d a b p q m c u : Nat) : Fits.Statement (.vfnma d a b p q m c u) := by
  intro h
  have w := of_decide_eq_true h
  exact fits_of _ .ve 6 _ _ rfl rfl (by omega) rfl (by omega) (by intro x hx; simp at hx; omega) h
theorem Fits.vmin (d a b p q m : Nat) : Fits.Statement (.vmin d a b p q m) := by
  intro h
  have w := of_decide_eq_true h
  exact fits_one _ .ve 7 _ rfl rfl (by omega) rfl (by omega) h
theorem Fits.vmax (d a b p q m : Nat) : Fits.Statement (.vmax d a b p q m) := by
  intro h
  have w := of_decide_eq_true h
  exact fits_one _ .ve 8 _ rfl rfl (by omega) rfl (by omega) h
theorem Fits.vabs (d a p m : Nat) : Fits.Statement (.vabs d a p m) := by
  intro h
  have w := of_decide_eq_true h
  exact fits_one _ .ve 9 _ rfl rfl (by omega) rfl (by omega) h
theorem Fits.vneg (d a p m : Nat) : Fits.Statement (.vneg d a p m) := by
  intro h
  have w := of_decide_eq_true h
  exact fits_one _ .ve 10 _ rfl rfl (by omega) rfl (by omega) h
theorem Fits.vcmp (d a b p q m cc : Nat) : Fits.Statement (.vcmp d a b p q m cc) := by
  intro h
  have w := of_decide_eq_true h
  exact fits_of _ .ve 11 _ _ rfl rfl (by omega) rfl (by omega) (by intro x hx; simp at hx; omega) h
theorem Fits.vsel (d a b p q s : Nat) : Fits.Statement (.vsel d a b p q s) := by
  intro h
  have w := of_decide_eq_true h
  exact fits_one _ .ve 12 _ rfl rfl (by omega) rfl (by omega) h
theorem Fits.vclamp (d a b p q m c u : Nat) : Fits.Statement (.vclamp d a b p q m c u) := by
  intro h
  have w := of_decide_eq_true h
  exact fits_of _ .ve 13 _ _ rfl rfl (by omega) rfl (by omega) (by intro x hx; simp at hx; omega) h
theorem Fits.vand (d a b p q m : Nat) : Fits.Statement (.vand d a b p q m) := by
  intro h
  have w := of_decide_eq_true h
  exact fits_one _ .ve 14 _ rfl rfl (by omega) rfl (by omega) h
theorem Fits.vor (d a b p q m : Nat) : Fits.Statement (.vor d a b p q m) := by
  intro h
  have w := of_decide_eq_true h
  exact fits_one _ .ve 15 _ rfl rfl (by omega) rfl (by omega) h
theorem Fits.vxor (d a b p q m : Nat) : Fits.Statement (.vxor d a b p q m) := by
  intro h
  have w := of_decide_eq_true h
  exact fits_one _ .ve 16 _ rfl rfl (by omega) rfl (by omega) h
theorem Fits.vnot (d a p m : Nat) : Fits.Statement (.vnot d a p m) := by
  intro h
  have w := of_decide_eq_true h
  exact fits_one _ .ve 17 _ rfl rfl (by omega) rfl (by omega) h
theorem Fits.vshl (d a b p q m : Nat) : Fits.Statement (.vshl d a b p q m) := by
  intro h
  have w := of_decide_eq_true h
  exact fits_one _ .ve 18 _ rfl rfl (by omega) rfl (by omega) h
theorem Fits.vshr (d a b p q m : Nat) : Fits.Statement (.vshr d a b p q m) := by
  intro h
  have w := of_decide_eq_true h
  exact fits_one _ .ve 19 _ rfl rfl (by omega) rfl (by omega) h
theorem Fits.vsar (d a b p q m : Nat) : Fits.Statement (.vsar d a b p q m) := by
  intro h
  have w := of_decide_eq_true h
  exact fits_one _ .ve 20 _ rfl rfl (by omega) rfl (by omega) h
theorem Fits.vadds (d a b p q m : Nat) : Fits.Statement (.vadds d a b p q m) := by
  intro h
  have w := of_decide_eq_true h
  exact fits_one _ .ve 21 _ rfl rfl (by omega) rfl (by omega) h
theorem Fits.vsubs (d a b p q m : Nat) : Fits.Statement (.vsubs d a b p q m) := by
  intro h
  have w := of_decide_eq_true h
  exact fits_one _ .ve 22 _ rfl rfl (by omega) rfl (by omega) h
theorem Fits.vmulh (d a b p q m : Nat) : Fits.Statement (.vmulh d a b p q m) := by
  intro h
  have w := of_decide_eq_true h
  exact fits_one _ .ve 23 _ rfl rfl (by omega) rfl (by omega) h
theorem Fits.vcmul (d a b p q m : Nat) : Fits.Statement (.vcmul d a b p q m) := by
  intro h
  have w := of_decide_eq_true h
  exact fits_one _ .ve 32 _ rfl rfl (by omega) rfl (by omega) h
theorem Fits.vcmac (d a b p q m c u : Nat) : Fits.Statement (.vcmac d a b p q m c u) := by
  intro h
  have w := of_decide_eq_true h
  exact fits_of _ .ve 33 _ _ rfl rfl (by omega) rfl (by omega) (by intro x hx; simp at hx; omega) h
theorem Fits.vcmulj (d a b p q m : Nat) : Fits.Statement (.vcmulj d a b p q m) := by
  intro h
  have w := of_decide_eq_true h
  exact fits_one _ .ve 34 _ rfl rfl (by omega) rfl (by omega) h
theorem Fits.vcmacj (d a b p q m c u : Nat) : Fits.Statement (.vcmacj d a b p q m c u) := by
  intro h
  have w := of_decide_eq_true h
  exact fits_of _ .ve 35 _ _ rfl rfl (by omega) rfl (by omega) (by intro x hx; simp at hx; omega) h
theorem Fits.vconj (d a p m : Nat) : Fits.Statement (.vconj d a p m) := by
  intro h
  have w := of_decide_eq_true h
  exact fits_one _ .ve 36 _ rfl rfl (by omega) rfl (by omega) h
theorem Fits.vcabs2 (d a p m : Nat) : Fits.Statement (.vcabs2 d a p m) := by
  intro h
  have w := of_decide_eq_true h
  exact fits_one _ .ve 37 _ rfl rfl (by omega) rfl (by omega) h
theorem Fits.vshape (r c t : Nat) : Fits.Statement (.vshape r c t) := by
  intro h
  have w := of_decide_eq_true h
  exact fits_one _ .ve 48 _ rfl rfl (by omega) rfl (by omega) h
theorem Fits.vmov (d a p m : Nat) : Fits.Statement (.vmov d a p m) := by
  intro h
  have w := of_decide_eq_true h
  exact fits_one _ .ve 49 _ rfl rfl (by omega) rfl (by omega) h
theorem Fits.vbcastMailbox (d n m : Nat) : Fits.Statement (.vbcastMailbox d n m) := by
  intro h
  have w := of_decide_eq_true h
  exact fits_one _ .ve 50 _ rfl rfl (by omega) rfl (by omega) h
theorem Fits.vbcastElem (d a j p m : Nat) : Fits.Statement (.vbcastElem d a j p m) := by
  intro h
  have w := of_decide_eq_true h
  exact fits_one _ .ve 50 _ rfl rfl (by omega) rfl (by omega) h
theorem Fits.vbcastRow (d a i p m : Nat) : Fits.Statement (.vbcastRow d a i p m) := by
  intro h
  have w := of_decide_eq_true h
  exact fits_one _ .ve 50 _ rfl rfl (by omega) rfl (by omega) h
theorem Fits.vbcastCol (d a j p m : Nat) : Fits.Statement (.vbcastCol d a j p m) := by
  intro h
  have w := of_decide_eq_true h
  exact fits_one _ .ve 50 _ rfl rfl (by omega) rfl (by omega) h
theorem Fits.viota (d k m : Nat) : Fits.Statement (.viota d k m) := by
  intro h
  have w := of_decide_eq_true h
  exact fits_one _ .ve 51 _ rfl rfl (by omega) rfl (by omega) h
theorem Fits.vtrans (d a p m : Nat) : Fits.Statement (.vtrans d a p m) := by
  intro h
  have w := of_decide_eq_true h
  exact fits_one _ .ve 52 _ rfl rfl (by omega) rfl (by omega) h
theorem Fits.vld (v a s e l i m : Nat) : Fits.Statement (.vld v a s e l i m) := by
  intro h
  have w := of_decide_eq_true h
  exact fits_one _ .ve 53 _ rfl rfl (by omega) rfl (by omega) h
theorem Fits.vst (v a s e l i m : Nat) : Fits.Statement (.vst v a s e l i m) := by
  intro h
  have w := of_decide_eq_true h
  exact fits_one _ .ve 54 _ rfl rfl (by omega) rfl (by omega) h
theorem Fits.vldr (d q m : Nat) : Fits.Statement (.vldr d q m) := by
  intro h
  have w := of_decide_eq_true h
  exact fits_one _ .ve 55 _ rfl rfl (by omega) rfl (by omega) h
theorem Fits.vstr (v q m : Nat) : Fits.Statement (.vstr v q m) := by
  intro h
  have w := of_decide_eq_true h
  exact fits_one _ .ve 56 _ rfl rfl (by omega) rfl (by omega) h
theorem Fits.vmskCopy (n s : Nat) : Fits.Statement (.vmskCopy n s) := by
  intro h
  have w := of_decide_eq_true h
  exact fits_one _ .ve 57 _ rfl rfl (by omega) rfl (by omega) h
theorem Fits.vmskNot (n s : Nat) : Fits.Statement (.vmskNot n s) := by
  intro h
  have w := of_decide_eq_true h
  exact fits_one _ .ve 57 _ rfl rfl (by omega) rfl (by omega) h
theorem Fits.vmskNz (n a p s : Nat) : Fits.Statement (.vmskNz n a p s) := by
  intro h
  have w := of_decide_eq_true h
  exact fits_one _ .ve 57 _ rfl rfl (by omega) rfl (by omega) h
theorem Fits.vmskCols (n c s : Nat) : Fits.Statement (.vmskCols n c s) := by
  intro h
  have w := of_decide_eq_true h
  exact fits_one _ .ve 57 _ rfl rfl (by omega) rfl (by omega) h
theorem Fits.vmskRows (n c s : Nat) : Fits.Statement (.vmskRows n c s) := by
  intro h
  have w := of_decide_eq_true h
  exact fits_one _ .ve 57 _ rfl rfl (by omega) rfl (by omega) h
theorem Fits.vmskAnd (n k s : Nat) : Fits.Statement (.vmskAnd n k s) := by
  intro h
  have w := of_decide_eq_true h
  exact fits_one _ .ve 57 _ rfl rfl (by omega) rfl (by omega) h
theorem Fits.vmskOr (n k s : Nat) : Fits.Statement (.vmskOr n k s) := by
  intro h
  have w := of_decide_eq_true h
  exact fits_one _ .ve 57 _ rfl rfl (by omega) rfl (by omega) h
theorem Fits.vmcnt (k x : Nat) : Fits.Statement (.vmcnt k x) := by
  intro h
  have w := of_decide_eq_true h
  exact fits_one _ .ve 58 _ rfl rfl (by omega) rfl (by omega) h
theorem Fits.vtox (a j x p : Nat) : Fits.Statement (.vtox a j x p) := by
  intro h
  have w := of_decide_eq_true h
  exact fits_one _ .ve 59 _ rfl rfl (by omega) rfl (by omega) h
theorem Fits.vexp2 (d a p m : Nat) : Fits.Statement (.vexp2 d a p m) := by
  intro h
  have w := of_decide_eq_true h
  exact fits_one _ .ve 64 _ rfl rfl (by omega) rfl (by omega) h
theorem Fits.vexp (d a p m : Nat) : Fits.Statement (.vexp d a p m) := by
  intro h
  have w := of_decide_eq_true h
  exact fits_one _ .ve 65 _ rfl rfl (by omega) rfl (by omega) h
theorem Fits.vlog2 (d a p m : Nat) : Fits.Statement (.vlog2 d a p m) := by
  intro h
  have w := of_decide_eq_true h
  exact fits_one _ .ve 66 _ rfl rfl (by omega) rfl (by omega) h
theorem Fits.vln (d a p m : Nat) : Fits.Statement (.vln d a p m) := by
  intro h
  have w := of_decide_eq_true h
  exact fits_one _ .ve 67 _ rfl rfl (by omega) rfl (by omega) h
theorem Fits.vrcp (d a p m : Nat) : Fits.Statement (.vrcp d a p m) := by
  intro h
  have w := of_decide_eq_true h
  exact fits_one _ .ve 68 _ rfl rfl (by omega) rfl (by omega) h
theorem Fits.vrsq (d a p m : Nat) : Fits.Statement (.vrsq d a p m) := by
  intro h
  have w := of_decide_eq_true h
  exact fits_one _ .ve 69 _ rfl rfl (by omega) rfl (by omega) h
theorem Fits.vsqrt (d a p m : Nat) : Fits.Statement (.vsqrt d a p m) := by
  intro h
  have w := of_decide_eq_true h
  exact fits_one _ .ve 70 _ rfl rfl (by omega) rfl (by omega) h
theorem Fits.vsigm (d a p m : Nat) : Fits.Statement (.vsigm d a p m) := by
  intro h
  have w := of_decide_eq_true h
  exact fits_one _ .ve 71 _ rfl rfl (by omega) rfl (by omega) h
theorem Fits.vsoftp (d a p m : Nat) : Fits.Statement (.vsoftp d a p m) := by
  intro h
  have w := of_decide_eq_true h
  exact fits_one _ .ve 72 _ rfl rfl (by omega) rfl (by omega) h
theorem Fits.vtanh (d a p m : Nat) : Fits.Statement (.vtanh d a p m) := by
  intro h
  have w := of_decide_eq_true h
  exact fits_one _ .ve 73 _ rfl rfl (by omega) rfl (by omega) h
theorem Fits.vdiv (d a b p q m : Nat) : Fits.Statement (.vdiv d a b p q m) := by
  intro h
  have w := of_decide_eq_true h
  exact fits_one _ .ve 74 _ rfl rfl (by omega) rfl (by omega) h
theorem Fits.vreds (d a r p s : Nat) : Fits.Statement (.vreds d a r p s) := by
  intro h
  have w := of_decide_eq_true h
  exact fits_one _ .ve 80 _ rfl rfl (by omega) rfl (by omega) h
theorem Fits.vredm (d a r p s : Nat) : Fits.Statement (.vredm d a r p s) := by
  intro h
  have w := of_decide_eq_true h
  exact fits_one _ .ve 81 _ rfl rfl (by omega) rfl (by omega) h
theorem Fits.vredmIdx (d a r p s : Nat) : Fits.Statement (.vredmIdx d a r p s) := by
  intro h
  have w := of_decide_eq_true h
  exact fits_one _ .ve 81 _ rfl rfl (by omega) rfl (by omega) h
theorem Fits.vredn (d a r p s : Nat) : Fits.Statement (.vredn d a r p s) := by
  intro h
  have w := of_decide_eq_true h
  exact fits_one _ .ve 82 _ rfl rfl (by omega) rfl (by omega) h
theorem Fits.vrednIdx (d a r p s : Nat) : Fits.Statement (.vrednIdx d a r p s) := by
  intro h
  have w := of_decide_eq_true h
  exact fits_one _ .ve 82 _ rfl rfl (by omega) rfl (by omega) h
theorem Fits.vscans (d a e r p s : Nat) : Fits.Statement (.vscans d a e r p s) := by
  intro h
  have w := of_decide_eq_true h
  exact fits_one _ .ve 83 _ rfl rfl (by omega) rfl (by omega) h
theorem Fits.vkey (d a k p m : Nat) : Fits.Statement (.vkey d a k p m) := by
  intro h
  have w := of_decide_eq_true h
  exact fits_one _ .ve 84 _ rfl rfl (by omega) rfl (by omega) h
theorem Fits.vhist (d a c k b p m : Nat) : Fits.Statement (.vhist d a c k b p m) := by
  intro h
  have w := of_decide_eq_true h
  exact fits_one _ .ve 85 _ rfl rfl (by omega) rfl (by omega) h
theorem Fits.vpermb (d a b p q m : Nat) : Fits.Statement (.vpermb d a b p q m) := by
  intro h
  have w := of_decide_eq_true h
  exact fits_one _ .ve 88 _ rfl rfl (by omega) rfl (by omega) h
theorem Fits.vbitg (d a b p q m : Nat) : Fits.Statement (.vbitg d a b p q m) := by
  intro h
  have w := of_decide_eq_true h
  exact fits_one _ .ve 89 _ rfl rfl (by omega) rfl (by omega) h
theorem Fits.vbits (d a b p q m : Nat) : Fits.Statement (.vbits d a b p q m) := by
  intro h
  have w := of_decide_eq_true h
  exact fits_one _ .ve 90 _ rfl rfl (by omega) rfl (by omega) h
theorem Fits.vshuf (d a b p q m : Nat) : Fits.Statement (.vshuf d a b p q m) := by
  intro h
  have w := of_decide_eq_true h
  exact fits_one _ .ve 91 _ rfl rfl (by omega) rfl (by omega) h
theorem Fits.vcomp (d a k r p s : Nat) : Fits.Statement (.vcomp d a k r p s) := by
  intro h
  have w := of_decide_eq_true h
  exact fits_one _ .ve 92 _ rfl rfl (by omega) rfl (by omega) h
theorem Fits.vexpd (d a k r p s : Nat) : Fits.Statement (.vexpd d a k r p s) := by
  intro h
  have w := of_decide_eq_true h
  exact fits_one _ .ve 93 _ rfl rfl (by omega) rfl (by omega) h
theorem Fits.vcvt (d a o p m st dt rnd sx imm : Nat) : Fits.Statement (.vcvt d a o p m st dt rnd sx imm) := by
  intro h
  have w := of_decide_eq_true h
  exact fits_of _ .ve 96 _ _ rfl rfl (by omega) rfl (by omega) (by intro x hx; simp at hx; omega) h
theorem Fits.vpack (d a p m st dt rnd sx imm : Nat) : Fits.Statement (.vpack d a p m st dt rnd sx imm) := by
  intro h
  have w := of_decide_eq_true h
  exact fits_of _ .ve 97 _ _ rfl rfl (by omega) rfl (by omega) (by intro x hx; simp at hx; omega) h
theorem Fits.vunpk (d a p m st dt rnd sx imm : Nat) : Fits.Statement (.vunpk d a p m st dt rnd sx imm) := by
  intro h
  have w := of_decide_eq_true h
  exact fits_of _ .ve 98 _ _ rfl rfl (by omega) rfl (by omega) (by intro x hx; simp at hx; omega) h
theorem Fits.vsrnd (d a p m st dt rnd sx imm : Nat) : Fits.Statement (.vsrnd d a p m st dt rnd sx imm) := by
  intro h
  have w := of_decide_eq_true h
  exact fits_of _ .ve 99 _ _ rfl rfl (by omega) rfl (by omega) (by intro x hx; simp at hx; omega) h
theorem Fits.vqnt (d a b p q m st dt rnd sx imm : Nat) : Fits.Statement (.vqnt d a b p q m st dt rnd sx imm) := by
  intro h
  have w := of_decide_eq_true h
  exact fits_of _ .ve 100 _ _ rfl rfl (by omega) rfl (by omega) (by intro x hx; simp at hx; omega) h
theorem Fits.mm (qa qb md fi ta tb m n k acc : Nat) : Fits.Statement (.mm qa qb md fi ta tb m n k acc) := by
  intro h
  have w := of_decide_eq_true h
  exact fits_of _ .me 0 _ _ rfl rfl (by omega) rfl (by omega) (by intro x hx; simp at hx; omega) h
theorem Fits.mmc (qa qb md fi ta tb m n k acc cr cc : Nat) : Fits.Statement (.mmc qa qb md fi ta tb m n k acc cr cc) := by
  intro h
  have w := of_decide_eq_true h
  exact fits_of _ .me 1 _ _ rfl rfl (by omega) rfl (by omega) (by intro x hx; simp at hx; omega) h
theorem Fits.mmt (qa qb md fi ta tb m n k acc : Nat) : Fits.Statement (.mmt qa qb md fi ta tb m n k acc) := by
  intro h
  have w := of_decide_eq_true h
  exact fits_of _ .me 2 _ _ rfl rfl (by omega) rfl (by omega) (by intro x hx; simp at hx; omega) h
theorem Fits.aczero (fn acc rows cols : Nat) : Fits.Statement (.aczero fn acc rows cols) := by
  intro h
  have w := of_decide_eq_true h
  exact fits_of _ .me 8 _ _ rfl rfl (by omega) rfl (by omega) (by intro x hx; simp at hx; omega) h
theorem Fits.acdrain (q dt fn acc rows cols : Nat) : Fits.Statement (.acdrain q dt fn acc rows cols) := by
  intro h
  have w := of_decide_eq_true h
  exact fits_of _ .me 9 _ _ rfl rfl (by omega) rfl (by omega) (by intro x hx; simp at hx; omega) h
theorem Fits.acsmx (q dt dd acc rows cols : Nat) : Fits.Statement (.acsmx q dt dd acc rows cols) := by
  intro h
  have w := of_decide_eq_true h
  exact fits_of _ .me 10 _ _ rfl rfl (by omega) rfl (by omega) (by intro x hx; simp at hx; omega) h
theorem Fits.acscale (acc rows cols : Nat) : Fits.Statement (.acscale acc rows cols) := by
  intro h
  have w := of_decide_eq_true h
  exact fits_of _ .me 11 _ _ rfl rfl (by omega) rfl (by omega) (by intro x hx; simp at hx; omega) h
theorem Fits.acnorm (acc rows cols : Nat) : Fits.Statement (.acnorm acc rows cols) := by
  intro h
  have w := of_decide_eq_true h
  exact fits_of _ .me 12 _ _ rfl rfl (by omega) rfl (by omega) (by intro x hx; simp at hx; omega) h
theorem Fits.acmov (q dt fn acc rows cols : Nat) : Fits.Statement (.acmov q dt fn acc rows cols) := by
  intro h
  have w := of_decide_eq_true h
  exact fits_of _ .me 13 _ _ rfl rfl (by omega) rfl (by omega) (by intro x hx; simp at hx; omega) h
theorem Fits.scdr (qi qo flip emit g slot lay n : Nat) : Fits.Statement (.scdr qi qo flip emit g slot lay n) := by
  intro h
  have w := of_decide_eq_true h
  exact fits_of _ .se 0 _ _ rfl rfl (by omega) rfl (by omega) (by intro x hx; simp at hx; omega) h
theorem Fits.scdc (qi qo flip emit g slot lay n : Nat) : Fits.Statement (.scdc qi qo flip emit g slot lay n) := by
  intro h
  have w := of_decide_eq_true h
  exact fits_of _ .se 1 _ _ rfl rfl (by omega) rfl (by omega) (by intro x hx; simp at hx; omega) h
theorem Fits.scgk (qi qo flip emit g slot lay n : Nat) : Fits.Statement (.scgk qi qo flip emit g slot lay n) := by
  intro h
  have w := of_decide_eq_true h
  exact fits_of _ .se 2 _ _ rfl rfl (by omega) rfl (by omega) (by intro x hx; simp at hx; omega) h
theorem Fits.scch (qi qo flip emit g slot lay n : Nat) : Fits.Statement (.scch qi qo flip emit g slot lay n) := by
  intro h
  have w := of_decide_eq_true h
  exact fits_of _ .se 3 _ _ rfl rfl (by omega) rfl (by omega) (by intro x hx; simp at hx; omega) h
theorem Fits.scout (qo pend g slot lay : Nat) : Fits.Statement (.scout qo pend g slot lay) := by
  intro h
  have w := of_decide_eq_true h
  exact fits_of _ .se 4 _ _ rfl rfl (by omega) rfl (by omega) (by intro x hx; simp at hx; omega) h
theorem Fits.scmode (i : Nat) : Fits.Statement (.scmode i) := by
  intro h
  have w := of_decide_eq_true h
  exact fits_one _ .se 5 _ rfl rfl (by omega) rfl (by omega) h
theorem Fits.krin (d a b : Nat) : Fits.Statement (.krin d a b) := by
  intro h
  have w := of_decide_eq_true h
  exact fits_one _ .ke 0 _ rfl rfl (by omega) rfl (by omega) h
theorem Fits.krout (d b : Nat) : Fits.Statement (.krout d b) := by
  intro h
  have w := of_decide_eq_true h
  exact fits_one _ .ke 1 _ rfl rfl (by omega) rfl (by omega) h
theorem Fits.ksnap (d a : Nat) : Fits.Statement (.ksnap d a) := by
  intro h
  have w := of_decide_eq_true h
  exact fits_one _ .ke 2 _ rfl rfl (by omega) rfl (by omega) h
theorem Fits.kfork (d a b : Nat) : Fits.Statement (.kfork d a b) := by
  intro h
  have w := of_decide_eq_true h
  exact fits_one _ .ke 3 _ rfl rfl (by omega) rfl (by omega) h
theorem Fits.krollC (d b : Nat) : Fits.Statement (.krollC d b) := by
  intro h
  have w := of_decide_eq_true h
  exact fits_one _ .ke 4 _ rfl rfl (by omega) rfl (by omega) h
theorem Fits.krollP (d a : Nat) : Fits.Statement (.krollP d a) := by
  intro h
  have w := of_decide_eq_true h
  exact fits_one _ .ke 4 _ rfl rfl (by omega) rfl (by omega) h
theorem Fits.krollS (d a b : Nat) : Fits.Statement (.krollS d a b) := by
  intro h
  have w := of_decide_eq_true h
  exact fits_one _ .ke 4 _ rfl rfl (by omega) rfl (by omega) h
theorem Fits.kcommit (d a b : Nat) : Fits.Statement (.kcommit d a b) := by
  intro h
  have w := of_decide_eq_true h
  exact fits_one _ .ke 5 _ rfl rfl (by omega) rfl (by omega) h
theorem Fits.kattach (d a : Nat) : Fits.Statement (.kattach d a) := by
  intro h
  have w := of_decide_eq_true h
  exact fits_one _ .ke 6 _ rfl rfl (by omega) rfl (by omega) h
theorem Fits.kdetach (d a : Nat) : Fits.Statement (.kdetach d a) := by
  intro h
  have w := of_decide_eq_true h
  exact fits_one _ .ke 7 _ rfl rfl (by omega) rfl (by omega) h
theorem Fits.kstatSlot (d b : Nat) : Fits.Statement (.kstatSlot d b) := by
  intro h
  have w := of_decide_eq_true h
  exact fits_one _ .ke 8 _ rfl rfl (by omega) rfl (by omega) h
theorem Fits.kstatCask (d a : Nat) : Fits.Statement (.kstatCask d a) := by
  intro h
  have w := of_decide_eq_true h
  exact fits_one _ .ke 8 _ rfl rfl (by omega) rfl (by omega) h
theorem Fits.kwait (d b : Nat) : Fits.Statement (.kwait d b) := by
  intro h
  have w := of_decide_eq_true h
  exact fits_one _ .ke 9 _ rfl rfl (by omega) rfl (by omega) h
theorem Fits.xld (a b c : Nat) : Fits.Statement (.xld a b c) := by
  intro h
  have w := of_decide_eq_true h
  exact fits_one _ .xl 0 _ rfl rfl (by omega) rfl (by omega) h
theorem Fits.xldAcq (a b c : Nat) : Fits.Statement (.xldAcq a b c) := by
  intro h
  have w := of_decide_eq_true h
  exact fits_one _ .xl 0 _ rfl rfl (by omega) rfl (by omega) h
theorem Fits.xldr (b c q : Nat) : Fits.Statement (.xldr b c q) := by
  intro h
  have w := of_decide_eq_true h
  exact fits_one _ .xl 1 _ rfl rfl (by omega) rfl (by omega) h
theorem Fits.xgath (a b c : Nat) : Fits.Statement (.xgath a b c) := by
  intro h
  have w := of_decide_eq_true h
  exact fits_one _ .xl 2 _ rfl rfl (by omega) rfl (by omega) h
theorem Fits.xcpy (a b c t s : Nat) : Fits.Statement (.xcpy a b c t s) := by
  intro h
  have w := of_decide_eq_true h
  exact fits_one _ .xl 3 _ rfl rfl (by omega) rfl (by omega) h
theorem Fits.xfenceXl : Fits.Statement .xfenceXl := fits_one _ .xl 4 _ rfl rfl rfl rfl (by decide)
theorem Fits.xmsgrx (a h : Nat) : Fits.Statement (.xmsgrx a h) := by
  intro h
  have w := of_decide_eq_true h
  exact fits_one _ .xl 5 _ rfl rfl (by omega) rfl (by omega) h
theorem Fits.xst (a b c : Nat) : Fits.Statement (.xst a b c) := by
  intro h
  have w := of_decide_eq_true h
  exact fits_one _ .xs 0 _ rfl rfl (by omega) rfl (by omega) h
theorem Fits.xstRing (b c q : Nat) : Fits.Statement (.xstRing b c q) := by
  intro h
  have w := of_decide_eq_true h
  exact fits_one _ .xs 0 _ rfl rfl (by omega) rfl (by omega) h
theorem Fits.xsta (a b c : Nat) : Fits.Statement (.xsta a b c) := by
  intro h
  have w := of_decide_eq_true h
  exact fits_one _ .xs 1 _ rfl rfl (by omega) rfl (by omega) h
theorem Fits.xscat (a b c : Nat) : Fits.Statement (.xscat a b c) := by
  intro h
  have w := of_decide_eq_true h
  exact fits_one _ .xs 2 _ rfl rfl (by omega) rfl (by omega) h
theorem Fits.xhring (a b c : Nat) : Fits.Statement (.xhring a b c) := by
  intro h
  have w := of_decide_eq_true h
  exact fits_one _ .xs 3 _ rfl rfl (by omega) rfl (by omega) h
theorem Fits.xfenceXs : Fits.Statement .xfenceXs := fits_one _ .xs 4 _ rfl rfl rfl rfl (by decide)
theorem Fits.xmsgtx (a b c h : Nat) : Fits.Statement (.xmsgtx a b c h) := by
  intro h
  have w := of_decide_eq_true h
  exact fits_one _ .xs 5 _ rfl rfl (by omega) rfl (by omega) h
theorem Fits.xstrel (a b : Nat) : Fits.Statement (.xstrel a b) := by
  intro h
  have w := of_decide_eq_true h
  exact fits_one _ .xs 6 _ rfl rfl (by omega) rfl (by omega) h
theorem Fits.ctri (a b all ch cnt dd : Nat) : Fits.Statement (.ctri a b all ch cnt dd) := by
  intro h
  have w := of_decide_eq_true h
  exact fits_of _ .xs 16 _ _ rfl rfl (by omega) rfl (by omega) (by intro x hx; simp at hx; omega) h
theorem Fits.chist (a b c all ch dt cnt mass bb : Nat) : Fits.Statement (.chist a b c all ch dt cnt mass bb) := by
  intro h
  have w := of_decide_eq_true h
  exact fits_of _ .xs 17 _ _ rfl rfl (by omega) rfl (by omega) (by intro x hx; simp at hx; omega) h
theorem Fits.cmaxi (a b all ch dt cnt mn : Nat) : Fits.Statement (.cmaxi a b all ch dt cnt mn) := by
  intro h
  have w := of_decide_eq_true h
  exact fits_of _ .xs 18 _ _ rfl rfl (by omega) rfl (by omega) (by intro x hx; simp at hx; omega) h
theorem Fits.csum (a b c all ch dt cnt : Nat) : Fits.Statement (.csum a b c all ch dt cnt) := by
  intro h
  have w := of_decide_eq_true h
  exact fits_of _ .xs 19 _ _ rfl rfl (by omega) rfl (by omega) (by intro x hx; simp at hx; omega) h
theorem Fits.cbcast (a b ch cnt root : Nat) : Fits.Statement (.cbcast a b ch cnt root) := by
  intro h
  have w := of_decide_eq_true h
  exact fits_of _ .xs 20 _ _ rfl rfl (by omega) rfl (by omega) (by intro x hx; simp at hx; omega) h
theorem Fits.cwait (a h : Nat) : Fits.Statement (.cwait a h) := by
  intro h
  have w := of_decide_eq_true h
  exact fits_one _ .xs 21 _ rfl rfl (by omega) rfl (by omega) h
theorem Fits.fetchLine (x0 : Nat) : Fits.Statement (.fetchLine x0) := fits_event _ rfl rfl
theorem Fits.heldPost (x0 x1 : Nat) : Fits.Statement (.heldPost x0 x1) := fits_event _ rfl rfl
theorem Fits.trapDelivery (x0 : Nat) : Fits.Statement (.trapDelivery x0) := fits_event _ rfl rfl
theorem Fits.mmSlice (x0 : Nat) : Fits.Statement (.mmSlice x0) := fits_event _ rfl rfl
theorem Fits.scanStep (x0 : Nat) : Fits.Statement (.scanStep x0) := fits_event _ rfl rfl
theorem Fits.commitWaitRecheck (x0 : Nat) : Fits.Statement (.commitWaitRecheck x0) := fits_event _ rfl rfl
theorem Fits.rackInComplete (x0 x1 x2 : Nat) : Fits.Statement (.rackInComplete x0 x1 x2) := fits_event _ rfl rfl
theorem Fits.rackOutComplete (x0 x1 x2 : Nat) : Fits.Statement (.rackOutComplete x0 x1 x2) := fits_event _ rfl rfl
theorem Fits.xcpyComplete (x0 x1 x2 : Nat) : Fits.Statement (.xcpyComplete x0 x1 x2) := fits_event _ rfl rfl
theorem Fits.transferComplete (x0 x1 x2 : Nat) : Fits.Statement (.transferComplete x0 x1 x2) := fits_event _ rfl rfl
theorem Fits.portOperation (x0 : Nat) : Fits.Statement (.portOperation x0) := fits_event _ rfl rfl
theorem Fits.portReply (x0 : Nat) : Fits.Statement (.portReply x0) := fits_event _ rfl rfl
theorem Fits.bwaitNotification (x0 : Nat) : Fits.Statement (.bwaitNotification x0) := fits_event _ rfl rfl
theorem Fits.barrierDeadline (x0 x1 : Nat) : Fits.Statement (.barrierDeadline x0 x1) := fits_event _ rfl rfl
theorem Fits.messageArrival (x0 : Nat) : Fits.Statement (.messageArrival x0) := fits_event _ rfl rfl
theorem Fits.instanceBegin (x0 x1 x2 : Nat) : Fits.Statement (.instanceBegin x0 x1 x2) := fits_event _ rfl rfl
theorem Fits.instanceDelivery (x0 x1 x2 : Nat) : Fits.Statement (.instanceDelivery x0 x1 x2) := fits_event _ rfl rfl
theorem Fits.scratchRefillComplete (x0 x1 : Nat) : Fits.Statement (.scratchRefillComplete x0 x1) := fits_event _ rfl rfl
theorem Fits.scratchWritebackComplete (x0 x1 : Nat) : Fits.Statement (.scratchWritebackComplete x0 x1) := fits_event _ rfl rfl
theorem Fits.invalidationAck (x0 x1 : Nat) : Fits.Statement (.invalidationAck x0 x1) := fits_event _ rfl rfl
theorem Fits.stopComplete (x0 : Nat) : Fits.Statement (.stopComplete x0) := fits_event _ rfl rfl
theorem Fits.stopTimeout (x0 : Nat) : Fits.Statement (.stopTimeout x0) := fits_event _ rfl rfl
theorem Fits.textLoadComplete (x0 x1 : Nat) : Fits.Statement (.textLoadComplete x0 x1) := fits_event _ rfl rfl
theorem Fits.launchAtStart (x0 : Nat) : Fits.Statement (.launchAtStart x0) := fits_event _ rfl rfl
theorem Fits.launchRetry (x0 : Nat) : Fits.Statement (.launchRetry x0) := fits_event _ rfl rfl
theorem Fits.dispatcherChoice : Fits.Statement .dispatcherChoice := fits_event _ rfl rfl
theorem Fits.acceptCommand (x0 : Nat) : Fits.Statement (.acceptCommand x0) := fits_event _ rfl rfl
theorem Fits.watchdog (x0 : Nat) : Fits.Statement (.watchdog x0) := fits_event _ rfl rfl
theorem Fits.eventRecordAppend (x0 : Nat) : Fits.Statement (.eventRecordAppend x0) := fits_event _ rfl rfl
theorem Fits.coalescingTimeout (x0 x1 : Nat) : Fits.Statement (.coalescingTimeout x0 x1) := fits_event _ rfl rfl
theorem Fits.msixUnmask (x0 : Nat) : Fits.Statement (.msixUnmask x0) := fits_event _ rfl rfl
theorem Fits.cmdNop (x0 : Nat) : Fits.Statement (.cmdNop x0) := fits_event _ rfl rfl
theorem Fits.launch (x0 : Nat) : Fits.Statement (.launch x0) := fits_event _ rfl rfl
theorem Fits.launchAt (x0 : Nat) : Fits.Statement (.launchAt x0) := fits_event _ rfl rfl
theorem Fits.copy (x0 x1 : Nat) : Fits.Statement (.copy x0 x1) := fits_event _ rfl rfl
theorem Fits.fill (x0 x1 : Nat) : Fits.Statement (.fill x0 x1) := fits_event _ rfl rfl
theorem Fits.signal (x0 : Nat) : Fits.Statement (.signal x0) := fits_event _ rfl rfl
theorem Fits.wait (x0 : Nat) : Fits.Statement (.wait x0) := fits_event _ rfl rfl
theorem Fits.cond (x0 : Nat) : Fits.Statement (.cond x0) := fits_event _ rfl rfl
theorem Fits.timestamp (x0 : Nat) : Fits.Statement (.timestamp x0) := fits_event _ rfl rfl
theorem Fits.hostring (x0 : Nat) : Fits.Statement (.hostring x0) := fits_event _ rfl rfl
theorem Fits.caskop (x0 : Nat) : Fits.Statement (.caskop x0) := fits_event _ rfl rfl
theorem Fits.commitWrite (x0 x1 : Nat) : Fits.Statement (.commitWrite x0 x1) := fits_event _ rfl rfl
theorem Fits.qcfgWrite (x0 x1 : Nat) : Fits.Statement (.qcfgWrite x0 x1) := fits_event _ rfl rfl
theorem Fits.qctlEnable (x0 : Nat) : Fits.Statement (.qctlEnable x0) := fits_event _ rfl rfl
theorem Fits.qctlPause (x0 : Nat) : Fits.Statement (.qctlPause x0) := fits_event _ rfl rfl
theorem Fits.qctlResume (x0 : Nat) : Fits.Statement (.qctlResume x0) := fits_event _ rfl rfl
theorem Fits.qctlReset (x0 : Nat) : Fits.Statement (.qctlReset x0) := fits_event _ rfl rfl
theorem Fits.qctlRewind (x0 x1 : Nat) : Fits.Statement (.qctlRewind x0 x1) := fits_event _ rfl rfl
theorem Fits.cdescWrite (x0 x1 : Nat) : Fits.Statement (.cdescWrite x0 x1) := fits_event _ rfl rfl
theorem Fits.create (x0 : Nat) : Fits.Statement (.create x0) := fits_event _ rfl rfl
theorem Fits.bind (x0 : Nat) : Fits.Statement (.bind x0) := fits_event _ rfl rfl
theorem Fits.unbind (x0 : Nat) : Fits.Statement (.unbind x0) := fits_event _ rfl rfl
theorem Fits.rebind (x0 : Nat) : Fits.Statement (.rebind x0) := fits_event _ rfl rfl
theorem Fits.clear (x0 : Nat) : Fits.Statement (.clear x0) := fits_event _ rfl rfl
theorem Fits.discard (x0 : Nat) : Fits.Statement (.discard x0) := fits_event _ rfl rfl
theorem Fits.destroy (x0 : Nat) : Fits.Statement (.destroy x0) := fits_event _ rfl rfl
theorem Fits.registerWrite (x0 x1 x2 : Nat) : Fits.Statement (.registerWrite x0 x1 x2) := fits_event _ rfl rfl
theorem Fits.hostMemoryWrite (x0 x1 x2 : Nat) : Fits.Statement (.hostMemoryWrite x0 x1 x2) := fits_event _ rfl rfl
theorem Fits.hostMemoryRead (x0 x1 : Nat) : Fits.Statement (.hostMemoryRead x0 x1) := fits_event _ rfl rfl
theorem Fits.linkEnable (x0 : Nat) : Fits.Statement (.linkEnable x0) := fits_event _ rfl rfl
theorem Fits.trainingComplete (x0 : Nat) : Fits.Statement (.trainingComplete x0) := fits_event _ rfl rfl
theorem Fits.trainingFailure (x0 : Nat) : Fits.Statement (.trainingFailure x0) := fits_event _ rfl rfl
theorem Fits.pskExchange (x0 : Nat) : Fits.Statement (.pskExchange x0) := fits_event _ rfl rfl
theorem Fits.pskFinish (x0 x1 : Nat) : Fits.Statement (.pskFinish x0 x1) := fits_event _ rfl rfl
theorem Fits.keyDelivery (x0 x1 : Nat) : Fits.Statement (.keyDelivery x0 x1) := fits_event _ rfl rfl
theorem Fits.routeTable (x0 : Nat) : Fits.Statement (.routeTable x0) := fits_event _ rfl rfl
theorem Fits.data (x0 x1 x2 x3 x4 x5 x6 x7 : Nat) : Fits.Statement (.data x0 x1 x2 x3 x4 x5 x6 x7) := fits_event _ rfl rfl
theorem Fits.idle (x0 x1 : Nat) : Fits.Statement (.idle x0 x1) := fits_event _ rfl rfl
theorem Fits.hold (x0 x1 x2 x3 : Nat) : Fits.Statement (.hold x0 x1 x2 x3) := fits_event _ rfl rfl
theorem Fits.release (x0 x1 x2 x3 : Nat) : Fits.Statement (.release x0 x1 x2 x3) := fits_event _ rfl rfl
theorem Fits.mgmt (x0 x1 : Nat) : Fits.Statement (.mgmt x0 x1) := fits_event _ rfl rfl
theorem Fits.keyack (x0 x1 : Nat) : Fits.Statement (.keyack x0 x1) := fits_event _ rfl rfl
theorem Fits.lack (x0 x1 x2 : Nat) : Fits.Statement (.lack x0 x1 x2) := fits_event _ rfl rfl
theorem Fits.drain (x0 x1 : Nat) : Fits.Statement (.drain x0 x1) := fits_event _ rfl rfl
theorem Fits.fcntLimit (x0 x1 : Nat) : Fits.Statement (.fcntLimit x0 x1) := fits_event _ rfl rfl
theorem Fits.lctlRekeyDir0 (x0 : Nat) : Fits.Statement (.lctlRekeyDir0 x0) := fits_event _ rfl rfl
theorem Fits.lctlRekeyDir1 (x0 : Nat) : Fits.Statement (.lctlRekeyDir1 x0) := fits_event _ rfl rfl
theorem Fits.retrain (x0 : Nat) : Fits.Statement (.retrain x0) := fits_event _ rfl rfl
theorem Fits.ideKm (x0 x1 : Nat) : Fits.Statement (.ideKm x0 x1) := fits_event _ rfl rfl
theorem Fits.getVersion : Fits.Statement .getVersion := fits_event _ rfl rfl
theorem Fits.getCapabilities : Fits.Statement .getCapabilities := fits_event _ rfl rfl
theorem Fits.negotiateAlgorithms (x0 x1 x2 x3 : Nat) : Fits.Statement (.negotiateAlgorithms x0 x1 x2 x3) := fits_event _ rfl rfl
theorem Fits.challenge (x0 : Nat) : Fits.Statement (.challenge x0) := fits_event _ rfl rfl
theorem Fits.getMeasurements (x0 x1 : Nat) : Fits.Statement (.getMeasurements x0 x1) := fits_event _ rfl rfl
theorem Fits.keyExchange (x0 : Nat) : Fits.Statement (.keyExchange x0) := fits_event _ rfl rfl
theorem Fits.finish (x0 x1 : Nat) : Fits.Statement (.finish x0 x1) := fits_event _ rfl rfl
theorem Fits.heartbeat (x0 : Nat) : Fits.Statement (.heartbeat x0) := fits_event _ rfl rfl
theorem Fits.keyUpdate (x0 : Nat) : Fits.Statement (.keyUpdate x0) := fits_event _ rfl rfl
theorem Fits.endSession (x0 : Nat) : Fits.Statement (.endSession x0) := fits_event _ rfl rfl
theorem Fits.chunkSend (x0 x1 x2 : Nat) : Fits.Statement (.chunkSend x0 x1 x2) := fits_event _ rfl rfl
theorem Fits.chunkGet (x0 x1 : Nat) : Fits.Statement (.chunkGet x0 x1) := fits_event _ rfl rfl
theorem Fits.unsupportedRequest (x0 : Nat) : Fits.Statement (.unsupportedRequest x0) := fits_event _ rfl rfl
theorem Fits.keyset (x0 x1 x2 x3 x4 : Nat) : Fits.Statement (.keyset x0 x1 x2 x3 x4) := fits_event _ rfl rfl
theorem Fits.keyretire (x0 x1 : Nat) : Fits.Statement (.keyretire x0 x1) := fits_event _ rfl rfl
theorem Fits.rootadd (x0 x1 x2 x3 : Nat) : Fits.Statement (.rootadd x0 x1 x2 x3) := fits_event _ rfl rfl
theorem Fits.rootrevoke (x0 x1 : Nat) : Fits.Statement (.rootrevoke x0 x1) := fits_event _ rfl rfl
theorem Fits.diereset (x0 x1 : Nat) : Fits.Statement (.diereset x0 x1) := fits_event _ rfl rfl
theorem Fits.status (x0 : Nat) : Fits.Statement (.status x0) := fits_event _ rfl rfl
theorem Fits.dieKeyAck (x0 : Nat) : Fits.Statement (.dieKeyAck x0) := fits_event _ rfl rfl
theorem Fits.powerUp : Fits.Statement .powerUp := fits_event _ rfl rfl
theorem Fits.powerOff : Fits.Statement .powerOff := fits_event _ rfl rfl
theorem Fits.measurementReply (x0 x1 : Nat) : Fits.Statement (.measurementReply x0 x1) := fits_event _ rfl rfl
theorem Fits.measurementTimeout (x0 : Nat) : Fits.Statement (.measurementTimeout x0) := fits_event _ rfl rfl
theorem Fits.controlLogicFault (x0 : Nat) : Fits.Statement (.controlLogicFault x0) := fits_event _ rfl rfl
theorem Fits.dieResetComplete (x0 : Nat) : Fits.Statement (.dieResetComplete x0) := fits_event _ rfl rfl
theorem Fits.ppsEdge (x0 : Nat) : Fits.Statement (.ppsEdge x0) := fits_event _ rfl rfl
theorem Fits.ppsMiss : Fits.Statement .ppsMiss := fits_event _ rfl rfl
theorem Fits.ptcSlew : Fits.Statement .ptcSlew := fits_event _ rfl rfl
theorem Fits.ptcadjWrite (x0 : Nat) : Fits.Statement (.ptcadjWrite x0) := fits_event _ rfl rfl
theorem Fits.ptcstepWrite (x0 : Nat) : Fits.Statement (.ptcstepWrite x0) := fits_event _ rfl rfl
theorem Fits.ptcrateWrite (x0 : Nat) : Fits.Statement (.ptcrateWrite x0) := fits_event _ rfl rfl
theorem Fits.ptccfgWrite (x0 : Nat) : Fits.Statement (.ptccfgWrite x0) := fits_event _ rfl rfl
theorem Fits.pwrcapWrite (x0 : Nat) : Fits.Statement (.pwrcapWrite x0) := fits_event _ rfl rfl
theorem Fits.dvfsPointChange (x0 x1 x2 : Nat) : Fits.Statement (.dvfsPointChange x0 x1 x2) := fits_event _ rfl rfl
theorem Fits.arrayPowerDown (x0 : Nat) : Fits.Statement (.arrayPowerDown x0) := fits_event _ rfl rfl
theorem Fits.arrayWakeWave (x0 x1 : Nat) : Fits.Statement (.arrayWakeWave x0 x1) := fits_event _ rfl rfl
theorem Fits.errorRegisterWrite (x0 x1 : Nat) : Fits.Statement (.errorRegisterWrite x0 x1) := fits_event _ rfl rfl
theorem Fits.stailWrite (x0 x1 : Nat) : Fits.Statement (.stailWrite x0 x1) := fits_event _ rfl rfl
theorem Fits.sendDescriptor (x0 : Nat) : Fits.Statement (.sendDescriptor x0) := fits_event _ rfl rfl
theorem Fits.unassignedOpcode : Fits.Statement .unassignedOpcode := fits_event _ rfl rfl
theorem Fits.copyPageFault (x0 x1 : Nat) : Fits.Statement (.copyPageFault x0 x1) := fits_event _ rfl rfl
theorem Fits.writeForward (x0 x1 x2 : Nat) : Fits.Statement (.writeForward x0 x1 x2) := fits_event _ rfl rfl
theorem Fits.scheduledRekey (x0 x1 : Nat) : Fits.Statement (.scheduledRekey x0 x1) := fits_event _ rfl rfl

end

end Sys2Proof.Laws
end

