-- ==== Sys2Proof/Tests/Slice0.lean ====
section
/-! SUPPORT. Tests: ill-formed terms that are refused, a word of every instruction that is decoded, one-step tests on small states, and, for each
statement of Certificates/Slice0/Obligations.lean with hypotheses, a concrete state and operands that meet them (`witness_…`). Expected values are
worked out by hand from the rules named. -/

namespace Sys2Proof.Tests
open Sys2Proof Sys2Proof.Machine

section
set_option Elab.async false

/-- One term for each check of `wellFormed` on instructions of the CE that fails it. -/
def illCe : List Instr :=
  [.add 64 0 0, .add 0 64 0, .add 0 0 64, .bext 0 0 0 64, .addi 0 0 8192, .shli 0 0 64, .ldi 64 0, .ldi 0 8192, .ldiw 0 4294967296,
   .ldih 0 64 0, .lds 0 0 7 0, .lds 0 0 0 1024, .sts 0 0 4 0, .lda 0 0 7 0, .stl 0 0 4 0, .cflush 64 0, .b 524288, .bc 0 0 6 0, .bc 0 0 0 1024,
   .bz 0 6 0, .call 64 0, .call 0 524288, .loop 8 0 0, .loop 0 64 0, .loopx 0 0 8192, .lcrd 0 8, .stage 8, .stageSet 64 0, .rotb 0 16, .tkwait 64,
   .tkset 0 64, .mbrd 0 8, .mbwr 64 0, .binit 0 256, .barv 256, .csrrd 0 4096, .csrwr 64 0, .trap 256, .brk 8192, .ctxsave 0 0 2,
   .ctxload 0 64 0, .atadd 0 0 0 5, .atcas 0 0 0 0 64, .atincnz 0 0 1, .atdec 0 0 4, .tlbinvAll 64]

/-- As `illCe`, for the VE. -/
def illVe : List Instr :=
  [.vadd 32 0 0 0 0 0, .vadd 0 32 0 0 0 0, .vadd 0 0 32 0 0 0, .vadd 0 0 0 8 0 0, .vadd 0 0 0 0 8 0, .vadd 0 0 0 0 0 16, .vadd 0 1 0 1 0 0,
   .vadd 0 0 1 0 1 0, .vfma 0 0 0 0 0 0 32 0, .vfma 0 0 0 0 0 0 0 8, .vfma 0 0 0 0 0 0 1 1, .vcmp 16 0 0 0 0 0 0, .vcmp 0 0 0 0 0 0 0,
   .vcmp 1 0 0 0 0 0 8, .vshape 32 0 0, .vshape 0 32 0, .vshape 0 0 18, .vbcastMailbox 0 8 0, .vbcastElem 0 0 32 0 0, .viota 0 3 0,
   .vld 0 8 0 0 0 0 0, .vld 0 0 0 2 0 0 0, .vld 0 0 0 0 1 0 0, .vld 0 0 1 0 0 0 0, .vst 0 0 0 0 0 64 0, .vldr 0 16 0, .vstr 0 0 16,
   .vmskCopy 0 0, .vmskNz 16 0 0 0, .vmskCols 1 32 0, .vmskAnd 1 16 0, .vmcnt 16 0, .vtox 0 32 0 0, .vreds 0 0 2 0 0, .vscans 0 0 2 0 0 0,
   .vkey 0 0 2 0 0, .vhist 0 0 0 0 4 0 0, .vcomp 0 0 0 2 0 0, .vcvt 0 0 2 0 0 0 0 0 0 0, .vcvt 0 0 0 0 0 18 0 0 0 0, .vcvt 0 0 0 0 0 0 18 0 0 0,
   .vpack 0 0 0 0 0 0 2 0 0, .vpack 0 0 0 0 0 0 0 1 0, .vqnt 0 0 0 0 0 0 0 0 0 0 256]

/-- As `illCe`, for the other engines. -/
def illRest : List Instr :=
  [.mm 16 0 0 0 0 0 0 0 0 0, .mm 0 0 3 0 0 0 0 0 0 0, .mm 0 0 0 2 0 0 0 0 0 0, .mm 0 0 0 0 18 0 0 0 0 0, .mm 0 0 0 1 0 1 0 0 0 0,
   .mm 0 0 0 0 0 0 512 0 0 0, .mm 0 0 0 0 0 0 0 1024 0 0, .mm 0 0 0 0 0 0 0 0 8192 0, .mm 0 0 0 0 0 0 0 0 0 16384, .mmc 0 0 0 0 0 0 0 0 0 0 3 0, .mmc 0 0 0 0 0 0 0 0 0 0 0 4,
   .aczero 3 0 0 0, .aczero 0 0 128 0, .aczero 0 0 0 256, .acdrain 0 18 0 0 0 0, .acsmx 0 0 16 0 0 0, .acmov 0 0 3 0 0 0, .scdr 0 1 0 0 0 0 0 0,
   .scdc 0 0 2 0 0 0 0 0, .scgk 0 0 0 0 64 0 0 0, .scch 0 0 0 0 0 256 0 0, .scout 0 0 0 0 4096, .scmode 4, .scmode 320, .krin 64 0 0, .kwait 0 64,
   .xld 0 0 64, .xldr 0 0 16, .xcpy 0 0 0 2 0, .xmsgrx 0 8, .xstrel 64 0, .ctri 0 0 2 0 0 0, .ctri 0 0 0 0 65536 0, .ctri 0 0 0 0 0 16,
   .chist 0 0 0 0 0 0 0 0 0, .chist 0 0 0 0 0 11 0 0 1, .chist 0 0 0 0 0 10 0 1 0, .cmaxi 0 0 0 0 1 0 0, .csum 0 0 0 0 0 6 0, .cbcast 0 0 0 0 8,
   .cwait 0 8]

theorem test_wellFormed_refuses : (illCe ++ illVe ++ illRest).all (fun i => !wellFormed i) = true := by decide +kernel

/-- Terms at the upper limits of their fields. -/
def wellEdge : List Instr :=
  [.add 63 63 63, .bins 63 63 63 63, .addi 63 63 8191, .sari 63 63 63, .ldiw 63 4294967295, .lds 63 63 6 1023, .sts 63 63 3 1023, .b 524287,
   .bc 63 63 5 1023, .loopx 7 63 8191, .rotb 63 15, .atcas 63 63 63 4 63, .atincnz 63 63 3, .ctxload 63 63 1, .vadd 31 31 0 0 7 15,
   .vfma 31 0 31 7 0 15 0 7, .vcmp 15 31 31 0 0 15 7, .vshape 31 31 17, .viota 31 2 15, .vld 31 7 7 1 7 63 15, .vmskRows 15 31 15,
   .vqnt 31 31 31 0 0 15 17 17 1 7 255, .mmc 15 15 2 0 17 17 511 1023 8191 16383 2 3, .acsmx 15 17 15 16383 127 255, .scdr 15 15 1 1 63 255 4095 63,
   .scmode 259, .kstatCask 63 63, .xstRing 63 63 15, .chist 63 63 63 1 7 9 65535 1 3, .chist 0 0 0 0 0 10 0 0 1, .csum 0 0 0 1 7 5 65535, .cwait 63 7]

theorem test_wellFormed_accepts : wellEdge.all wellFormed = true := by decide +kernel

/-- A word of each instruction, put together from the fields of 03 R75 to R78 and the codes of R84 to R87. -/
def wordsCe1 : List (Eng × List Lane × Instr) :=
  [(.ce, [0x00000000], .nop), (.ce, [0x03433B00], .add 40 25 54), (.ce, [0x055B9C80], .sub 43 28 57), (.ce, [0x0773FE00], .and 46 31 60),
   (.ce, [0x098C5F80], .or 49 34 63), (.ce, [0x0BA4A100], .xor 52 37 2), (.ce, [0x0DBD0280], .shl 55 40 5), (.ce, [0x0FD56400], .shr 58 43 8),
   (.ce, [0x11EDC580], .sar 61 46 11), (.ce, [0x12062700], .mul 0 49 14), (.ce, [0x141E8880], .mulh 3 52 17), (.ce, [0x1636EA00], .mulhn 6 55 20),
   (.ce, [0x184F4B80], .div 9 58 23), (.ce, [0x1A67AD00], .divn 12 61 26), (.ce, [0x1C780E80], .rem 15 0 29), (.ce, [0x1E907000], .remn 18 3 32),
   (.ce, [0x20A8D180], .min 21 6 35), (.ce, [0x22C13300], .max 24 9 38), (.ce, [0x24D99480], .minn 27 12 41), (.ce, [0x26F1F600], .maxn 30 15 44),
   (.ce, [0x290A5780], .slt 33 18 47), (.ce, [0x2B22B900], .sltn 36 21 50), (.ce, [0x2D3B1A80], .seq 39 24 53), (.ce, [0x2F536000], .clz 42 27),
   (.ce, [0x316BC000], .popc 45 30), (.ce, [0x33843F37], .bext 48 33 62 55), (.ce, [0x359C80BA], .bins 51 36 1 58), (.ce, [0x37B4E000], .brev 54 39),
   (.ce, [0x41CD4087], .addi 57 42 135), (.ce, [0x43E5A08A], .andi 60 45 138), (.ce, [0x45FE008D], .ori 63 48 141),
   (.ce, [0x46166090], .xori 2 51 144), (.ce, [0x482EC013], .shli 5 54 19), (.ce, [0x4A472016], .shri 8 57 22), (.ce, [0x4C5F8019], .sari 11 60 25),
   (.ce, [0x4E77E09C], .slti 14 63 156), (.ce, [0x50880082], .ldi 17 130), (.ce, [0x52480000, 0x89ABCDEF], .ldiw 9 2309737967),
   (.ce, [0x544C2000, 0x89ABCDEF], .ldih 9 33 2309737967), (.ce, [0x56D160A8], .muli 26 11 168), (.ce, [0x60E9CCA4], .lds 29 14 3 164),
   (.ce, [0x630228A7], .sts 32 17 2 167), (.ce, [0x651A84AA], .lda 35 20 1 170), (.ce, [0x6732E0AD], .stl 38 23 0 173), (.ce, [0x68000000], .fence),
   (.ce, [0x68000001], .fenceAcq), (.ce, [0x68000002], .fenceRel), (.ce, [0x6A0640A3], .cflush 50 163), (.ce, [0x800000B5], .b 181),
   (.ce, [0x83C520BF], .bc 56 41 0 191), (.ce, [0x85D810C9], .bz 59 4 201), (.ce, [0x87F000AF], .call 62 175), (.ce, [0x88002000], .ret 1),
   (.ce, [0x8A008000], .jr 4), (.ce, [0x91F800D5], .loop 7 56 213), (.ce, [0x92BB00D8], .loopx 2 59 216)]

theorem test_decode_wordsCe1 : (wordsCe1.all (fun r => decide (decode? r.1 r.2.1 = some r.2.2) && encode r.2.2 == r.2.1)) = true := by decide +kernel

/-- A word of each instruction, put together from the fields of 03 R75 to R78 and the codes of R84 to R87. -/
def wordsCe2 : List (Eng × List Lane × Instr) :=
  [(.ce, [0x94680006], .lcrd 13 6), (.ce, [0x94800009], .lcrdTrips 16 1), (.ce, [0x96000003], .stage 3), (.ce, [0x9602C00F], .stageSet 22 7),
   (.ce, [0x9803200A], .rotb 25 10), (.ce, [0xA000001C], .tkwait 28), (.ce, [0xA200001F], .tkpost 31), (.ce, [0xA4044013], .tkset 34 19),
   (.ce, [0xA7280016], .tkrd 37 22), (.ce, [0xA9400001], .mbrd 40 1), (.ce, [0xAA056004], .mbwr 43 4), (.ce, [0xB005C0DF], .binit 46 223),
   (.ce, [0xB20000F1], .barv 241), (.ce, [0xB5A000E5], .bwait 52 229), (.ce, [0xB60000F7], .bdrop 247), (.ce, [0xB80000FA], .binval 250),
   (.ce, [0xBA07A0EE], .btime 61 238), (.ce, [0xC00000F1], .csrrd 0 241), (.ce, [0xC20060F4], .csrwr 3 244), (.ce, [0xC4300000], .ptcrd 6),
   (.ce, [0xC6000009], .trap 9), (.ce, [0xC8000000], .tret), (.ce, [0xCA000000], .yield), (.ce, [0xCC000000], .endK), (.ce, [0xCE000000], .halt),
   (.ce, [0xD0030480], .evpost 24 9), (.ce, [0xD200011B], .brk 283), (.ce, [0xD4F1E000], .ctxsave 30 15 0),
   (.ce, [0xD50A4003], .ctxsavePark 33 18 1), (.ce, [0xD722A000], .ctxload 36 21 0), (.ce, [0xD73B0003], .ctxloadUnpark 39 24 1),
   (.ce, [0xD9537C00], .ctxmap 42 27 56), (.ce, [0xDB6BC000], .preempt 45 30), (.ce, [0xDB842001], .preemptY 48 33),
   (.ce, [0xDD9C8000], .resume 51 36), (.ce, [0xDDB4E201], .resumeM 54 39 4), (.ce, [0xDDCD4382], .resumeSkip 57 42 7),
   (.ce, [0xDDE5A503], .resumeEnd 60 45 10), (.ce, [0xE1FE0681], .atadd 63 48 13 1), (.ce, [0xE2166801], .atmax 2 51 16 1),
   (.ce, [0xE42EC984], .atmin 5 54 19 4), (.ce, [0xE6472B02], .atxchg 8 57 22 2), (.ce, [0xE84C2883, 0xF8000000], .atcas 9 33 17 3 62),
   (.ce, [0xEA77E003], .atincnz 14 63 3), (.ce, [0xEC884003], .atdec 17 2 3), (.ce, [0xF0A0B100], .pgpin 20 5 34),
   (.ce, [0xF2B91280], .pgunpin 23 8 37), (.ce, [0xF2D17401], .pgunpinEv 26 11 40), (.ce, [0xF4E9D580], .slabfwSt 29 14 43),
   (.ce, [0xF5023701], .slabfwMw 32 17 46), (.ce, [0xF51A8002], .slabfwEnd 35 20), (.ce, [0xF732FA00], .tlbinvVa 38 23 52),
   (.ce, [0xF7480D01], .tlbinvCtx 41 26), (.ce, [0xF763BD02], .tlbinvSlab 44 29 58), (.ce, [0xF7780003], .tlbinvAll 47)]

theorem test_decode_wordsCe2 : (wordsCe2.all (fun r => decide (decode? r.1 r.2.1 = some r.2.2) && encode r.2.2 == r.2.1)) = true := by decide +kernel

/-- A word of each instruction, put together from the fields of 03 R75 to R78 and the codes of R84 to R87. -/
def wordsVe1 : List (Eng × List Lane × Instr) :=
  [(.ve, [0x03218007], .vadd 18 3 0 0 0 7), (.ve, [0x05530C0A], .vsub 21 6 3 0 0 10), (.ve, [0x0784980D], .vmul 24 9 6 0 0 13),
   (.ve, [0x09550079, 0xF0000000], .vfma 21 10 0 0 7 9 30 0), (.ve, [0x0B550079, 0xF0000000], .vfms 21 10 0 0 7 9 30 0),
   (.ve, [0x0D550079, 0xF0000000], .vfnma 21 10 0 0 7 9 30 0), (.ve, [0x0E4AC809], .vmin 4 21 18 0 0 9), (.ve, [0x107C540C], .vmax 7 24 21 0 0 12),
   (.ve, [0x12AD8001], .vabs 10 27 0 1), (.ve, [0x14DF0004], .vneg 13 30 0 4), (.ve, [0x16B04689, 0x00000007], .vcmp 11 0 17 5 0 9 7),
   (.ve, [0x19320408], .vsel 19 4 1 0 0 8), (.ve, [0x1B550079, 0xF0000000], .vclamp 21 10 0 0 7 9 30 0), (.ve, [0x1D951C0E], .vand 25 10 7 0 0 14),
   (.ve, [0x1FC6A801], .vor 28 13 10 0 0 1), (.ve, [0x21F83404], .vxor 31 16 13 0 0 4), (.ve, [0x22298009], .vnot 2 19 0 9),
   (.ve, [0x245B4C0A], .vshl 5 22 19 0 0 10), (.ve, [0x268CD80D], .vshr 8 25 22 0 0 13), (.ve, [0x28BE6400], .vsar 11 28 25 0 0 0),
   (.ve, [0x2AEFF003], .vadds 14 31 28 0 0 3), (.ve, [0x2D117C06], .vsubs 17 2 31 0 0 6), (.ve, [0x2F428809], .vmulh 20 5 2 0 0 9),
   (.ve, [0x4174140C], .vcmul 23 8 5 0 0 12), (.ve, [0x43550079, 0xF0000000], .vcmac 21 10 0 0 7 9 30 0),
   (.ve, [0x45D72C02], .vcmulj 29 14 11 0 0 2), (.ve, [0x47550079, 0xF0000000], .vcmacj 21 10 0 0 7 9 30 0), (.ve, [0x483A000A], .vconj 3 20 0 10),
   (.ve, [0x4A6B800D], .vcabs2 6 23 0 13), (.ve, [0x609D1400], .vshape 9 26 5), (.ve, [0x62CE8003], .vmov 12 29 0 3),
   (.ve, [0x64F0000D], .vbcastMailbox 15 0 13), (.ve, [0x6521A00A], .vbcastElem 18 3 0 0 10), (.ve, [0x6553418D], .vbcastRow 21 6 3 0 13),
   (.ve, [0x6584E300], .vbcastCol 24 9 6 0 0), (.ve, [0x67B00009], .viota 27 0 9), (.ve, [0x69E78005], .vtrans 30 15 0 5),
   (.ve, [0x6A15E769], .vld 1 2 7 1 1 54 9), (.ve, [0x6C4AB39C], .vst 4 5 2 1 4 57 12)]

theorem test_decode_wordsVe1 : (wordsVe1.all (fun r => decide (decode? r.1 r.2.1 = some r.2.2) && encode r.2.2 == r.2.1)) = true := by decide +kernel

/-- A word of each instruction, put together from the fields of 03 R75 to R78 and the codes of R84 to R87. -/
def wordsVe2 : List (Eng × List Lane × Instr) :=
  [(.ve, [0x6E780005], .vldr 7 8 5), (.ve, [0x70AB0008], .vstr 10 11 8), (.ve, [0x72D0000E], .vmskCopy 13 14), (.ve, [0x72101001], .vmskNot 1 1),
   (.ve, [0x7232200A], .vmskNz 3 4 0 10), (.ve, [0x72603384], .vmskCols 6 7 4), (.ve, [0x72904507], .vmskRows 9 10 7),
   (.ve, [0x72C6D00A], .vmskAnd 12 13 10), (.ve, [0x72F0600D], .vmskOr 15 0 13), (.ve, [0x74010180], .vmcnt 2 3),
   (.ve, [0x7602D980], .vtox 5 22 3 0), (.ve, [0x808C800F], .vexp2 8 25 0 15), (.ve, [0x82BE0002], .vexp 11 28 0 2),
   (.ve, [0x84EF8005], .vlog2 14 31 0 5), (.ve, [0x87110008], .vln 17 2 0 8), (.ve, [0x8942800B], .vrcp 20 5 0 11),
   (.ve, [0x8B74000E], .vrsq 23 8 0 14), (.ve, [0x8DA58001], .vsqrt 26 11 0 1), (.ve, [0x8FD70004], .vsigm 29 14 0 4),
   (.ve, [0x90088007], .vsoftp 0 17 0 7), (.ve, [0x923A000A], .vtanh 3 20 0 10), (.ve, [0x946BD00B], .vdiv 6 23 20 0 0 11),
   (.ve, [0xA09D0081], .vreds 9 26 1 0 1), (.ve, [0xA2CE8004], .vredm 12 29 0 0 4), (.ve, [0xA2F00187], .vredmIdx 15 0 1 0 7),
   (.ve, [0xA521800A], .vredn 18 3 0 0 10), (.ve, [0xA553018D], .vrednIdx 21 6 1 0 13), (.ve, [0xA784808D], .vscans 24 9 0 1 0 13),
   (.ve, [0xA9B60083], .vkey 27 12 1 0 3), (.ve, [0xABE78B06], .vhist 30 15 0 5 2 0 6), (.ve, [0xB0193C06], .vpermb 1 18 15 0 0 6),
   (.ve, [0xB24AC809], .vbitg 4 21 18 0 0 9), (.ve, [0xB47C540C], .vbits 7 24 21 0 0 12), (.ve, [0xB6ADE00F], .vshuf 10 27 24 0 0 15),
   (.ve, [0xB8DF0102], .vcomp 13 30 1 0 0 2), (.ve, [0xBB008085], .vexpd 16 1 0 1 0 5),
   (.ve, [0xC1550089, 0x006A0EFD], .vcvt 21 10 1 0 9 13 8 1 6 253), (.ve, [0xC3500069, 0x006A0EFD], .vpack 21 0 6 9 13 8 1 6 253),
   (.ve, [0xC5500069, 0x006A0EFD], .vunpk 21 0 6 9 13 8 1 6 253), (.ve, [0xC7500069, 0x006A0EFD], .vsrnd 21 0 6 9 13 8 1 6 253),
   (.ve, [0xC9550039, 0x006A0EFD], .vqnt 21 10 0 0 3 9 13 8 1 6 253)]

theorem test_decode_wordsVe2 : (wordsVe2.all (fun r => decide (decode? r.1 r.2.1 = some r.2.2) && encode r.2.2 == r.2.1)) = true := by decide +kernel

/-- A word of each instruction, put together from the fields of 03 R75 to R78 and the codes of R84 to R87. -/
def wordsRest : List (Eng × List Lane × Instr) :=
  [(.me, [0x01ACA250, 0x96579F40, 0x9C3C0000], .mm 13 6 1 0 17 5 300 700 8000 9999),
   (.me, [0x03AD4000, 0x96579F40, 0x9C3E4000], .mmc 13 6 2 1 0 0 300 700 8000 9999 2 1),
   (.me, [0x05ACA250, 0x96579F40, 0x9C3C0000], .mmt 13 6 1 0 17 5 300 700 8000 9999), (.me, [0x10000200, 0x9C3F2640], .aczero 2 9999 100 200),
   (.me, [0x13B1E100, 0x9C3F2640], .acdrain 13 17 225 9999 100 200), (.me, [0x15A4B000, 0x9C3F2640], .acsmx 13 4 11 9999 100 200),
   (.me, [0x16000000, 0x9C3F2640], .acscale 9999 100 200), (.me, [0x18000000, 0x9C3F2640], .acnorm 9999 100 200),
   (.me, [0x1BA40100, 0x9C3F2640], .acmov 13 4 1 9999 100 200), (.se, [0x01ADD200, 0xC8BB8C80], .scdr 13 6 1 1 41 200 3000 50),
   (.se, [0x03ADD200, 0xC8BB8C80], .scdc 13 6 1 1 41 200 3000 50), (.se, [0x05ADD200, 0xC8BB8C80], .scgk 13 6 1 1 41 200 3000 50),
   (.se, [0x07ADD200, 0xC8BB8C80], .scch 13 6 1 1 41 200 3000 50), (.se, [0x080CD200, 0xC8BB8000], .scout 6 1 41 200 3000),
   (.se, [0x0A000083], .scmode 131), (.ke, [0x00780E80], .krin 15 0 29), (.ke, [0x02900180], .krout 18 3), (.ke, [0x04A8C000], .ksnap 21 6),
   (.ke, [0x06C13300], .kfork 24 9 38), (.ke, [0x08D80600], .krollC 27 12), (.ke, [0x08F1E001], .krollP 30 15),
   (.ke, [0x090A5782], .krollS 33 18 47), (.ke, [0x0B22B900], .kcommit 36 21 50), (.ke, [0x0D3B0000], .kattach 39 24),
   (.ke, [0x0F536000], .kdetach 42 27), (.ke, [0x11680F00], .kstatSlot 45 30), (.ke, [0x11842001], .kstatCask 48 33),
   (.ke, [0x13981200], .kwait 51 36), (.xl, [0x01B4E200], .xld 54 39 4), (.xl, [0x01CD4381], .xldAcq 57 42 7), (.xl, [0x0207968A], .xldr 60 45 10),
   (.xl, [0x05FE0680], .xgath 63 48 13), (.xl, [0x06166802], .xcpy 2 51 16 1 0), (.xl, [0x08000000], .xfenceXl), (.xl, [0x0A400001], .xmsgrx 8 1),
   (.xs, [0x005F8C80], .xst 11 60 25), (.xs, [0x0001DF9C], .xstRing 14 63 12), (.xs, [0x02884F80], .xsta 17 2 31),
   (.xs, [0x04A0B100], .xscat 20 5 34), (.xs, [0x06B91280], .xhring 23 8 37), (.xs, [0x08000000], .xfenceXs),
   (.xs, [0x0AE9D584], .xmsgtx 29 14 43 4), (.xs, [0x0D022000], .xstrel 32 17), (.xs, [0x204C200D, 0x07530058], .ctri 9 33 1 5 60000 11),
   (.xs, [0x224C288D, 0x4F530038], .chist 9 33 17 1 5 9 60000 1 3), (.xs, [0x244C200D, 0x2F530008], .cmaxi 9 33 1 5 5 60000 1),
   (.xs, [0x264C288D, 0x27530000], .csum 9 33 17 1 5 4 60000), (.xs, [0x284C2005, 0x07530030], .cbcast 9 33 5 60000 6),
   (.xs, [0x2B900003], .cwait 50 3)]

theorem test_decode_wordsRest : (wordsRest.all (fun r => decide (decode? r.1 r.2.1 = some r.2.2) && encode r.2.2 == r.2.1)) = true := by decide +kernel

/-- Refusals of decoding, by name (03 R83, R88): an unassigned code of each engine; a lane too few and one too many; a reserved bit, a reserved value. -/
theorem test_decode_refuses :
    ([(.ce, [0x38000000]), (.ve, [0]), (.me, [0x06000000]), (.se, [0x0C000000]), (.ke, [0x14000000]), (.xl, [0x0C000000]), (.xs, [0x0E000000])] :
      List (Eng × List Lane)).all (fun p => match decode p.1 p.2 with | .error e => decide (e = .illegalOp) | _ => false) = true ∧
    ([(.ce, [0x52000000]), (.ce, [0x02104200, 0]), (.me, [0, 0]), (.se, [0]), (.xs, [0x20000000])] :
      List (Eng × List Lane)).all (fun p => match decode p.1 p.2 with | .error e => decide (e = .illegalLane) | _ => false) = true ∧
    ([(.ce, [0x02104201]), (.ce, [0x60201C00]), (.ce, [0x82001800]), (.ve, [0x02008080]), (.ve, [0x60004800]), (.se, [0x0A000004]), (.me, [0x00018000, 0, 0]),
      (.ke, [0x00000001]), (.xl, [0x08000001])] :
      List (Eng × List Lane)).all (fun p => match decode p.1 p.2 with | .error e => decide (e = .reservedField) | _ => false) = true := by
  decide +kernel

/-- The bits as the opcode table numbers them: the first lane in the low bits. -/
theorem test_decodeTableWord :
    decodeTableWord 32 0x50100000 = some (.ldi 2 0) ∧ decodeTableWord 64 0xFFFFFFFF52100000 = some (.ldiw 2 4294967295) ∧
    decodeTableWord 32 0x6A000000 = some (.cflush 0 0) := by decide +kernel

/-- The state in an outcome, for looking at one of its fields; the empty state where there is none. -/
def after (o : Out) : State := match o with | .next s => s | _ => {}

/-- Whether an outcome is a next state. -/
def goesOn (o : Out) : Bool := match o with | .next _ => true | _ => false

/-- A member `m` runs on core 0 in the RUNNING context 0; entry `e` of engine `g` is being executed. -/
def onCore (m : Member) (g : Eng := .ce) (e : Entry := {}) : State :=
  { ((State.reset.placeGroup 0).modCore 0 (fun y => { y with status := .running, seat := { y.seat with present := true, mem := m } })) with
    cur := { core := 0, eng := g, ent := e } }

/-- As `onCore`, on the sequencer of die 0, in the supervisor context 1. -/
def onSeq (m : Member) (e : Entry := {}) : State :=
  { ((State.reset.placeGroup 1).modCore 512 (fun y => { y with status := .running, ctx := 1, seat := { y.seat with present := true, mem := m } })) with
    cur := { core := 512, eng := .ce, ent := e } }

/-- `s` with instruction `i` of engine `g` at the head of its stream on the core named by `s.cur`, whose turn is next. -/
def queued (s : State) (g : Eng) (i : Instr) : State :=
  { s.modCm (fun m => m.setQ (engCode g) [{ lanes := encode i }]) with agenda := [{ act := .issue s.cur.core g }], cur := {} }

/-- The state after one step that issues `i` on core 0. -/
def ran (m : Member) (g : Eng) (i : Instr) : State := after (step (queued (onCore m g) g i))

/-- The state after one step that issues `i` on the core that `s.cur` names. -/
def ranIn (s : State) (g : Eng) (i : Instr) : State := after (step (queued s g i))

/-- The causes of the traps of core 0's engines. -/
def causes (s : State) (c : Nat) : List Nat := (s.mem c).stuck.map (fun p => p.2.cause)

/-- Scalar registers from s1 on. -/
def sregs (l : List Word) : Member := { s := ((List.range l.length).map (· + 1)).zip l }

/-- Context 0 (under key 7) has the gibibyte of device addresses from 0 on at HBM address 0x40000000, readable, writable and executable, of SYSTEM
scope, through the tables at 0x1000, 0x2000 and 0x3000. -/
def mapped (s : State) : State :=
  { s with
    hbm := [(0x1000, 0x01), (0x1001, 0x20), (0x2000, 0x01), (0x2001, 0x30), (0x3000, 0xF3), (0x3001, 0x01), (0x3003, 0x40), (0x3006, 0x10)]
    hbmKey := [(0x100, 4), (0x200, 4), (0x300, 4)]
    tri := { s.tri with keys := [(0, { val := 4, ctx := 256, dies := 255 }), (1, { val := 7, ctx := 0, dies := 255 })] }
    ctxs := tset s.ctxs 0 { s.ctx 0 with root := 0x1000 } }

/-- As `mapped`, for the supervisor, under the name that its key has at reset. -/
def mappedSup (s : State) : State :=
  { s with
    hbm := [(0x1000, 0x01), (0x1001, 0x20), (0x2000, 0x01), (0x2001, 0x30), (0x3000, 0xF3), (0x3001, 0x01), (0x3003, 0x40)]
    hbmKey := [(0x100, 4), (0x200, 4), (0x300, 4)]
    ctxs := tset s.ctxs 1 { s.ctx 1 with root := 0x1000 } }

-- One step each, on a small state.

theorem test_add_wraps : ((ran (sregs [0xFFFFFFFFFFFFFFFF, 2]) .ce (.add 3 1 2)).mem 0).rs 3 = 1 := by decide +kernel
theorem test_add_to_s0_is_discarded : ((ran (sregs [5, 2]) .ce (.add 0 1 2)).mem 0).s = (sregs [5, 2]).s := by decide +kernel
theorem test_mulh_signed : ((ran (sregs [0xFFFFFFFFFFFFFFFF, 2]) .ce (.mulh 3 1 2)).mem 0).rs 3 = 0xFFFFFFFFFFFFFFFF := by decide +kernel
theorem test_mulhn_unsigned : ((ran (sregs [0xFFFFFFFFFFFFFFFF, 2]) .ce (.mulhn 3 1 2)).mem 0).rs 3 = 1 := by decide +kernel
theorem test_div_toward_zero : ((ran (sregs [0xFFFFFFFFFFFFFFF9, 2]) .ce (.div 1 1 2)).mem 0).rs 1 = 0xFFFFFFFFFFFFFFFD := by decide +kernel
theorem test_rem_takes_sign_of_dividend : ((ran (sregs [0xFFFFFFFFFFFFFFF9, 2]) .ce (.rem 1 1 2)).mem 0).rs 1 = 0xFFFFFFFFFFFFFFFF := by decide +kernel
theorem test_div_by_zero : ((ran (sregs [7]) .ce (.div 1 1 2)).mem 0).rs 1 = 0xFFFFFFFFFFFFFFFF := by decide +kernel
theorem test_sar_modulo_64 : ((ran (sregs [0x8000000000000000, 65]) .ce (.sar 3 1 2)).mem 0).rs 3 = 0xC000000000000000 := by decide +kernel
theorem test_clz_of_zero : ((ran {} .ce (.clz 1 2)).mem 0).rs 1 = 64 := by decide +kernel
theorem test_brev : ((ran (sregs [1]) .ce (.brev 1 1)).mem 0).rs 1 = 0x8000000000000000 := by decide +kernel
theorem test_bext : ((ran (sregs [0xABCD, 4]) .ce (.bext 3 1 2 7)).mem 0).rs 3 = 0xBC := by decide +kernel
theorem test_bins_cut_at_63 : ((ran (sregs [0xFF, 60, 0]) .ce (.bins 3 1 2 7)).mem 0).rs 3 = 0xF000000000000000 := by decide +kernel
theorem test_addi_negative : ((ran (sregs [5]) .ce (.addi 1 1 0x1FFF)).mem 0).rs 1 = 4 := by decide +kernel
theorem test_ldih : ((ran (sregs [0x1111222233334444]) .ce (.ldih 1 1 0x89ABCDEF)).mem 0).rs 1 = 0x89ABCDEF33334444 := by decide +kernel
theorem test_ldiw_sign_extends : ((ran {} .ce (.ldiw 1 0x80000000)).mem 0).rs 1 = 0xFFFFFFFF80000000 := by decide +kernel

/-- A store and a load of the mapped gibibyte, through the L1 (05 R123); and the traps of R123. -/
theorem test_sts_writes_the_line :
    let s := ranIn (mapped (onCore (sregs [0x1000, 0x1122334455667788]))) .ce (.sts 2 1 2 1)
    (s.seenByte 0 { tgt := 0, pa := 0x40001004, key := 7, scope := 3 }, s.seenByte 0 { tgt := 0, pa := 0x40001007, key := 7, scope := 3 }) = (0x88, 0x55) := by
  decide +kernel
theorem test_lds_misaligned : causes (ranIn (mapped (onCore (sregs [0x1001]))) .ce (.lds 2 1 1 0)) 0 = [0x13] := by decide +kernel
theorem test_lds_beyond_2_56 : causes (ranIn (mapped (onCore (sregs [0x100000000000000]))) .ce (.lds 2 1 1 0)) 0 = [0x10] := by decide +kernel
theorem test_lds_unmapped : causes (ranIn (mapped (onCore (sregs [0x40000000]))) .ce (.lds 2 1 1 0)) 0 = [0x20] := by decide +kernel

/-- Tokens (03 R70, R71; 05 R141): TKSET above 63 traps TOKEN_RANGE, TKPOST at 63 is held. -/
theorem test_tkset_range : causes (ran (sregs [64]) .ce (.tkset 1 3)) 0 = [0x15] := by decide +kernel
theorem test_tkset : (((ran (sregs [63]) .ce (.tkset 1 3)).mem 0).tok 3, causes (ran (sregs [63]) .ce (.tkset 1 3)) 0) = (63, []) := by decide +kernel
theorem test_tkpost_held : ((ran { k := [(3, 63)] } .ce (.tkpost 3)).mem 0).held = [(1, [3])] := by decide +kernel
theorem test_tkwait_not_covered : (((ran {} .ce (.tkwait 3)).mem 0).q 1).length = 1 := by decide +kernel
theorem test_tkwait_takes : ((ran { k := [(3, 2)] } .ce (.tkwait 3)).mem 0).tok 3 = 1 := by decide +kernel

/-- System registers (05 R143, R144): privilege, a read-only register, write of SCMODE with a reserved bit. -/
theorem test_csrrd_privileged : causes (ran {} .ce (.csrrd 1 0x120)) 0 = [0x04] := by decide +kernel
theorem test_csrrd_pwrcap : ((ranIn (onSeq {}) .ce (.csrrd 1 0x120)).mem 512).rs 1 ≠ 0 := by decide +kernel
theorem test_csrwr_scmode_reserved : causes (ran (sregs [4]) .ce (.csrwr 1 0x011)) 0 = [0x03] := by decide +kernel
theorem test_privileged_on_a_member : causes (ran {} .ce (.tlbinvAll 1)) 0 = [0x04] := by decide +kernel
theorem test_trap_software : causes (ran {} .ce (.trap 7)) 0 = [0x90] := by decide +kernel

/-- VADD on a shape of one FP32 element (07 R173, R176): 1 + 2 = 3, the rest of the tile as it was; and an overflow under EN.O traps. -/
theorem test_vadd_f32 :
    ((ran { vshape := 0, tiles := [(32, 0x3F800000), (64, 0x40000000), (96, 0xAAAAAAAA00000000)] } .ve (.vadd 3 1 2 0 0 0)).mem 0).tiles
      = [(32, 0x3F800000), (64, 0x40000000), (96, 0xAAAAAAAA40400000)] := by decide +kernel
theorem test_vadd_int_wraps :
    ((ran { vshape := 0x1400, tiles := [(32, 0xFFFFFFFF), (64, 2)] } .ve (.vadd 3 1 2 0 0 0)).mem 0).tiles = [(32, 0xFFFFFFFF), (64, 2), (96, 1)] := by
  decide +kernel
theorem test_vadds_saturates :
    ((ran { vshape := 0x1C00, tiles := [(32, 0x7F), (64, 1)] } .ve (.vadds 3 1 2 0 0 0)).mem 0).fpmode = 0x2000 := by decide +kernel
theorem test_vadds_type : causes (ran { vshape := 0 } .ve (.vadds 3 1 2 0 0 0)) 0 = [0x40] := by decide +kernel
theorem test_vcmp_mask : ((ran { vshape := 0, tiles := [(32, 0x3F800000), (64, 0x40000000)] } .ve (.vcmp 4 1 2 0 0 0 2)).mem 0).masks = [(4, 1)] := by
  decide +kernel
theorem test_vmul_inf_by_zero :
    (((ran { vshape := 0, tiles := [(32, 0x7F800000)] } .ve (.vmul 3 1 2 0 0 0)).mem 0).fpmode,
      tgetD ((ran { vshape := 0, tiles := [(32, 0x7F800000)] } .ve (.vmul 3 1 2 0 0 0)).mem 0).tiles 96 0) = (0x100, 0x7FC00000) := by decide +kernel
theorem test_vshape_complex_odd : causes (ran {} .ve (.vshape 0 0 13)) 0 = [0x41] := by decide +kernel
theorem test_vrcp_of_zero : ((ran { vshape := 0 } .ve (.vrcp 3 1 0 0)).mem 0).fpmode = 0x200 := by decide +kernel
theorem test_vreds_row : tgetD ((ran { vshape := 0x9400, tiles := [(32, 0x0000000700000005)] } .ve (.vreds 3 1 0 0 0)).mem 0).tiles 96 0 = 12 := by
  decide +kernel
theorem test_vcvt_f32_to_bf16_ties_to_even :
    tgetD ((ran { vshape := 0, tiles := [(32, 0x3F818000)] } .ve (.vcvt 3 1 0 0 0 0 1 0 0 0)).mem 0).tiles 96 0 = 0x3F82 := by decide +kernel
theorem test_vmcnt : tgetD ((ran { vshape := 0xB8000, masks := [(2, 0x7)] } .ve (.vmcnt 2 5)).mem 0).x 5 0 = 3 := by decide +kernel

/-- The other engines: ACZERO fills with -infinity (10 R257), a bad MM type, SCMODE, a slot that is EMPTY, a bad descriptor, an unbound ring, a fence. -/
theorem test_aczero : (ran {} .me (.aczero 1 0 0 0)).accNat 0 0 4 = 0xFF800000 := by decide +kernel
theorem test_mm_complex_type : causes (ran {} .me (.mm 0 1 0 0 13 13 0 0 0 0)) 0 = [0x60] := by decide +kernel
theorem test_scmode : ((ran {} .se (.scmode 259)).mem 0).scmode = 259 := by decide +kernel
theorem test_scdr_empty_slot : causes (ran {} .se (.scdr 0 0 0 0 0 0 0 0)) 0 = [0x71] := by decide +kernel
theorem test_kstat_of_an_empty_slot : ((ran (sregs [9]) .ke (.kstatSlot 1 2)).mem 0).rs 1 = 0 := by decide +kernel
theorem test_krin_without_a_layout : causes (ran {} .ke (.krin 1 2 3)) 0 = [0x70] := by decide +kernel
theorem test_xld_descriptor : causes (ran (sregs [0, 0, 0x8000000000000000]) .xl (.xld 1 2 3)) 0 = [0x52] := by decide +kernel
theorem test_xstRing_unbound : causes (ran (sregs [0, 64]) .xs (.xstRing 1 2 3)) 0 = [0x50] := by decide +kernel
theorem test_xfence_completes : ((ran {} .xs .xfenceXs).mem 0).q 6 = [] := by decide +kernel
theorem test_cwait_completes : ((ran {} .xs (.cwait 1 0)).mem 0).q 6 = [] := by decide +kernel

/-- Every Bool of a list. -/
def holds (l : List Bool) : Bool := l.all id

/-- What a translation (or another answer with a state) gives. -/
def okOf {ε α : Type} (r : Except ε α × State) : Option α := match r.1 with | .ok l => some l | .error _ => none

/-- The cause of the trap that it gives; 0 for none. -/
def causeOf {α : Type} (r : Except Trap α × State) : Nat := match r.1 with | .ok _ => 0 | .error t => t.cause

/-- Core 0 with a text of 4 lines of which line 2 alone is a line of CLASS 1. -/
def withText (m : Member) (e : Entry := {}) : State :=
  (onCore { m with kern := { m.kern with textn := 4, image := 0x10000 } } .ce e).modCore 0 (fun x => { x with lines := [(2, [1])] })

/-- A sequencer with context 0, which has cores on die 0, in a given state; s1 = 0 names it, s2 = 300 names none. -/
def seqFor (f : Ctx → Ctx) (m : Member := sregs [0, 300]) (e : Entry := {}) : State := (onSeq m e).modCtx 0 f

/-- Core 0's scratch page 0 is PINNED. -/
def pinned0 (s : State) : State := s.modCore 0 (fun y => { y with pages := [(0, { ctx := 0, page := 0, state := .pinned })] })

/-- The `n` sectors of HBM from `pa` on are under key 7. -/
def keyed (s : State) (pa n : Nat) : State := { s with hbmKey := s.hbmKey ++ (List.range (4 * n)).map (fun i => (pa / 16 + i, 7)) }

-- Witnesses: for each statement with hypotheses, states and operands that meet them, clause by clause where a statement has several.

theorem witness_RoundTripControlEngine : engineOf (.bins 63 1 2 63) = some .ce ∧ wellFormed (.bins 63 1 2 63) = true := by decide +kernel
theorem witness_RoundTripVectorEngine : engineOf (.vcmp 15 31 0 0 7 15 7) = some .ve ∧ wellFormed (.vcmp 15 31 0 0 7 15 7) = true := by decide +kernel
theorem witness_RoundTripOtherEngines :
    engineOf (.mm 15 0 2 0 17 0 511 0 8191 16383) = some .me ∧ wellFormed (.mm 15 0 2 0 17 0 511 0 8191 16383) = true ∧
    engineOf (.scmode 259) = some .se ∧ wellFormed (.scmode 259) = true ∧ engineOf (.xld 63 0 1) = some .xl ∧ wellFormed (.xld 63 0 1) = true ∧
    engineOf (.cwait 63 7) = some .xs ∧ wellFormed (.cwait 63 7) = true ∧ engineOf (.kwait 63 0) = some .ke ∧ wellFormed (.kwait 63 0) = true := by
  decide +kernel

theorem witness_DecodeAcceptsOnlyEncodings :
    decode? .ce [0x02104200] = some (.add 2 2 4) ∧ opLanes .ce 0x1C = none ∧ opLanes .ce 0x29 = some 2 ∧ opLanes .ce 1 = some 1 ∧
    (match decode .ce [0x02104201] with | .error e => decide (e = .reservedField) | .ok _ => false) = true := by decide +kernel

/-- An instruction without waits, and one whose prefix waits for token 5, which stands at 1. -/
theorem witness_StepRunsTheDecodedInstruction :
    (let s := queued (onCore {}) .ce (.add 1 2 3)
     let e : Entry := { lanes := encode (.add 1 2 3) }
     let s1 := ({ s with agenda := [] } : State).open { act := .issue 0 .ce }
     s.agenda = [{ act := .issue 0 .ce }] ∧ s1.mayIssue 0 = true ∧ (s1.mem 0).headOf 1 = some e ∧ decode? .ce e.lanes = some (.add 1 2 3) ∧
     privileged .ce (opOf (e.lanes.headD 0).toNat) = false ∧ s1.hazard 0 1 e = false ∧ waitsOf e (.add 1 2 3) = [] ∧
     (s1.mem 0).covered (waitsOf e (.add 1 2 3)) = true ∧ has (s1.losers exec 0 (waitsOf e (.add 1 2 3))) 1 = false ∧ s1.ringTaken exec 0 1 = false) ∧
    (let e : Entry := { lanes := encode (.add 1 2 3), pfx := some 0x02000280 }
     let s1 := onCore { k := [(5, 1)], queues := [(1, [e]), (2, [{ lanes := encode (.vmov 1 2 0 0), pfx := some 0x02000280 }])] }
     (s1.mem 0).headOf 1 = some e ∧ waitsOf e (.add 1 2 3) = [5] ∧ (s1.mem 0).covered [5] = true ∧
     s1.losers exec 0 [5] = [2] ∧ s1.ringTaken exec 0 1 = false) := by decide +kernel

theorem witness_StepPerformsTheEvent :
    engineOf (.fetchLine 0) = none ∧
    (onCore { stuck := [(1, { cause := 0x90 })] }).drained exec 0 = true ∧
    (onCore { stuck := [(1, { cause := 0x90 })], queues := [(2, [{ lanes := encode (.vmov 1 2 0 0) }])] }).drained exec 0 = false := by
  decide +kernel

/-- A head for each of checks 1 to 4, one with a bad prefix, one that is squashed. -/
theorem witness_StepTrapsAndSquashes :
    (let h := fun (l : List Lane) => { onCore { queues := [(1, [{ lanes := l }])] } with agenda := [{ act := .issue 0 .ce }] }
     causes (after (step (h [0xFE000000]))) 0 = [0x01] ∧ causes (after (step (h [0x02104200, 0]))) 0 = [0x02] ∧
     causes (after (step (h [0xF6000000]))) 0 = [0x04] ∧ causes (after (step (h [0x02104201]))) 0 = [0x03]) ∧
    (let e : Entry := { lanes := [0], pfx := some 0x10000000 }
     causes (after (step { onCore { queues := [(1, [e])] } with agenda := [{ act := .issue 0 .ce }] })) 0 = [0x03]) ∧
    (let e : Entry := { lanes := [0x02104200], stamp := { pred := false } }
     let s := onCore { queues := [(1, [e])] }
     (s.mem 0).covered (prefixWaits e.pfx) = true ∧ has (s.losers exec 0 (prefixWaits e.pfx)) 1 = false ∧
     (after (step { s with agenda := [{ act := .issue 0 .ce }] })).mem 0 = { queues := [(1, [])] }) ∧
    (let e : Entry := { lanes := encode (.vmov 1 2 0 0), pfx := some 0x02000280, stamp := { pred := false } }
     let s := onCore { k := [(5, 1)], queues := [(1, [{ lanes := encode (.add 1 2 3), pfx := some 0x02000280 }]), (2, [e])] }
     (s.mem 0).covered (prefixWaits e.pfx) = true ∧ has (s.losers exec 0 (prefixWaits e.pfx)) 2 = true) := by decide +kernel

theorem witness_TokensCountAndPost :
    ({ k := [(3, 2)] } : Member).covered [3, 3] = true ∧ ({ k := [(3, 62)] } : Member).tok 3 < 63 ∧ 63 ≤ ({ k := [(3, 63)] } : Member).tok 3 ∧
    tgetD ((onCore { k := [(3, 62)], held := [(1, [3, 4])] }).mem 0).held 1 [] = [3, 4] ∧
    63 ≤ ((onCore { k := [(3, 63)], held := [(1, [3, 4])] }).mem 0).tok 3 := by decide +kernel

theorem witness_MemoryStaysCanonical :
    State.reset.memWf ∧ (queued (mapped (onCore {})) .ce (.add 1 2 3)).memWf ∧ goesOn (step (queued (mapped (onCore {})) .ce (.add 1 2 3))) = true := by
  unfold State.memWf
  decide +kernel

theorem witness_MemoryReadsBackWhatIsWritten :
    (mapped State.reset).memWf ∧ (1 : Nat) ≠ 0 ∧ (0x1010 + 0) / 16 ≠ (0x1000 + 15) / 16 ∧ tget (mapped State.reset).hbmKey 0x100 = some 4 ∧ (4 : Nat) ≠ 7 := by
  unfold State.memWf
  decide +kernel

theorem witness_AluThreeRegister :
    let s := onCore (sregs [0x8000000000000000, 0xFFFFFFFFFFFFFFFF])
    (s.rs 1).toInt = -2 ^ 63 ∧ (s.rs 2).toInt = -1 := by decide +kernel

theorem witness_AluImmediate : (8191 < 8192) ∧ (63 < 64) ∧ 4294967295 < 2 ^ 32 ∧ (64 ≤ 64 ∧ 64 < 8192) := by decide

theorem witness_ScalarInstructionsFrame :
    scalarDest (.csrrd 5 0x020) = some 5 ∧ goesOn (exec (.csrrd 5 0x020) (onCore {})) = true ∧ scalarDest (.add 0 1 2) = some 0 := by decide +kernel

/-- A load from HBM and a store; a load that meets an uncorrectable error. -/
theorem witness_LoadsAndStoresComplete :
    let s := mapped (onCore (sregs [0x3FFFFFF8]))
    let ea := s.effAddr 1 0 3
    let r := s.translate 0 0 ea .read true
    let w := s.translate 0 0 ea .write true
    let l : Loc := { tgt := 0, pa := 0x7FFFFFF8, key := 7, scope := 3, va := 0x3FFFFFF8 }
    let u : State := { r.2 with ue := [.mem 1 0 0x1FFFFFF] }
    ea = 0x3FFFFFF8 ∧ okOf r = some l ∧ okOf w = some l ∧ (r.2.l1Read 0 l 8).2.memHit true l = none ∧ (r.2.acquireRead 0 l 8).2.memHit true l = none ∧
    (u.l1Read 0 l 8).2.memHit true l = some 1 ∧ (u.acquireRead 0 l 8).2.memHit true l = some 1 := by
  decide +kernel

theorem witness_LoadStoreAddressAndTraps :
    2 ^ 56 ≤ (onCore (sregs [0x100000000000000])).effAddr 1 0 3 ∧ (onCore (sregs [0xFFFFFFFFFFFFFF])).effAddr 1 0 3 % 8 ≠ 0 ∧
    (onCore (sregs [0xFFFFFFFFFFFFFF])).effAddr 1 0 3 < 2 ^ 56 ∧
    causeOf ((mapped (onCore {})).translate 0 0 0x40000000 .read true) = 0x20 ∧ causeOf ((mapped (onCore {})).translate 0 0 (2 ^ 56 - 1) .write true) = 0x25 := by
  decide +kernel

theorem witness_StoreThroughTheL1 :
    let l : Loc := { tgt := 0, pa := 0x400001FF, key := 7 }
    l.pa % 512 + [(5 : Byte)].length ≤ 512 ∧ ((onCore {}).core 0).l1.length < 128 ∧ ∀ x ∈ ((onCore {}).core 0).l1, x.data.length = 512 ∧ x.loc.pa % 512 = 0 := by
  decide +kernel

/-- A line that is dirty, at the address that CFLUSH names; and an address with no line. -/
theorem witness_FencesAndFlushes :
    let s := ranIn (mapped (onCore (sregs [0x1000, 7]))) .ce (.sts 2 1 3 0)
    let l : Loc := { tgt := 0, pa := 0x40001000, key := 7, scope := 3, va := 0x1000 }
    okOf (s.translate 0 0 0x1000 .read true) = some l ∧ (s.l1Line 0 l).isSome = true ∧ s.l1Line 0 { l with pa := 0x40002000 } = none ∧
    (∀ x ∈ (s.core 0).l1, x.loc.pa % 512 = 0 ∧ x.dirty ≠ []) := by decide +kernel

theorem witness_ScalarZeroReadsZero : holds [(1 : Nat) ≠ 0, (2 : Nat) ≠ 1, (63 : Nat) = 63 ∧ 63 ≠ 0] = true := by decide +kernel

theorem witness_BitFields : holds [(63 : Nat) < 64, (0 : Nat) < 64] = true := by decide +kernel

theorem witness_BranchesCompare : holds (
    let s := withText (sregs [5, 5, 6]) { line := 1 }
    let t := withText { fetch := { waitCE := true, next := 1 } } { line := 1 }
    [s.rs 1 = s.rs 2, s.rs 1 ≠ 0, (s.rs 1).toInt < (s.rs 3).toInt, s.targetCheck 0 2 = none, s.targetCheck 0 1 = some 0x05,
      s.targetCheck 0 4 = some 0x06, s.targetCheck 0 (-1) = some 0x06, s.cm.fetch.waitCE = false,
      t.cm.fetch.waitCE = true ∧ t.cm.fetch.next = t.cur.ent.line,
      let a := s.cm.lineAddr 2; a % 32 = 0 ∧ (withText (sregs [BitVec.ofNat 64 a])).rn 1 = a, (withText (sregs [0x10001])).rn 1 % 32 ≠ 0,
      let a := s.cm.lineAddr 4; a % 32 = 0 ∧ s.cm.lineAddr s.cm.kern.textn ≤ a, 0 < s.cm.lineAddr 0,
      ((s.core 0).line 1).headD 0 &&& 0xF = 0 ∧ ((s.core 0).line 2).headD 0 &&& 0xF ≠ 0]) = true := by decide +kernel

/-- A LOOP that enters, one that skips, one whose body runs past the text; the traps; a back edge and a loop's end. -/
theorem witness_HardwareLoops : holds (
    let s := withText { s := [(1, 2)], kern := { loops := [{ count := 1 }, { count := 1 }, { kind := 1 }] } } { line := 1 }
    let t := onCore { s := [(1, 0x100000000)], fetch := { loops := [{ lvl := 1, i := 0, e := 3, first := 2, last := 4, stages := 2 }] } }
    let p : Loop := { lvl := 1, i := 0, e := 3, first := 2, last := 4 }
    let m : Member := { lc := [(1, 2)], fetch := { loops := [p] } }
    [(s.cm.kern.loops[1]?.map (fun x => x.kind)) = some 0, s.cm.fetch.loops = [], s.cm.kern.textn < s.cur.ent.line + 4,
      s.cur.ent.line + 3 ≤ s.cm.kern.textn, 0 < s.rn 1, s.rn 1 < 2 ^ 32, s.rn 0 ≤ 0, (s.cm.kern.loops[2]?.map (fun x => x.kind)) = some 1,
      s.cm.kern.loops[3]? = none, ∃ p ∈ t.cm.fetch.loops, 1 ≤ p.lvl, (t.cm.fetch.loops.head?.map (fun p => p.stages)) = some 2, 2 ^ 32 ≤ t.rn 1,
      m.lcOf p.lvl < p.lastRun, p.lastRun ≤ ({ m with lc := [(1, 3)] } : Member).lcOf p.lvl, 3 ≠ p.last, m.fetch.past = none,
      ({ sets := 2, past := some 3 } : Fetch).sets = 2, ({ sets := 1, past := some 3 } : Fetch).past = some 3]) = true := by decide +kernel

theorem witness_TokensMailboxesAndTime : holds [(onCore (sregs [63])).rn 1 ≤ 63, 63 < (onCore (sregs [64])).rn 1] = true := by decide +kernel

theorem witness_PrivilegedRegistersTrap : holds
    [isSeq (onCore {}).cur.core = false, isSeq (onSeq {}).cur.core = true,
      ¬ (0x103 = 0x100 ∨ 0x103 = 0x101 ∨ 0x103 = 0x102 ∨ 0x103 = 0x120 ∨ (0x110 ≤ 0x103 ∧ 0x103 ≤ 0x11F)),
      7 < 0x100 ∧ ¬ (7 ≤ 6 ∨ (8 ≤ 7 ∧ 7 ≤ 0x14) ∨ 7 = 0x20), 0x400 ≤ 0xFFF] = true := by decide +kernel

/-- Values that a register takes and values with a reserved bit; a SEQCTX that names a tenant, the supervisor and a FREE context. -/
theorem witness_SystemRegisters : holds (
    let q := onSeq {}
    [isSeq q.cur.core = true, bits 0x3F3F1C 63 22 = 0 ∧ bits 0x3F3F1C 15 14 = 0 ∧ bits 0x3F3F1C 7 5 = 0 ∧ 0x3F3F1C % 8 ≤ 4,
      bits 0x40 7 5 ≠ 0, 4 < 5 % 8, bits 0x400000 63 22 ≠ 0, bits 0x4000 15 14 ≠ 0, bits 0x103 63 11 = 0 ∧ bits 0x103 5 2 = 0 ∧ bits 0x103 10 6 ≤ 4,
      bits 4 5 2 ≠ 0, 4 < bits 0x140 10 6, bits 0x800 63 11 ≠ 0, (q.ctx 0).state ≠ .free ∧ (q.ctx 0).kind = 0, (q.ctx 1).kind ≠ 0, (q.ctx 255).state = .free,
      bits 0x40AF0 63 48 = 0 ∧ bits 0x40AF0 31 27 = 0 ∧ bits 0x40AF0 23 21 = 0 ∧ bit 0x40AF0 17 = false]) = true := by decide +kernel

theorem witness_SystemInstructions : holds (
    let s := onCore {}
    let h := onCore { aside := some { eng := 0 } }
    let p := onCore { queues := [(2, [{ lanes := encode (.vmov 1 2 0 0), seqNo := 3 }])], nextSeq := 4 } .ce { seqNo := 4 }
    let w := s.modCtx 0 (fun x => { x with stop := some { start := 0 } })
    let r := s.modCtx 0 (fun x => { x with rings := [(64, { on := true })] })
    [s.cm.aside = none, h.cm.aside = some { eng := 0 }, p.pendingBefore 0 4 = true, s.pendingBefore 0 0 = false, (w.ctx (w.ctxOn 0)).stop ≠ none,
      (s.ctx (s.ctxOn 0)).stop = none, isSeq 0 = false, s.pendingBefore 0 s.cm.nextSeq = false, (s.core 0).port = none,
      ((s.modCore 0 (fun x => { x with port := some { owner := 0, off := 0, op := .barv, ent := {} } })).core 0).port ≠ none,
      ∃ q ∈ (onCore { chans := [(0, { issued := 1 })] }).cm.chans, q.2.delivered ≠ q.2.issued, h.pendingBefore 0 1 = false ∧ (h.core 0).port = none,
      (onCore { aside := some { eng := 1, queues := [(1, [{ line := 0 }])] }, queues := [(2, [{ line := 0 }])] }).pendingBefore 0 1 = true,
      (r.ctx 0).waiting = [] ∧ r.ringRoom (r.eventCtx 0) eventRing 1 = true, s.ringRoom (s.eventCtx 0) eventRing 1 = false]) = true := by decide +kernel

theorem witness_TrapDelivery : holds (
    let s := onCore { fetchTrap := some (0x06, 9) }
    let e : Entry := { lanes := [0xC6000000], line := 3 }
    let m : Member := { stuck := [(1, { cause := 0x90 })], queues := [(1, [e])] }
    let t := onCore m
    let k : Kernel := { hl := some 7, hmask := 0x200 }
    [(s.mem 0).fetchTrap = some (0x06, 9), s.pendingTrap 0 = some (0, 9, { cause := 0x06 }, none), (t.mem 0).fetchTrap = none, (t.mem 0).q 1 = [e],
      (t.mem 0).status = .running, t.pendingTrap 0 = some (1, 3, { cause := 0x90 }, some e), k.hl = some 7 ∧ bit k.hmask (0x90 / 16) = true,
      (onCore { m with kern := k }).pendingTrap 0 = some (1, 3, { cause := 0x90 }, some e), (t.mem 0).kern.hl = none, (onCore {}).pendingTrap 0 = none]) = true := by
  decide +kernel

theorem witness_PreemptAndResume : holds (
    let s := seqFor id
    let b := seqFor (fun c => { c with state := .bound, nq := 1 })
    let t := (List.range 16).foldl (fun s c => s.modCore c (fun y => { y with status := .loaded })) b
    let h := s.modCore 0 (fun y => { y with status := .running, seat := { y.seat with present := true, mem := { status := .halted 0x92 } } })
    let v : Inval := { core := 512, kind := 4, ctx := 0, arg := 1, acked := 255 }
    let i : State := { seqFor id {} { issued := true } with invals := [(5, v)] }
    [s.ctxArg 2 256 = none, s.ctxArg 1 256 = some 0, (s.ctx 0).state = .running, (b.ctx 0).state ≠ .running ∧ (b.ctx 0).stop = none,
      ∃ c ∈ b.coresHere 0 0, b.stands c 0 .loaded = false, ∀ c ∈ t.coresHere 0 0, t.stands c 0 .loaded = true,
      ∀ c ∈ t.arcCores 0, bit 1 ((dieOf c + 8 - (t.ctx 0).ad) % 8) = true, (t.ctx 0).state = .bound,
      (h.core 0).status = .running ∧ (h.core 0).ctx = 0 ∧ (h.seat 0).present = true ∧ (h.mem 0).isHalted = true, h.rn 1 < 64, 64 ≤ h.rn 2,
      (seqFor id (sregs [65536])).ctxArg 1 65536 = none, (seqFor id (sregs [0xFF00])).ctxArg 1 65536 = some 0,
      (let v := 0x180000000; v < 2 ^ 33 ∧ bit v 32 = true ∧ bit v 31 = true), (let v := 0x10FC0F0F0; v < 2 ^ 33 ∧ bit v 32 = true ∧ bit v 31 = false ∧ bits v 21 20 = 0 ∧ v % 16 = 0),
      i.cur.ent.issued = true, i.invalOf 512 = some (5, v), ((i.modCtx 0 id).cur.ent.opv = [])]) = true := by decide +kernel

/-- Core 0 holds context 0 with a parked or framed image or none; extension pages that translate, and that do not. -/
theorem witness_ContextImages : holds (
    let b := fun (c : Ctx) => ({ c with nq := 1, xbase := 0x10000, pbase := 0x20000 } : Ctx)
    let u := seqFor b
    let s := (mapped u).modCore 0 (fun y => { y with status := .holding })
    let n := s.modCtx 0 (fun c => { c with xbase := 0x40000000, pbase := 0x40000000 })
    let f := s.modDie 0 (fun d => { d with frames := [(0, { ctx := 0 })] })
    let p := s.modCtx 0 (fun c => { c with parked := [(0, { ctx := 0 })] })
    let here := fun (t : State) => t.coresHere 0 0
    [s.ctxArg 2 256 = none, s.ctxArg 1 256 = some 0, (here s).filter (fun c => s.stands c 0 .holding) = [0], (here u).filter (fun c => u.stands c 0 .holding) = [],
      (f.frame 0 0).isSome, s.frame 0 0 = none, (s.extPages 0 [0] .write false).1.isSome, (n.extPages 0 [0] .write false).1.isNone,
      (here f).filter (fun c => (f.frame c 0).any (fun m => m.ctx == 0)) = [0], (n.parkPages 0 [0] .write).1.isNone,
      ∃ c ∈ here s, (s.core c).status ≠ .free, ∀ c ∈ here u, (u.core c).status = .free, (here p).filter (fun c => (tget (p.ctx 0).parked (p.seatNo 0 c)).isSome) = [0],
      (s.ctx 0).state ≠ .faulted ∧ (s.ctx 0).state ≠ .destroying, (p.extPages 0 [0] .read true).1.isSome,
      (n.extPages 0 [0] .read true).1.isNone ∧ (n.parkPages 0 [0] .read).1.isNone, (f.parkPages 0 [0] .write).1.isSome,
      controlHit (({ f with ue := [.frame 0 0 159] } : State).frameHits 0 0) = true, controlHit (({ f with ue := [.frame 0 0 160] } : State).frameHits 0 0) = false,
      f.frameHits 0 0 = [], (s.pagesHit [{ tgt := 0, pa := 0x1000 }]) = false, (({ s with ue := [.mem 1 0 64] } : State).pagesHit [{ tgt := 0, pa := 0x1000 }]) = true,
      (p.readParked 0 [] []).1 = [],
      (f.frame 0 0).map (fun m => m.ctx) = some 0, ((f.die 0).frames.map (fun q => q.1)) = [0]]) = true := by decide +kernel

theorem witness_PrivilegedPageInstructions : holds (
    let s := onSeq (sregs [0xFFF, 0, 0x100000000000000, 300, 0x1000, 64])
    let v : Inval := { core := 512, kind := 0, ctx := 0, arg := 0, acked := 255 }
    let i : State := { onSeq {} { issued := true } with invals := [(5, v)] }
    let j : State := { onSeq {} { issued := true } with invals := [(5, { v with acked := 127 })] }
    let m := (mapped (onSeq (sregs [3, 64, 1]))).modCtx 0 (fun x => { x with slabt := 0, slabn := 4 })
    let c := fun (ps : Tab SPage) => (onSeq (sregs [0, 0])).modCore 0 (fun y => { y with status := .running, pages := ps })
    let full := (List.range 40).map (fun k => (k, ({ ctx := 0, page := k + 1, state := .pinned, held := true } : SPage)))
    let here := c [(0, { ctx := 0, page := 0, state := .pinned })]
    let D := (1 <<< 202) + (5 <<< 192)
    let E := D + (1 <<< 204) + (15 <<< 160)
    [s.cur.ent.issued = false, (s.rn 2 < 256 ∧ (s.ctx (s.rn 2)).state ≠ .free) ∧ s.rn 1 < 4096, ¬ s.rn 3 < 2 ^ 56, ¬ s.rn 4 < 256, ¬ s.rn 5 < 4096,
      i.cur.ent.issued = true, i.invalOf i.cur.core = some (5, v), (j.invalOf 512).map (fun p => p.2.acked) = some 127,
      m.rn 1 < 2 ^ 20, (m.slabPlace 512 0 3).1.isSome, m.rn 2 % 64 = 0, m.rn 3 % 64 ≠ 0, ¬ s.rn 3 < 2 ^ 20,
      slabKind D = 1 ∧ slabFwd D = false ∧ slabLcap D < 30, slabFwd E = true ∧ bits E 191 160 ≤ 16 ∧ 16 ≤ 2 ^ slabLcap E / 2,
      bits (E + (1 <<< 160)) 191 160 = 2 ^ slabLcap E / 2, 512 ≤ s.cur.core, ¬ s.rn 6 < 64, s.rn 2 < 64, (s.core 0).status ≠ .running,
      (here.core 0).status = .running ∧ (here.core 0).heldPages < 40, ((c full).core 0).heldPages = 40,
      ((here.modCore 0 (fun x => x.pinPage 0 0)).core 0).pinnedHeld 0 = true, (((c []).modCore 0 (fun x => x.pinPage 0 0)).core 0).pinnedHeld 0 = false,
      ((c []).core 0).spage 0 = none, ((here.core 0).spage 0).map (fun p => p.2.state) = some .pinned,
      ((here.core 0).pages.map (·.1)).Pairwise (· < ·), 0 ∉ ((here.modCore 0 (fun x => x.unpinPage 0)).core 0).pendingPages,
      0 ∈ (((here.modSeat 0 (fun x => { x with copies := [(0, { ent := { lanes := [1] }, dst := 0, src := 0, len := 64 })] })).modCore 0 (fun x => x.unpinPage 0)).core 0).pendingPages]) = true := by decide +kernel

/-- Addresses of the core's own SRAM: the last word, one beyond 2^32, one misaligned, one of an absent core; a place taken; answers. -/
theorem witness_AtomicsIssueAndReply : holds (
    let s := onCore (sregs [0x800FFFF8, 0x100000000, 0x80000004, 0x10000000])
    let r : PortReq := { owner := 0, off := 0, op := .atomic 0x70 1 1 0, ent := { lanes := encode (.atadd 1 2 3 1) }, done := true, result := 5 }
    let t := fun (r : PortReq) => s.modCore 0 (fun k => { k with port := some r })
    let u := (t r).modCore 0 (fun k => { k with cfg := 2 })
    [s.rn 1 < 2 ^ 32, (s.accPlace 0 0 (s.rn 1)).toOption = some (0, 0xFFFF8), s.rn 1 % (atomicWidth 3 / 8) = 0, (s.core 0).port = none ∧ (s.core 0).bwait = none,
      ((t r).core 0).port ≠ none, 2 ^ 32 ≤ s.rn 2, (s.accPlace 0 0 (s.rn 4)).toOption = none, (s.accPlace 0 0 (s.rn 3)).toOption = some (0, 4),
      s.rn 3 % (atomicWidth 3 / 8) ≠ 0, ((t r).core 0).port = some r ∧ r.done = true ∧ r.isBwait = false, (t r).strict 0 = false,
      (t r).padOver 0 r.ent = some (t r), u.strict 0 = true, u.padOver 0 (u.padEntry (portDelay 0 1) r.ent) = none, u.padOver 0 (u.padEntry (portDelay 0 0) r.ent) = none,
      ({ u with time := { u.time with ptc := 1500 } } : State).padOver 0 (u.padEntry (portDelay 0 1) r.ent) = some { u with time := { u.time with ptc := 1500 } },
      (portDelay 0 0).2 ≠ 0, r.trap = 0,
      ((({ r with op := .binit 1 0 } : PortReq)).isBwait = false), ({ r with trap := 0x80 } : PortReq).trap ≠ 0]) = true := by decide +kernel

/-- Words at 0 and at the last place of the SRAM, armed and not; operands at the bounds of the clauses. -/
theorem witness_PortPerformsAtomics : holds (
    let r : PortReq := { owner := 0, off := 0xFFFFC, op := .atomic 0x70 0 1 0, ent := {} }
    let s := (onCore {}).modCore 0 (fun k => { k with port := some r })
    let a := s.modSeat 0 (fun x => { x with armed := [0xFFFF0] })
    [(s.core 0).port = some r ∧ r.done = false, (s.seat 0).acc.wf, (s.seat r.owner).isArmed r.off 4 = false,
      s.accHit r.owner r.off 4 = false, s.reaches (dieOf 0) (dieOf r.owner) = true, (s.modLink 0 id).modDie 1 (fun x => { x with state := .quarantined }) |>.reaches 0 1 |> (· = false), (a.seat r.owner).isArmed r.off 4 = true,
      toSigned 32 0xFFFFFFFF < toSigned 32 0, 0xFFFFFFFF < 2 ^ atomicWidth 1, ¬ 2 ^ 31 ≤ 0x7FFFFFFE ∧ 0x7FFFFFFE < 2 ^ 31 - 1, 2 ^ 31 ≤ 0x80000000]) = true := by
  decide +kernel

theorem witness_BarrierInstructionsIssue : holds (
    let e := 0x100000010
    let s := ((onCore (sregs [1, 0x10000])).modCtx 0 (fun x => { x with nq := 1 })).modDie 0 (fun y => { y with maps := [(5, e), (6, 0), (7, e + 8), (8, e + 0x10000000)] })
    let r : PortReq := { owner := 0, off := 0, op := .bwait none false, ent := {} }
    let t := fun (r : PortReq) => s.modCore 0 (fun k => { k with port := some r })
    let w := s.modCore 0 (fun k => { k with bwait := some { owner := 0, off := 0, gen := 1, late := false, bar := 5, result := some (65536, 0) } })
    let q := (onSeq {}).modCore 512 (fun y => { y with seqctx := 255 })
    let u := 2 ^ 17 + (65535 - (s.groupCores 0).length)
    [s.barrierCtx.toOption = some 0, (s.mapEntry 0 0 5).1 = e, (s.barrierPlace 0 0 e).toOption = some (0, 16), (s.core 0).port = none ∧ (s.core 0).bwait = none,
      s.binitOk 1 = true, s.binitOk 0x10000 = false, ((t r).core 0).port ≠ none, (s.barrierPlace 0 0 (s.mapEntry 0 0 6).1).toOption = none, q.barrierCtx.toOption = none,
      bit 0 32 = false, bit e 32 = true ∧ e < 2 ^ 33 ∧ bit e 31 = false, (s.accPlace 0 0 ((e + 0x10000000) % 2 ^ 32)).toOption = none,
      (s.barrierPlace 0 0 (e + 8)).toOption = none, isSeq s.cur.core = false, s.binitOk u = true, s.binitOk (u + 1) = false, s.binitOk 0 = false,
      ((t r).core 0).port = some r ∧ r.done = false, ({ r with done := true } : PortReq).trap = 0, ({ r with done := true, trap := 0x83 } : PortReq).trap ≠ 0,
      (w.core 0).port = none ∧ (w.core 0).bwait ≠ none, (w.core 0).bwait.map (fun r => r.result) = some (some (65536, 0)), w.strict 0 = false]) = true := by
  decide +kernel

/-- BCTL words of each STATE, with the generation 255 that wraps, an arrival that meets and one that does not; the pair at the SRAM's end. -/
theorem witness_BarrierPairAtThePort : holds (
    let b1 := (bInit 0 2 2).getD 0
    let b2 := (bArrive (bArrive b1 0 0).1 0 0).1
    let s := fun (op : PortOp) (b : Nat) => ((onCore {}).modCore 0 (fun k => { k with port := some { owner := 0, off := 0xFFFF0, op := op, ent := {}, bar := 3 } })).accPut 0 0xFFFF0 8 b
    [bState 0 = 0, bState b1 = 1, bState b2 = 2, bState (setBits b1 63 61 4) = 4, b2 < 2 ^ 64, ¬ (bExpect b1 ≤ bArrived b1 + 1), bExpect b1 ≤ bArrived (bArrive b1 0 0).1 + 1,
      bGen b1 = 1, bwaitOutcome b1 1 false = none, bwaitOutcome 0 0 false = some none, (255 + 1) % 256 = bGen 0, bGen b1 ≠ 3 ∧ bGen b1 ≠ 4,
      (s .barv b1).accHit 0 0xFFFF0 16 = false, (s .barv b1).reaches (dieOf 0) (dieOf 0) = true, ((s .barv b1).seat 0).acc.wf, 0xFFFF0 % 16 = 0 ∧ 0xFFFF0 + 16 ≤ 2 ^ 20, (s .barv b1).bctl 0 0xFFFF0 = b1,
      bit 2 17 = false, (bArrive b1 0 0).2.2 = false, (bArrive 0 0 0).2.2 = true, bwaitOutcome b2 1 false = some (some (0, 0)),
      ((s .barv b1).modSeat 0 (fun x => { x with armed := [0xFFFF0] })).seat 0 |>.armed.contains 0xFFFF0, ((s .barv b1).seat 0).armed = [] ]) = true := by decide +kernel

theorem witness_BinvalAndBtime : holds (
    let b1 := (bInit 0 0x80002 2).getD 0
    let b0 := (bInit 0 2 2).getD 0
    let dead := setBits b1 63 61 4
    let s := fun (op : PortOp) (b : Nat) => (((onCore {}).modCore 0 (fun k => { k with port := some { owner := 0, off := 16, op := op, ent := {} } })).accPut 0 16 8 b).modCore 1
      (fun k => { k with bwait := some { owner := 0, off := 16, gen := 1, late := false, bar := 0 } })
    let t := s .binval b1
    [(t.core 0).port.map (fun r => (r.done, r.trap)) = some (false, 0), t.accHit 0 16 16 = false, t.reaches (dieOf 0) (dieOf 0) = true, (t.seat 0).acc.wf, (t.core 1).bwait.map (fun w => (w.owner, w.off, w.gen, w.result)) = some (0, 16, 1, none),
      bState (t.bctl 0 16) = 1, bGen b1 = 1, bState dead = 4 ∧ dead < 2 ^ 64, bMode b1 = 2 ∧ 0 ≤ t.ptc, bMode b0 = 0 ∧ bArrived b0 < bExpect b0,
      bState ((s (.btime 0) 0).bctl 0 16) ≠ 1]) = true := by decide +kernel

/-- A shape of each class of types: FP32, 32-bit integers, complex of two columns, and a type outside each class; no exception is enabled, or all. -/
theorem witness_VectorArithmetic : holds (
    let f := onCore { vshape := 0, tiles := [(32, 0x3F800000), (64, 0x3F800000)] } .ve
    let i := onCore { vshape := 0x1400 } .ve
    let z := onCore { vshape := 0x8000 + 13 * 1024 } .ve
    [okFIC f.cm.ty = true, okFI f.cm.ty = true, okI f.cm.ty = false, okC f.cm.ty = false, okI i.cm.ty = true, okC i.cm.ty = false, okC z.cm.ty = true, okFI z.cm.ty = false,
      okFIC (tyOf 15) = false, f.governs f.cm.ty 0 0 0 = true, f.governs f.cm.ty 0 1 0 = false, f.governs f.cm.ty 0 0 1 = false]) = true := by decide +kernel

theorem witness_VectorElements : holds (
    let V := intVal true 8
    let f := fmtE4m3
    [(1 : Nat) < 8 ∧ 0xFF < 2 ^ 8, intMin true 8 ≤ V 0x7F + V 0x80 ∧ V 0x7F + V 0x80 ≤ intMax true 8, intMax true 8 < V 0x7F + V 1, V 0x80 - V 1 < intMin true 8,
      fmtF32.decode 0x7FC00000 = .nan, f.decode 0x7F = .nan, fmtF16.decode 0x7C00 = .inf false, (match fmtF16.decode 0 with | .fin z => z.m == 0 && !z.sticky | _ => false),
      f ∈ [fmtF32, fmtBf16, fmtF16, fmtE4m3, fmtE5m2], 0xFE < 2 ^ f.w ∧ f.decode 0xFE ≠ .nan, extreme true false (.int true 8) [(0, 0x80), (1, 5), (2, 5)] = some (1, 5)]) = true := by
  decide +kernel

theorem witness_Rounding : holds (
    let x : Ex := { m := 7, e := -2 }
    [fmtE5m2 ∈ [fmtF32, fmtBf16, fmtF16, fmtE4m3, fmtE5m2] ∧ 0xFF < 2 ^ fmtE5m2.w, (match fmtE5m2.decode 1 with | .fin x => decide (x.lead < fmtE5m2.emin) && !x.isZero | _ => false),
      (match fmtE5m2.decode 4 with | .fin x => decide (fmtE5m2.emin ≤ x.lead) | _ => false), fmtE5m2.decode 0x7C = .inf false, fmtE5m2.decode 0xFF = .nan,
      x.sticky = false ∧ x.e < 0 ∧ ({} : RMode).dsr = none, 2 ^ 2 < 2 * (x.m % 2 ^ 2), 2 * (5 % 2 ^ 2) < 2 ^ 2, 2 * (6 % 2 ^ 2) = 2 ^ 2, 8 % 2 ^ 2 = 0]) = true := by decide +kernel

/-- Indices at and past the edge of a shape of 1 row and 2 columns, of FP32, of complex and of a block type; columns that fit and that do not. -/
theorem witness_VectorMovesAndMasks : holds (
    let f := onCore { vshape := 0x8000 } .ve
    let z := onCore { vshape := 0x8000 + 13 * 1024 } .ve
    [f.cm.rows = 1 ∧ f.cm.cols = 2, okFI f.cm.ty = true ∧ okFIC f.cm.ty = true, okFI z.cm.ty = false ∧ okFIC z.cm.ty = true, okFIC (tyOf 15) = false,
      ¬ (f.cm.cols ≤ 1 ∨ (f.cm.ty.isC = true ∧ 1 % 2 = 1)), f.cm.cols ≤ 2, z.cm.ty.isC = true ∧ 1 % 2 = 1, 0 < f.cm.rows, f.cm.rows ≤ 1,
      (tyOf 13).isC = true ∧ (0 + 1) % 2 ≠ 0, (tyOf 13).isC = true ∧ (31 + 1) % 2 = 0, (tyOf 15).isB = true ∧ 15 + 1 = 16, (tyOf 15).isB = true ∧ ¬ (16 + 1 = 16 ∨ 16 + 1 = 32)]) = true := by
  decide +kernel

/-- A shape of one FP32 element in an image of 64 bytes at 0; a loop form outside the table; images past the end and misaligned; pages pinned or not. -/
theorem witness_TileImages : holds (
    let f := fun (m : Member) => onCore { m with vshape := 0 } .ve
    let s := pinned0 (f {})
    let r : Ring := { slotb := 64, n := 2, count := 1 }
    let q := fun (r : Ring) => pinned0 (f { rings := [(3, r)] })
    [¬ 0 < s.cm.kern.loops.length, s.cm.imageBytes = 64, 2 ^ 24 < 2 ^ 24 - 63 + s.cm.imageBytes, 2 ^ 24 - 64 + s.cm.imageBytes ≤ 2 ^ 24 ∧ (2 ^ 24 - 64) % 64 = 0, 32 % 64 ≠ 0,
      (f {}).present? 0 [(0, 64)] ≠ none, s.present? 0 [(0, 64)] = none, s.ue = [], (s.core 0).scratch.wf, ((s.core 0).pages.map (·.1)).Pairwise (· < ·),
      s.ring 3 = none, (q r).ring 3 = some r, ({ r with slotb := 0 } : Ring).slotb < 64, s.cm.imageBytes ≤ r.slotb, r.popBy = 0 ∧ 1 ≤ r.count, r.pushBy = 0 ∧ r.count + 1 ≤ r.n,
      ({ r with count := 0 } : Ring).count = 0, r.n < ({ r with count := 2 } : Ring).count + 1, (s.cm.taps.map (·.1)).Pairwise (· < ·)]) = true := by decide +kernel

/-- Types inside and outside the classes of the functions and conversions; columns that a conversion fits and does not. -/
theorem witness_VectorFunctionsAndConversions : holds (
    let f := (onCore { vshape := 0 } .ve).cm
    let w := (onCore { vshape := 15 * 0x8000 } .ve).cm
    [okF f.ty = true, okI f.ty = false, okF (tyOf 5) = false ∧ okI (tyOf 5) = true, ((okFI (tyOf 0) && okFI (tyOf 5)) || ((tyOf 0).isC && (tyOf 5).isC)) = true,
      f.convShape (tyOf 0) (tyOf 5) = true, f.convShape (tyOf 13) (tyOf 13) = false, f.convShape (tyOf 0) (tyOf 15) = false, w.convShape (tyOf 0) (tyOf 15) = true,
      ((tyOf 0).isF && (tyOf 15).isB) = true, ((tyOf 15).isB && okFI (tyOf 0)) = true, ((tyOf 13).isF && (tyOf 15).isB) = false, (0 == 0 && okSrnd 1) = true, ((1 : Nat) == 0 && okSrnd 1) = false,
      ({} : Ex).isZero = true, ({ m := 1, neg := true } : Ex).isZero = false ∧ ({ m := 1, neg := true } : Ex).neg = true]) = true := by decide +kernel

theorem witness_VectorReductions : holds (
    let f := (onCore { vshape := 0 } .ve).cm
    let h := fun t => (onCore { vshape := 1024 * t } .ve).cm.ty
    [okFIC f.ty = true, okRedm f.ty = true, okRedm (tyOf 13) = false, okFIC (tyOf 15) = false, (List.range 32).any (fun t => h t == .int false 8), (List.range 32).any (fun t => h t == .int false 4),
      (8 : Nat) ≠ 4 ∧ 0 < 8 / 8, 8 / 8 ≤ 1, (match f.ty with | .int _ _ => false | _ => true)]) = true := by decide +kernel

/-- MM of one element on rings 1 and 2: as it should be, gated, of a type the ME does not take, of a count too large, without its rings. -/
theorem witness_MatrixProductsIssue : holds (
    let r : Ring := { slotb := 64, n := 2, count := 1 }
    let s := onCore { rings := [(1, r), (2, r)], kern := { fmts := [{}] } } .me
    let o : MmOp := { qa := 1, qb := 2, md := 0, fi := 0, ta := 1, tb := 1, m := 1, n := 1, k := 1, acc := 0 }
    let g : State := { s with power := { s.power with gate := true } }
    let u : State := { s with power := { s.power with gate := false } }
    [s.mmCheck o 1 1 = none, g.mmCheck o 1 1 = none ∧ g.power.gate = true, u.power.gate = false, s.mmCheck o 13 1 = some 0x60, s.mmCheck { o with m := 129 } 1 1 = some 0x61,
      s.mmCheck { o with m := 128 } 1 1 = some 0x51, s.mmCheck { o with qa := 3 } 1 1 = some 0x50, s.mmCheck { o with qb := 1 } 1 1 = some 0x61, s.mmCheck { o with acc := 16383 } 1 1 = none,
      s.mmCheck { o with coop := true, r := 3, c := 1 } 1 1 ≠ some 0x61, (18 : Nat) ≤ 18 ∧ 17 < 18,
      s.cm.kern.fmts[0]?.map (fun e => decide (e.td < 18)) = some true, s.cm.kern.fmts[1]? = none, 18 ≤ ({ td := 18 } : FmtEnt).td, (meType 1 = true ∧ meType 1 = true), o.usesA 0 = true ∧ s.ring o.qa ≠ none]) = true := by decide +kernel

/-- The last slice of an MM of one element, and an MM with a second slice to come; a slot not yet FILLED; EN.O with a product that overflows. -/
theorem witness_MatrixSlice : holds (
    let r : Ring := { slotb := 64, n := 2, count := 1 }
    let f := fun (k ks fp : Nat) (r2 : Ring) (v : Mem) => ((pinned0 (onCore { rings := [(1, r), (2, r2)], kstep := ks, queues := [(3, [{ lanes := encode (.mm 1 2 0 0 1 1 0 0 k 0), issued := true, busy := true, opv := [fp, 1, 1, 0, 0] }])] } .me))).modCore 0
      (fun y => { y with arrayOn := true, scratch := v, cfg := 1 })
    let s := f 0 0x8000 0 r []
    let en := f 0 0x8000 0x3F0000 { r with base := 64 } [(0, 0x80), (1, 0x7F)]
    let o := (s.mmBusy 0).map (fun p => p.2)
    [(onCore {}).mmBusy 0 = none, o.isSome, o.map (fun o => (o.coop, o.md, o.m, o.n, o.slices)) = some (false, 0, 1, 1, 1), s.ue = [], (s.core 0).arrayOn = true,
      bits (s.mem 0).kstep 9 0 < 1, (1 : Nat) ≤ 8192, s.unpinned 0 [(r.headAddr 0, 64)] = [], ((f 0 0x8000 0 { r with count := 0 } []).mmBusy 0).isSome, (s.seat 0).armed = [],
      (s.seat 0).acc.wf, (((f 127 0x8000 0 r []).mmBusy 0).map (fun p => p.2.slices)) ≠ some 1, tget (s.mem 0).rings 1 = some r,
      (en.mmBusy 0).any (fun p => enabledExc (en.precise 0) 0x3F0000 (en.mmWords p.2 0 0 p.1.opv (en.sread 0 0 64) (en.sread 0 64 64)).2 != 0),
      [f32 0x4B000000].all (fun p => match p with | .fin x => !x.sticky && x.e == 0 | _ => false)]) = true := by decide +kernel

/-- A region at the SRAM's end and one past it; a ring that can push and pop and one that cannot; the ME gated or not. -/
theorem witness_AccumulatorFunctions : holds (
    let r : Ring := { slotb := 64, n := 2, count := 1 }
    let s := pinned0 (onCore { rings := [(1, r), (2, { r with count := 2 }), (3, { r with count := 0 })] } .me)
    let g : State := { s with power := { s.power with gate := true } }
    [s.ue = [], (s.seat 0).acc.wf, (s.core 0).scratch.wf, ((s.core 0).pages.map (·.1)).Pairwise (· < ·), g.power.gate = true, s.power.gate = false,
      rectEnd (16383 * 64) 1 16 = 0x100000, 0x100000 < rectEnd (16383 * 64) 1 17, (15 : Nat) % 16 ≠ 0, 16 % 16 = 0 ∧ 0 + 1024 + 1 * 16 * 4 ≤ 0x100000,
      s.ml2Check true true true 1 1 1 (rectEnd 0 1 1) = none, s.ml2Check false true true 1 1 1 (rectEnd 0 1 1) = some 0x60, s.ml2Check true true true 4 1 1 (rectEnd 0 1 1) = some 0x50,
      s.ring 1 = some r, r.canPush 1 = true ∧ r.canPop 1 = true, ({ r with count := 2 } : Ring).canPush 1 = false, ({ r with count := 0 } : Ring).canPop 1 = false,
      s.present? 0 (r.tailRanges 1) = none, (onCore {}).present? 0 (r.tailRanges 1) ≠ none, (!(tyOf 1).isC) = true, (0 : Nat) < 3 ∧ 127 < 128, 1 ≤ 4 ∧ (5 : Nat) > 4]) = true := by
  decide +kernel

/-- A slot in each state; a KRIN of the slot ahead; the checks of R294; a commit that waits and one that may begin. -/
theorem witness_ScanInstructionsIssue : holds (
    let r : Ring := { slotb := 8192, n := 2, count := 1 }
    let x : Slot := { state := .resident, nl := 1, ctl := 0x80000000, bankb := 4096 }
    let f := fun (x : Slot) => (pinned0 (onCore { rings := [(1, r), (2, { r with count := 0 })] } .se)).modSeat 0 (fun y => { y with slots := [(5, x)] })
    let s := f x
    let o : ScanOp := { op := 0, qi := 1, qo := 2, g := 0, slot := 5, lay := 0, n := 1 }
    let k := onCore { queues := [(7, [{ lanes := encode (.krin 1 2 0), seqNo := 0 }])] } .se { seqNo := 4 }
    let m := s.scanMd
    let ctl := s.slotCtl { party := 0, ctx := 0 } x
    [bits 0x103 15 11 = 0 ∧ bits 0x103 5 2 = 0 ∧ bits 0x103 10 6 ≤ 4, bits 4 5 2 ≠ 0, 4 < bits 0x140 10 6, (s.slot 0 4).state = .empty, s.krinAhead 4 = false, k.krinAhead 0 = true,
      (s.slot 0 5).state = .resident ∧ (s.slot 0 5).ctx = s.ctxOn 0, ((f { x with ctx := 3 }).slot 0 5).ctx ≠ 0, ((f { x with state := .rackingIn }).slot 0 5).state = .rackingIn,
      x.first + x.nl < 2, cdiv x.bankb 4096 ≤ 1, s.scanCheck o m = none, s.scanCheck { o with qi := 9 } m = some 0x50, s.scanCheck { o with op := 3 } m = none,
      s.scanCheck { op := 4, qo := 2, g := 0, slot := 5, lay := 0 } m = none, (f { x with snap := true }).scanCheck o m = some 0x70, tgetD x.pn 0 0 = 0,
      s.cur.ent.opv = [] ∧ s.placeTaken 0 = false ∧ s.accHit ctl.1 (ctl.2 + 4) 4 = false ∧ s.lstep 0 x 0 ≤ s.accNat ctl.1 (ctl.2 + 4) 4, s.strict 0 = false,
      (s.commitRead 0 x 0).1 = true, (s.modSeat 0 (fun y => { y with cask := [(0, 1)] })).commitRead 0 x 0 |>.1 |> (· = false),
      (s.modCore 0 (fun y => { y with port := some { owner := 0, off := 0, op := .barv, ent := {} } })).placeTaken 0 = true,
      ((s.modCore 0 (fun y => { y with cfg := 2 })).padOver 0 { opv := [1], pad := 5 }) = none, (s.padOver 0 { opv := [1] }).isSome, r.canPush 1 = true, ({ r with count := 2 } : Ring).canPush 1 = false,
      s.present? 0 (r.tailRanges 1) = none, (f { x with pn := [(0, 1)] }).scanCheck { o with op := 3 } m = none, r.canPop 1 = true, (s.seat 0).cask.wf]) = true := by decide +kernel

theorem witness_ScanSteps : holds (
    let r : Ring := { slotb := 8192, n := 2, count := 1 }
    let x : Slot := { state := .active, nl := 1, ctl := 0x80000000, bankb := 4096 }
    let f := fun (r : Ring) (n : Nat) => (pinned0 (onCore { cstep := 0x8000, rings := [(1, r)], queues := [(4, [{ lanes := encode (.scdr 1 0 0 0 0 5 0 n), issued := true, busy := true, opv := [0, 1] }])] } .se)).modSeat 0 (fun y => { y with slots := [(5, x)] })
    let s := f r 0
    let w := fun (t : Nat) => { (onCore { queues := [(4, [{ lanes := encode (.scdr 1 0 0 0 0 5 0 0), opv := [0, t] }])] } .se).modSeat 0 (fun y => { y with slots := [(5, x)] }) with power := { mclk := 65000 } }
    [(onCore {}).scanBusy 0 = none, (s.scanBusy 0).map (fun p => (p.2.emit, p.2.flip, p.2.n)) = some (false, false, 1), s.ue = [], ((s.mem 0).headOf 4).all (fun e => e.opv.getD 2 0 != 1), bits (s.mem 0).cstep 6 0 < 1, r.canPop 1 = true,
      ({ r with count := 0 } : Ring).canPop 1 = false, s.present? 0 (r.headRanges 1) = none, (onCore {}).present? 0 (r.headRanges 1) ≠ none, (s.seat 0).cask.wf, (0 : Nat) < 127,
      ((f r 1).scanBusy 0).map (fun p => p.2.n) = some 2, ((w 1000).mem 0).headOf 4 ≠ none, (w 1001).power.mclk < 1001 + 64 * 1000, 1000 + 64 * 1000 ≤ (w 1000).power.mclk,
      (w 0).mayIssue 0 = true, (w 0).placeTaken 0 = false]) = true := by decide +kernel

/-- A rectangle of one sector in the mapped gibibyte and in a page that is not; each check of R227 at its boundary; a bound ring; an indexed form. -/
theorem witness_TransferInstructions : holds (
    let D := (1 <<< 40) + 64
    let r : Ring := { slotb := 64, n := 2, count := 1 }
    let s := pinned0 (mapped (onCore { rings := [(3, r)], s := [(1, 0x40), (2, 0x1000), (3, BitVec.ofNat 64 D)] } .xl))
    let k := onCore { flight := [(5, [{ lanes := encode (.xldAcq 1 2 3) }])] } .xl
    let q := mappedSup (onSeq {})
    let ok := fun (A B : Nat) => (s.xmoves 0 0 { dir := .load } [A, B, D]).1.toOption.map (fun ms => ms.length)
    let rows := fun (A B : Nat) => ({ dir := .load } : XKind).rows [A, B, D]
    List.append [s.cur.ent.issued = false, rectOk D = true, rectOk 63 = false, rectOk 0x10000 = true, rectOk 0x10040 = false, (rows 0 (2 ^ 56 - 64)).all (fun r => decide (r.far + r.len ≤ 2 ^ 56)),
      (rows 0 (2 ^ 56)).any (fun r => decide (2 ^ 56 < r.far + r.len)), (rows (2 ^ 24 - 64) 0).all (fun r => decide (r.near + r.len ≤ 2 ^ 24)), (rows (2 ^ 24 - 63) 0).any (fun r => decide (2 ^ 24 < r.near + r.len)),
      0x40 % 64 = 0 ∧ 0x1000 % 64 = 0, 1 % 64 ≠ 0, s.held? = false, k.held? = true, ok 0x40 0x1000 = some 1, ok 0x40 0x40000000 = none, isSeq s.cur.core = false, isSeq q.cur.core = true,
      s.ring 3 = some r, s.ring 4 = none, r.slotb < 128, rectRows D * rectRowb D ≤ r.slotb, r.pushBy = 0 ∧ r.count + 1 ≤ r.n ∧ r.popBy = 0 ∧ 1 ≤ r.count]
      [({ r with count := 2 } : Ring).count + 1 > r.n, ({ r with count := 0 } : Ring).count < 1, (s.xmoves 0 0 { dir := .load, ring := some 3 } [64, 0x1000, D, 64]).1.isOk,
      (s.xmoves 0 0 { dir := .store, ring := some 3 } [0, 0x1000, D]).1.isOk, (s.xmoves 0 0 { dir := .store, ring := some 3 } [0, 0x40000000, D]).1.isOk = false,
      bits (2 ^ 46) 63 46 ≠ 0, bits (2 ^ 46 - 1) 63 46 = 0, k.unmoved 0 5 = true, s.unmoved 0 5 = false, 2 ^ 24 < (2 ^ 24 - 3) + 4 * 1, s.present? 0 [(0x40, 4)] = none,
      (onCore {}).present? 0 [(0x40, 4)] ≠ none, s.ue = [], (s.xmoves 0 0 { dir := .load, indexed := true } [0x40, 0x1000, 0x40, 0]).1.isOk, (s.xmoves 0 0 { dir := .load, indexed := true } [0x40, 0x40000000, 0x40, 0]).1.isOk = false,
      (q.nearParts 0x40 4).1.isOk, (q.nearParts 0x40000000 4).1.isOk = false, s.collAhead 0 [(false, 0x40, 4)] = false, (s.accPlace 0 0 0x800FFFC0).toOption = some (0, 0xFFFC0) ∧ 0xFFFC0 + 64 ≤ 2 ^ 20,
      (s.xmoves 0 0 { dir := .store, near := .acc } [0x40, 0x1000, D]).1.isOk, (s.xmoves 0 0 { dir := .store, near := .acc } [0x40, 0x40000000, D]).1.isOk = false,
      (s.translate 0 0 0x1008 .write true).1.isOk, (2 ^ 56 - 8) + 8 ≤ 2 ^ 56 ∧ (2 ^ 56 - 8) % 8 = 0]) = true := by decide +kernel

/-- A load in flight with its sector unmoved, and moved; a copy of one sector, of a page that is not there, and an acquiring XLD in flight. -/
theorem witness_TransferEvents : holds (
    let l : Loc := { tgt := 0, pa := 0x40001000, key := 7, scope := 3 }
    let e : Entry := { lanes := encode (.xld 1 2 3), issued := true, moves := some [{ src := .dev 0x1000 l, dst := .scratch 0, len := 64 }] }
    let s := pinned0 ((keyed (mapped (onCore { flight := [(5, [e])], s := [(1, 0x1000), (2, 0x2000), (3, 64)] })) 0x40001000 2).systemWrite 0 l (List.replicate 64 7))
    let c : Copy := { ent := { lanes := encode (.xcpy 1 2 3 0 0) }, dst := 0x1000, src := 0x1040, len := 64 }
    let t := fun (c : Copy) => s.modSeat 0 (fun y => { y with copies := [(0, c)] })
    let full := onCore { flight := [(5, [{ lanes := encode (.xldAcq 1 2 3) }])] } .xl
    let st := s.modMem 0 (fun m => { m with stuck := [(5, { cause := 0x20, copy := 1 })] })
    List.append [((s.mem 0).fl 5)[0]? = some e, (decide (s.flows 0 = true) && (s.mem 0).stuck.all (fun p => p.1 != 5)), e.moves.map (fun ms => decide (e.moved < ms.length)) = some true,
      ((decode? .xl e.lanes).bind xkind) = some { dir := .load }, (st.mem 0).stuck.all (fun p => p.1 != 5) = false, s.strict 0 = false, (s.mem 0).fl 6 = [], s.ue = [],
      (s.mem 0).behindStuck 5 e = false, s.mayMove 0 5 [] e = true, ((st.mem 0).setQ 5 [{ e with seqNo := 0 }]).behindStuck 5 { e with seqNo := 1 } = true, e.ahead = [], (e.nextMoves (e.moves.getD []) 1).length = 1,
      decide ((e.moves.getD []).length = 1), (e.moved + 2 ^ 32 / 2 ^ 32 == 1)] [
      decide (s.noteUnreachable 0 0 0x1000 l = s), s.present? 0 [(0, 64)] = none, (s.core 0).scratch.wf, ((s.core 0).pages.map (·.1)).Pairwise (· < ·), (s.devRead 0 l 64).length = 64,
      (onCore {}).present? 0 [(0, 64)] ≠ none, 2 ^ 36 ≤ 2 ^ 36 ∧ 2 ^ 36 % 64 = 0, 2 ^ 36 < 2 ^ 36 + 64, (255 * 2 ^ 48 - 64) + 64 ≤ 255 * 2 ^ 48, 0x1000 % 64 = 0 ∧ 0x2000 % 64 = 0 ∧ 64 % 64 = 0,
      s.held? = false, (s.seat 0).freeCopy = some 0, full.held? = true, tget (s.seat 0).copies 0 = none, tget ((t c).seat 0).copies 0 = some c, (t c).copyFaulted 0 0 = false,
      st.copyFaulted 0 0 = true, c.done < c.len, ((t c).copyMove 0 c).1.isOk, ((t c).copyMove 0 { c with src := 0x40000000 }).1.isOk = false,
      (tget (((t c).copySectors 0 0 1).seat 0).copies 0).map (fun y => y.done) = some 64, (tget (((t { c with len := 128 }).copySectors 0 0 1).seat 0).copies 0).map (fun y => decide (y.done < y.len)) = some true]) = true := by
  decide +kernel

theorem witness_MessagesAndHostRings : holds (
    let e : Entry := { lanes := encode (.xmsgtx 1 2 3 0), issued := true, moves := some [], opv := [0, 0], buf := List.replicate 64 1 }
    let s := pinned0 ((mapped (onCore { s := [(1, 0), (2, 0x400000)] } .xs { seqNo := 1 })).modCtx 0 (fun c => { c with nq := 5, rings := [(63, { on := true, base := 0x2000, waddr := 0x3000 })] }))
    let f := fun (e : Entry) => s.modCm (fun m => { m with flight := [(6, [e])] })
    let b := fun (k : Nat) (x : Inbox) => s.modCtx 0 (fun c => { c with inbox := [(k, x)] })
    let q := (onSeq {}).modCore 512 (fun y => { y with seqctx := 255 })
    let h : Entry := { lanes := encode (.xhring 1 2 3), issued := true, opv := [0, 63, 1, 0], moves := some [] }
    List.append [((f { e with seqNo := 0 }).cm.fl 6).any (fun e => decide (e.seqNo < s.cur.ent.seqNo)), s.cm.fl 5 ++ s.cm.fl 6 = [] ∧ (s.seat 0).copies = [], s.barrierCtx.toOption = some 0, q.barrierCtx.toOption = none,
      0 + 64 ≤ 2 ^ 24 ∧ 0 % 64 = 0, 2 ^ 24 < (2 ^ 24 - 63) + 64, s.msgCore 0 0x400000 = some 1, s.msgCore 0 0x400001 = none, s.msgCore 0 0x10000000 = some 64, s.unmoved 0 6 = false,
      (s.inbox 0 0).msgs.length + (s.inbox 0 0).reserved < 16, 16 ≤ ((b 0 { reserved := 16 }).inbox 0 0).reserved, s.present? 0 [(0, 64)] = none, s.ue = [],
      ((mappedSup (onSeq {})).nearParts 0 64).1.isOk, ((mappedSup (onSeq {})).nearParts 0x40000000 64).1.isOk = false, (s.nearParts 0 64).1.isOk, s.collAhead 0 [(false, 0, 64)] = false,
      s.reaches 0 0 = true, (s.modDie 1 (fun x => { x with state := .quarantined })).reaches 0 1 = false,
      ((s.mem 0).fl 6).findIdx? Entry.isMsg = none, (((f e).mem 0).fl 6).findIdx? Entry.isMsg = some 0]
      [(f e).flows 0 = true, s.strict 0 = false, 0 < ((b 0 { reserved := 1 }).inbox 0 0).reserved,
      (s.inbox 0 (s.inboxKey 0 0 0)).msgs = [], ((b (s.inboxKey 0 0 0) { msgs := [List.replicate 64 5] }).inbox 0 (s.inboxKey 0 0 0)).msgs = [List.replicate 64 5], (s.core 0).scratch.wf,
      (List.replicate 64 (5 : Byte)).length = 64, 1 ≤ 16 ∧ (16 : Nat) < 17, (tgetD (s.ctx 0).rings 63 {}).on = true, (tgetD (s.ctx 0).rings 0 {}).on = false,
      (s.hringPlaces 0 0 { on := true, base := 0x2000, waddr := 0x3000 } 0 1).1.isOk, (s.hringPlaces 0 0 { on := true, base := 0x2000, waddr := 0x40000000 } 0 1).1.isOk = false,
      s.ringRoom 0 63 16 = true, s.ringRoom 0 63 17 = false, ((((f h).mem 0).fl 6)[0]?).map Entry.isHring = some true, (f h).hringFirst h = true, (f h).hringFirst { h with opv := [0, 63, 1, 1] } = false,
      ((f h).mem 0).behindStuck 6 h = false, (f h).mayMove 0 6 [] h = true, s.held? = false]) = true := by decide +kernel

/-- A cask at 0x4000 of one layer and a bank of 64 bytes, its control block at offset 0 of the member's core; handles that fail each check. -/
theorem witness_CaskInstructions : holds (
    let loc := fun (o : Nat) => ({ tgt := 0, pa := 0x40004000 + o, key := 7, scope := 3, va := 0x4000 + o } : Loc)
    let hdr := List.replicate 28 0 ++ leBytes 2 1 ++ List.replicate 2 0 ++ leBytes 4 64 ++ List.replicate 28 (0 : Byte)
    let m : Member := { s := [(1, 0x4000), (2, 5)], kern := { caskn := 1, nlayers := 1, bankb := 64 } }
    let s0 := (keyed (mapped (onCore m .ke)) 0x40004000 3).modCtx 0 (fun c => { c with nq := 4 })
    let s := s0.systemWrite 0 (loc 0) hdr
    let k := s.keParty
    let x := parseHdr 0x4000 (loc 0) (s.keRead k (loc 0) 64)
    let sl := fun (y : Slot) => s.modSeat 0 (fun z => { z with slots := [(5, y)] })
    let y : Slot := { state := .resident, nl := 0, ctl := 0, bankb := 64, handle := 0x4000 }
    let p := s.modCore 0 (fun z => { z with port := some { owner := 0, off := 0, op := .barv, ent := {} } })
    List.append [s.cur.ent.issued = false, (onCore {} .ke).cm.kern.caskn = 0, s.cm.kern.caskn ≠ 0, (p.core 0).port ≠ none, (s.core 0).port = none, s.ue = [], (2 ^ 56 : Nat) ≤ 2 ^ 56, (255 * 2 ^ 48) / 2 ^ 48 = 255,
      0x4000 < 255 * 2 ^ 48 ∧ 0x4000 % 64 = 0, 0x4001 % 64 ≠ 0, (s.translate 0 0 0x4000 .read false).1.toOption = some (loc 0), (s.translate 0 0 0x4000 .write false).1.isOk,
      (s.translate 0 0 0x40000000 .write false).1.isOk = false, x.ok k = true, (parseHdr 0 (loc 0) (List.replicate 64 0)).ok k = false, (s.ctlPlace k x.ctl x.nl).toOption = some (0, 0), (s.ctlPlace k 8 1).toOption = none,
      (s.seat 0).armed = [] ∧ (s.seat 0).acc.wf, 5 ≤ (s.accPut 0 4 4 5).accNat 0 4 4]
      [s.accNat 0 4 4 < 5, 5 ≤ (s.accPut 0 16 4 5).accNat 0 16 4, ¬ 5 ≤ s.accNat 0 16 4,
      (s.sliceHeads k .write x (List.range x.nl)).1.isOk, s.accNat 0 8 4 % 65536 = 0, (s.accPut 0 8 4 1).accNat 0 8 4 % 65536 ≠ 0, bit ((s.accPut 0 8 4 0x80000000).accNat 0 8 4) 31 = true,
      (match s.keFork k .kfork 0x4000 0x4001 with | .trap _ _ => true | _ => false), (s.slot 0 5).state = .empty, ((sl { y with ctx := 1 }).slot 0 5).ctx ≠ s.ctxOn 0, 5 / 2 ^ 58 = 0,
      ((sl y).slot 0 5).state = .resident ∧ ((sl y).slot 0 5).held = false, ((sl { y with state := .active }).slot 0 5).state = .active, ((sl { y with state := .rackingIn }).slot 0 5).state = .rackingIn,
      ((sl y).headMoves k y).1.isOk, ((sl y).headMoves k { y with damaged := true, handle := 0x40000000 }).1.isOk = false, (commitList 5 0 1 true (0, 0) (loc 0) (loc 0).va).length = 11, (s.padOver 0 {}).isSome, ((s.modCore 0 (fun z => { z with cfg := 2 })).padOver 0 { pad := 9 }).isNone,
      (((s.modCore 0 (fun z => { z with cfg := 2 })).padOver 0 {}).isSome),
      ((sl y).settleSlot 0 5 (0, 0) 0).1 = false, ((sl y).sliceMoves k y).1.isOk, ((sl y).sliceMoves k { y with handle := 0x40000000 }).1.isOk = false, (sl y).rackFree 0 = true,
      (s.modSeat 0 (fun z => { z with slots := (List.range 8).map (fun i => (i, { y with state := .rackingIn })) })).rackFree 0 = false]) = true := by decide +kernel

theorem witness_RackingSlots : holds (
    let loc := fun (o : Nat) => ({ tgt := 0, pa := 0x40004000 + o, key := 7, scope := 3, va := 0x4000 + o } : Loc)
    let hdr := List.replicate 28 0 ++ leBytes 2 1 ++ List.replicate 2 0 ++ leBytes 4 64 ++ List.replicate 28 (0 : Byte)
    let m : Member := { s := [(1, 0x4000), (2, 5)], kern := { caskn := 1, nlayers := 1, bankb := 64 } }
    let s := ((((keyed (mapped (onCore m .ke)) 0x40004000 3).modCtx 0 (fun c => { c with nq := 4 })).systemWrite 0 (loc 0) hdr).systemWrite 0 (loc 64) (List.replicate 64 0)).systemWrite 0 (loc 128) (List.replicate 64 1)
    let k := s.keParty
    let x := parseHdr 0x4000 (loc 0) hdr
    let slot : Slot := { state := .rackingIn, ctx := s.slotCtx 0, handle := 0x4000, nl := 0, ctl := x.ctl, nlayers := x.nl, bankb := 64 }
    let h := s.keHeaders k [(0x4000, .read)]
    let rh := h.2.2.rackHeads k x [0]
    let mv : Move := { src := .dev 0x4080 (loc 128), dst := .lit [], len := 64 }
    let mo : Move := { src := .lit [], dst := .dev 0x4040 (loc 64), len := 64 }
    let w := fun (y : Slot) => s.modSeat 0 (fun z => { z with slots := [(5, y)] })
    let i : Slot := { slot with ent := { moves := some [mv, mv] } }
    let o : Slot := { slot with state := .rackingOut, ent := { moves := some [mo] } }
    [s.cur.ent.issued = false ∧ s.cm.kern.caskn ≠ 0 ∧ (s.core 0).port = none ∧ s.ue = [], 0 + 0 < x.nl, 5 / 2 ^ 48 % 1024 = 0 ∧ 5 / 2 ^ 58 = 0, h.1 = [] ∧ h.2.1 = [x],
      rh.1.length = 0 ∧ rh.2.1.map (fun p => (p.layer, sharedOf p.bytes, p.bad)) = [(0, false, false)], (s.padOver 0 {}).isSome,
      ((s.modCore 0 (fun z => { z with cfg := 2 })).padOver 0 { pad := 9 }).isNone, (s.bankMoves k slot).1.isOk, s.hdrErrs k [x] false = [], s.slotClash 0 5 0 192 = false, (w slot).slotClash 0 6 0 192 = true,
      s.slotClash 0 5 0x3FFF40 0x400000 = false, s.slotClash 0 5 0x3FFF80 0x400040 = true, s.rackFree 0 = true, (s.seat 0).armed = [] ∧ (s.seat 0).acc.wf, (s.slot 0 5).state ≠ .rackingIn,
      ((w i).slot 0 5).ent.moves = some [mv, mv] ∧ (w i).flows 0 = true, (((w i).rackIn 0 5 1 i [mv, mv]).slot 0 5).unit = 1, 2 ≤ (((w i).rackIn 0 5 2 i [mv, mv]).slot 0 5).unit,
      ((((w i).rackIn 0 5 2 i [mv, mv])).settleSlot 0 5 (0, 0) 0).1 = false, 1 ≤ (((w o).rackOut 0 5 1 o [mo]).slot 0 5).unit, (((w o).seat 0).slots.map (·.1)).Pairwise (· < ·)]) = true := by decide +kernel

/-- A team of one member that broadcasts one element; it has arrived, the instance has begun; a sequencer; a mark; two results that disagree on nothing. -/
theorem witness_Collectives : holds (
    let e : Entry := { lanes := encode (.cbcast 1 2 0 0 0), issued := true, opv := [0, 0, 64, 0], moves := some [] }
    let g := fun (i : List Inst) (s : State) => { s with groups := tset s.groups 0 { s.group 0 with d := 1, c := 1, alive := [0], insts := i } }
    let s := pinned0 (g [] (onCore { flight := [(6, [e])], chans := [(0, { issued := 1 })] } .xs))
    let G := s.group 0
    let n : Inst := { team := 0, ch := 0, k := 0, t0 := 0, dsts := [(0, 64)], data := [(0, [1, 2])] }
    let t := g [n] s
    let u := g [{ n with fail := 0x52, dsts := [], data := [] }] s
    let ps := s.parts G 0 0 0
    [isSeq s.cur.core = false, isSeq (onSeq {}).cur.core = true, 127 < 128, s.collErrs false false 0 64 = [], (s.collErrs false false 1 64).length = 1, (s.collErrs false true (2 ^ 24 - 64) 64) = [], (s.cm.chan 0).issued - (s.cm.chan 0).delivered < 4,
      4 ≤ ((onCore { chans := [(0, { issued := 4 })] }).cm.chan 0).issued, (2 ^ 32 : Nat) ≤ 2 ^ 32, 16383 + 1 ≤ 16384 ∧ 16384 < 16384 + 1, s.teamSize 0 ≤ 1, (s.cm.chan 0).fail = 0, ((onCore { chans := [(0, { fail := 0x52 })] }).cm.chan 0).fail ≠ 0,
      ps.map (fun l => l.length) = some 1, s.parts G 0 1 0 = none, (ps.getD []).all (fun p => s.present? p.core (p.reads 0) == none), (t.group 0).pending 0 0 = [n], (s.group 0).pending 0 0 = [],
      ((u.group 0).pending 0 0).map (fun i => (i.fail, i.dsts, i.acc)) = [(0x52, [], false)], (t.resultsReady (t.group 0) n).1 = true, ((g [n] (onCore {})).resultsReady G n).1 = false, s.strict 0 = false,
      n.dsts[0]? = some (0, 64) ∧ n.sector 0 0 = [(0, [1, 2])], n.dsts[1]? = none, n.sector 0 1 = [], ({ n with done := [0] } : Inst).sector 0 0 = [],
      has G.alive 0 = true, G.alive.contains 0 = true ∧ n.acc = false ∧ n.data = [(0, [1, 2])], s.present? 0 [(64, 2)] = none, (s.core 0).scratch.wf, ((s.core 0).pages.map (·.1)).Pairwise (· < ·)]) = true := by decide +kernel

/-- Fetch: a line of a scalar and a vector instruction, an engine without room, the end of the text. A page that refills and one that is written back. An
invalidation with the last die to come, a core that still holds what it covers. A stop at once, at its limit, of a context with an open instance. -/
theorem witness_FetchAndStop : holds (
    let l : List Lane := [0x20] ++ encode (.vmov 1 2 0 0)
    let f := fun (m : Member) => (onCore { m with kern := { m.kern with textn := 1 } }).modCore 0 (fun x => { x with lines := [(0, l)], pages := [(0, { page := 0, state := .writingBack, dirty := [5] }), (1, { page := 1, state := .refilling })] })
    let s := mapped (f {})
    let ds := parseLanes (numbered l) none
    let g := ((ds.map (fun d => d.eng)).headD 0)
    let lp : Loop := { lvl := 1, i := 0, e := 3, first := 0, last := 0 }
    let v : Inval := { core := 512, kind := 0, ctx := 0, arg := 0x1000, acked := 127 }
    let i : State := { s with invals := [(5, v), (6, { v with core := 0x3FF, kind := 1, after := 3 })] }
    let h := i.modCore 448 (fun x => { x with status := .running, seat := { x.seat with mem := { flight := [(5, [{ moves := some [{ src := .dev 0x2000 {}, dst := .scratch 0, len := 64 }], era := 5 }])] } } })
    let st := fun (p : Stop) => s.modCtx 0 (fun c => { c with stop := some p })
    List.append [s.mayFetch 0 = true, (f { fetch := { waitCE := true } }).mayFetch 0 = false, s.lineTrap 0 0 = none, s.lineTrap 0 1 = some 0x06, ds.length = 1 ∧ 1 ≤ g, ((f { queues := [(g, List.replicate 16 {})] }).mem 0).fetch.next = 0,
      (((f { queues := [(g, List.replicate 16 {})] }).mem 0).q g).length + 1 > 16, ((s.mem 0).q g).length + 1 ≤ 16, ds.find? Dealt.control = none, (s.mem 0).fetch.loops = [],
      ((f { fetch := { loops := [lp] } }).mem 0).lcOf 1 < lp.e, (f { fetch := { loops := [lp] } }).lineTrap 0 0 = none, (((s.core 0).spage 1).map (fun p => p.2.state)) = some .refilling,
      ((s.core 0).spage 0).map (fun p => p.2.state) = some .writingBack, (s.core 0).scratch.wf, ((s.core 0).pages.map (·.1)).Pairwise (· < ·), (s.translate 0 0 (s.backing 0 0 0 + 320) .write false).1.isOk]
      [((s.modCtx 0 (fun c => { c with sbase := 0x40000000 })).translate 0 0 (0x40000000 + 320) .write false).1.isOk = false, (tget i.invals 5).map (fun v => v.acked ||| 2 ^ 7) = some 255, i.holders 5 v 7 = false, h.holders 5 v 7 = true, h.holders 4 v 7 = false,
      (tget i.invals 6).map (fun v => v.after) = some 3, tget i.invals 7 = none, (s.ctx 0).stop = none, ((st { atOnce := false }).core 0).standsStill = false, ((f { yielded := true }).core 0).standsStill = true,
      s.instancesOpen 0 = false, ({ s with groups := tset s.groups 0 { s.group 0 with insts := [{ team := 0, ch := 0, k := 0, t0 := 0 }] } } : State).instancesOpen 0 = true, 0 + 20000 ≤ ({ s with time := { ptc := 20000 } } : State).ptc,
      s.ptc < 0 + 20000, s.hasCtx 0 0 = true, s.stands 0 0 .running = true, (0 : Nat) ∈ s.arcCores 0]) = true := by decide +kernel

/-- An image of one line at 0x5000, with its SHA-256: verified, in the kernel table, and with a bad first word; a place, no place, no shape. -/
theorem witness_FetchLaunchAndStop : holds (
    let img := leBytes 4 0x4B514445 ++ leBytes 4 1 ++ leBytes 4 0x80 ++ leBytes 4 1 ++ List.replicate 16 0 ++ leBytes 4 0xA0 ++ List.replicate 60 (0 : Byte)
      ++ leBytes 32 15616204212627414099522523292014638219838408698127906097462681865357681122787 ++ List.replicate 96 0
    let e : Cmd := { bytes := leBytes 8 1 ++ leBytes 8 0x5000 ++ List.replicate 48 0, state := .chosen }
    let s0 := (keyed (mapped (onCore {})) 0x40005000 4)
    let q := fun (e : Cmd) (c : QState) => { s0 with queues := [(0, { state := c, cmds := [(0, e)] })] }
    let s := (q e .active).systemWrite 0 { tgt := 0, pa := 0x40005000, key := 7, scope := 3 } img
    let bad := (q e .active).systemWrite 0 { tgt := 0, pa := 0x40005000, key := 7, scope := 3 } (List.replicate 128 1)
    let t := s.modCtx 0 (fun c => { c with kerns := [(3, { kern := { image := 0x5000, digest := 15616204212627414099522523292014638219838408698127906097462681865357681122787 } })] })
    let found := fun (s : State) => match (s.findKernel 0 0x5000).1 with | .fresh _ => 0 | .entry k _ => 1 + k | .fail c _ => c
    let g := fun (G : Group) => { t with groups := [(0, G)] }
    let G : Group := { state := .loading, alive := [0], quarters := [0], kern := 3 }
    let nq := fun (n : Nat) => s.modCtx 0 (fun c => { c with nq := n })
    let u := { s with groups := [] }
    let full := fun (k : KernState) => u.modCtx 0 (fun c => { c with kerns := (List.range 64).map (fun i => (i, { kern := {}, state := k })) })
    [(s.launchOf 0 (fun e => e.kind == 1 && !e.stuck)).map (fun p => p.1) = some 0, (q { e with stuck := true } .active).launchOf 0 (fun e => e.kind == 1 && !e.stuck) = none, (s.queue 0).state = .active, (q e .paused).queues ≠ s.queues,
      found s = 0, found t = 4, found bad = 0xA0, u.placeTenant 0 0 0 1 16 = .at_ [0], u.placeTenant 0 0 0 1 64 = .at_ [0], u.placeTenant 0 0 0 1 65 = .bad, u.placeTenant 0 0 0 9 1 = .bad, u.placeTenant 0 0 1 1 1 = .bad,
      s.placeTenant 0 0 0 1 64 = .none, u.freeKernel 0 = some 0, (full .verified).freeKernel 0 = some 0, (full .active).freeKernel 0 = none, ((nq 4).ctx 0).kind = 0, ((g G).group 0).state = .loading ∧ (0 : Nat) ∈ G.alive ∧ 0 ∉ G.loaded ∧ ((g G).ctx 0).state = .running, (t.core 0).text ≠ (0 + 1, 3),
      ((t.modCore 0 (fun x => { x with text := (1, 3) })).core 0).text = (1, 3), (t.readArea 0 0 (0x5000 + 0x80) 32 .text).1.isOk, (t.readArea 0 0 0x40000080 32 .text).1.isOk = false, G.at? = none,
      ({ G with at? := some 1 } : Group).at? = some 1 ∧ t.ptc < 1, ({ G with at? := some 0 } : Group).at? = some 0 ∧ 0 ≤ t.ptc, ∀ j ∈ ({ G with loaded := [0] } : Group).alive, j ∈ [0], tget t.groups 9 = none,
      s.mayStart 0 = true, (q e .paused).mayStart 0 = false, ((mappedSup s).start 0 0).1 = true, ((mappedSup (s.modQueue 0 (fun x => { x with jbase := 0x40000000 }))).start 0 0).1 = false]) = true := by decide +kernel

/-- Lines that are dealt, that trap and that wait for room; scratch pages being refilled and written back; invalidations; stops at once and at YIELDs, in time and late. -/
theorem witness_FetchLaunchAndStop_stops : holds (
    let f := withText {}
    let fn := fun (n : Nat) => f.modMem 0 (fun m => { m with fetch := { m.fetch with next := n } })
    let pg := fun (p : SPage) => (mapped (onCore {})).modCore 0 (fun y => { y with pages := [(0, p)] })
    let rf := pg { ctx := 0, page := 0, state := .refilling }
    let wb := pg { ctx := 0, page := 0, state := .writingBack, dirty := [0], due := 9 }
    let on := fun (s : State) => s.modCore 0 (fun y => { y with cfg := 2 })
    let v : Inval := { core := 512, kind := 0, ctx := 0, arg := 0 }
    let st := fun (p : Stop) (t : Nat) => { (onCore {}).modCtx 0 (fun c => { c with stop := some p, nq := 1 }) with time := { ptc := t } }
    let one : Stop := { atOnce := true, start := 0 }
    List.append [f.mayFetch 0 = true, (f.modMem 0 (fun m => { m with fetchTrap := some (1, 0) })).mayFetch 0 = false, (fn 4).lineTrap 0 4 = some 6, (fn 0).lineTrap 0 0 = none,
      (parseLanes (numbered ((f.core 0).line 0)) none).length ≤ 16, ((rf.core 0).spage 0).map (fun p => p.2.state) = some .refilling, (rf.core 0).refills.head?.getD 0 = 0, (rf.core 0).scratch.wf,
      (rf.strictAt 0 5).isSome, ((on rf).strictAt 0 5).isNone, (tget (wb.core 0).pages 0).map (fun p => (p.state, p.dirty)) = some (.writingBack, [0]), ((on wb).strictAt 0 9).isNone,
      (wb.translate 0 0 (wb.backing 0 0 0) .write false).1.isOk,
      (let x := wb.modCtx 0 (fun c => { c with sbase := 0x40000000 }); (x.translate 0 0 (x.backing 0 0 0) .write false).1.isOk = false),
      ((rf.core 0).pages.map (·.1)).Pairwise (· < ·), (rf.core 0).wants = [], f.invals = [], f.holders 0 v 0 = false, v.acked ||| 2 ^ 0 ≠ 255, ({ v with acked := 254, after := 3 } : Inval).acked ||| 2 ^ 0 = 255]
      [(f.ctx 0).stop = none, ((st one 5).ctx 0).stop = some one, ¬ one.start + 20000 ≤ (st one 5).ptc, one.start + 20000 ≤ (st one 20000).ptc, (st one 5).instancesOpen 0 = false,
      ((st one 5).gapAt 0 5).isNone ∧ ((st one 5).gapAt 0 6).isNone, one.destroy = false, ({ one with destroy := true } : Stop).destroy = true,
      ((st { one with atOnce := false } 5).core 0).standsStill = false, (st one 5).stands 0 0 .running = true, (((st one 5).modSeat 0 (fun y => { y with present := false })).core 0).standsStill = true,
      { (st one 5) with groups := [(0, { insts := [{ team := 0, ch := 0, k := 0, t0 := 0 }] })] }.instancesOpen 0 = true]) = true := by decide +kernel

/-- SHA-256 of "abc" (FIPS 180-4, example). -/
theorem test_sha256_abc : leNat (sha256 [0x61, 0x62, 0x63]).reverse = 0xba7816bf8f01cfea414140de5dae2223b00361a396177a9cb410ff61f20015ad := by decide +kernel
/-- The host down; a queue in each state; COMMIT at and past the limit; the commands' own witnesses follow. -/
theorem witness_QueuesCommandsAndEvents : holds (
    let s0 := mapped (onCore {})
    let q := fun (Q : Queue) => { s0 with queues := [(0, Q)] }
    let e : Cmd := { slot := 5, state := .faulted }
    let c : State := q { state := .active, ctx := 0, qbase := 0x6000, commit := 1, cmds := [(0, { bytes := [0], state := .accepted })] }
    let a := keyed (q { state := .active, qbase := 0x6000, commit := 1 }) 0x40006000 1
    let z := a.systemWrite 0 { tgt := 0, pa := 0x40006000, key := 7, scope := 3 } (List.replicate 64 0)
    let o := a.systemWrite 0 { tgt := 0, pa := 0x40006000, key := 7, scope := 3 } (11 :: List.replicate 63 0)
    let w := fun (Q : Queue) => 2 ^ 31 ≤ (Q.commit + 2 ^ 31 + 2 ^ 32 - Q.commit) % 2 ^ 32
    let st := q { state := .active, cmds := [(0, { bytes := [1], state := .chosen, stuck := true })] }
    let g := q { state := .active, qbase := 0x6000, jbase := 0x7000, cmds := [(0, { bytes := [0], state := .chosen })] }
    let h := q { state := .paused, cmds := [(0, { bytes := [0], state := .started })] }
    let n := q { state := .active, jbase := 0x40000000, cmds := [(0, { bytes := [0], state := .chosen })] }
    let r := s0.modCtx 0 (fun x => { x with rings := [(64, { on := true, p := 1, time := 1 })], waiting := [(false, [1])] })
    List.append [({ s0 with tri := { s0.tri with phase := 1 } } : State).hostUp = false, s0.hostUp = true ∧ s0.hostKeyed = true,
      (s0.modLink 32 (fun x => { x with state := .attesting })).hostKeyed = false, (s0.queue 0).state = .disabled, w { state := .idle, commit := 7 }, (64 : Nat) ≤ 2 ^ (({} : Queue).sz + 6), ¬ 2 ^ (({} : Queue).sz + 6) < 64,
      s0.supervisor = some 1, (onCore {} |>.modCtx 1 (fun x => { x with state := .free })).supervisor = none, ({ state := .faulted, cmds := [(0, e)] } : Queue).named 0 = some (0, e), ({} : Queue).named 1 = none,
      (5 + 2 ^ 32 - 5 % 2 ^ 32) % 2 ^ 32 < 2 ^ 31, 2 ^ 31 ≤ (5 + 2 ^ 32 - 6 % 2 ^ 32) % 2 ^ 32, (q { state := .paused, commit := 1 }).queue 0 |>.accepts, (q { state := .faulted, commit := 1 }).queue 0 |>.accepts |> (! ·),
      (z.readArea partyDispatcher 0 0x6000 64 .read).1.isOk, (z.readArea partyDispatcher 0 0x40000000 64 .read).1.isOk = false, (match (z.readArea partyDispatcher 0 0x6000 64 .read).1 with | .ok bs => cmdOk bs 64 | _ => false)]
      [(match (o.readArea partyDispatcher 0 0x6000 64 .read).1 with | .ok bs => !cmdOk bs 64 | _ => false), s0.noteCandidates.choice = none, (c.noteCandidates.choice.map (fun p => (p.1, p.2.1))) = some (0, 0),
      ((s0.queue 0).cmds = []), ((q { cmds := [(0, { state := .started })] }).queue 0).cmds.any (fun p => p.2.state == .started), (st.queue 0).cmds.any (fun p => p.2.stuck && p.2.state == .chosen && p.2.f 0 1 != 2),
      (st.queue 0).state = .active ∧ (st.ctx 0).state = .running ∧ (st.die 0).state ≠ .quarantined, (c.cmdNext 0 0 (fun _ => true)) = none, ((g.cmdNext 0 0 (fun _ => true)).map (fun p => p.2.state)) = some .chosen,
      ((st.cmdNext 0 0 (fun _ => true)).map (fun p => p.2.state)) = none, ((mappedSup g).began 0 0 (fun _ => true)).isSome, ((h.cmdNext 0 0 (fun _ => true)).map (fun p => p.2.state)) = some .started, ((mappedSup n).began 0 0 (fun _ => true)).isNone, 1000 * 2 ≤ ((q { state := .active, wdog := 2, dog := 2000, cmds := [(0, { state := .started })] }).queue 0).dog, ((q { wdog := 2, dog := 1999 }).queue 0).dog < 1000 * 2,
      (let Q := (q { state := .active, commit := 6, accept := 5, replaying := 1, replayAt := 5 }).queue 0; Q.replaying ≠ 0 ∧ Q.accept = Q.replayAt ∧ Q.accepts = true), ((q { accept := 6, replaying := 1, replayAt := 5 }).queue 0).accept ≠ 5,
      (s0.ctx 0).waiting = [], (r.ctx 0).waiting ≠ [] ∧ r.ringRoom 0 64 1 = true, (s0.ringRoom 0 64 1 = false), 1 ≠ 0 ∧ 1 * 1000 ≤ ({ r with time := { ptc := 1000 } } : State).ptc - 0, (tgetD s0.msix 3 {}).masked = true,
      (tgetD ({ s0 with msix := [(3, { masked := false, pending := true })] } : State).msix 3 {}).masked = false, s0.fmask = false]) = true := by decide +kernel

/-- A command of each kind, chosen; one that has started; one whose queue does not run it; addresses, places and words at the clauses' bounds. -/
theorem witness_CommandsBegin : holds (
    let s0 := (mapped (onCore {})).modDie 0 (fun y => { y with maps := [(5, 0x100000010), (6, 0)] })
    let cmd := fun (bs : List Byte) (st : CmdState) => ({ bytes := bs ++ List.replicate (64 - bs.length) 0, state := st } : Cmd)
    let q := fun (e : Cmd) (Q : QState) => { s0 with queues := [(0, { state := Q, cmds := [(0, e)] })] }
    let k := fun (n : Nat) => (q (cmd [BitVec.ofNat 8 n] .chosen) .active)
    let any := fun (_ : Cmd) => true
    let cp := cmd (3 :: List.replicate 7 0 ++ leBytes 8 0x1000 ++ leBytes 8 0x2000 ++ leBytes 8 64) .started
    let a := q cp .active
    let b := fun (v : Nat) => (s0.accPut 0 16 8 v)
    let sealed := fun (st : Nat) => st * 2 ^ 61
    List.append [[0, 3, 4, 5, 7, 8, 9, 10].all (fun n => ((mappedSup (k n)).began 0 n any).isSome), ((mappedSup (k 6)).began 0 6 (fun e => e.reg.isNone || e.got.isSome)).isSome, [0, 3, 4, 5, 7, 8, 9, 10].all (fun n => (s0.began 0 n any).isNone),
      (s0.began 0 6 (fun e => e.reg.isNone || e.got.isSome)).isNone, (a.began 0 3 any).map (fun p => p.2.1) = some cp, ((q (cmd [0] .chosen) .paused).began 0 0 any).isNone, ((k 0).cmdNext 0 0 any).isSome,
      255 * 2 ^ 48 < 255 * 2 ^ 48 - 63 + 64, 255 * 2 ^ 48 - 64 + 64 ≤ 255 * 2 ^ 48, (s0.mapEntry 0 0 5).1 = 0x100000010, (s0.barrierPlace partyDispatcher 0 0x100000010).toOption.isSome, (s0.barrierPlace partyDispatcher 0 0).toOption.isNone,
      (b 0).bctl 0 16 / 2 ^ 61 % 8 = 0, (b (sealed 1)).bctl 0 16 / 2 ^ 61 % 8 = 1, (b (sealed 2)).bctl 0 16 / 2 ^ 61 % 8 = 2]
      [(b (sealed 4)).bctl 0 16 / 2 ^ 61 % 8 = 4, (b (sealed 5)).bctl 0 16 / 2 ^ 61 % 8 = 5, s0.ue = [],
      (s0.accPlace 0 0 0x400000).toOption = some (1, 0), (s0.accPlace 0 0 0x10000000).toOption = none, (s0.translate partyDispatcher 0 0x1000 .write false).1.isOk, (s0.translate partyDispatcher 0 0x40000000 .write false).1.isOk = false,
      (match s0.translate partyDispatcher 0 0x1000 .write false with | (.ok l, u) => u.reachable 0 l | _ => false), s0.hringsTo 0 63 = [], (63 : Nat) < 64,
      ((onCore { flight := [(6, [{ lanes := encode (.xhring 1 2 3), opv := [0, 63, 1, 0] }])] }).hringsTo 0 63) ≠ [], (match s0.anonArrive 0 5 with | (some _, _) => true | _ => false), (match (b (sealed 1)).anonArrive 0 5 with | (none, _) => true | _ => false),
      (cmd [] .started).f 24 8 ≤ (cmd [] .started).done, cp.done < cp.f 24 8, (cp.f 24 8 ≤ cp.done + 64), (match s0.caskOf { party := partyDispatcher, ctx := 0 } 4 0 0x40000000 0 with | .trap _ _ => true | _ => false)]) = true := by decide +kernel

/-- The host down and up; a context in each state with a partition that is free, taken and of another shape; queued writes; time and power at their bounds. -/
theorem witness_ContextsRegistersTimeAndPower : holds (
    let s := onCore {}
    let x := fun (c : Ctx) => s.modCtx 2 (fun _ => c)
    let p := x { state := .bound, nq := 4, ad := 1 }
    let w : MemWrite := { core := 0, loc := { tgt := 0, pa := 0x1000, key := 7 }, data := [(0, 1)] }
    let h := { s with ctxs := [(0, { state := .free }), (1, { state := .created, kind := 1 })] }
    let t := fun (u : TimeUnit) => ({ s with time := u } : State)
    List.append [({ s with tri := { s.tri with phase := 3 } } : State).hostUp = false, s.hostUp = true ∧ s.hostKeyed = true,
      (s.modLink 32 (fun y => { y with state := .attesting })).hostKeyed = false ∧ ((s.modLink 32 (fun y => { y with state := .attesting })).link 32).state ≠ .down,
      ((s.modLink 32 (fun y => { y with state := .down })).link 32).state = .down, (s.ctx 2).state = .free, (p.ctx 2).state ≠ .free, s.partOk 2 0x40001 = true, s.partOk 2 0x50000 = false, s.partOk 2 0x1 = false,
      p.partOk 3 0x50001 = false ∧ p.partOk 2 0x50001 = true, (x { state := .created }).coresBusy 2 = false, (x { state := .faulted, stop := some {} }).coresBusy 2 = true,
      ({ (x { state := .parked }) with dies := [(0, { frames := [(0, { ctx := 2 })] })] } : State).hasFrame 2 = true, (x { state := .parked }).hasFrame 2 = false, ((x { state := .faulted, cause := 0xB3 }).ctx 2).cause = 0xB3,
      ((x { state := .running }).ctx 2).kind = 0, s.hostReaches 0 0 = true, s.hostReaches 0 (2 ^ 40) = false, s.hostReaches 0 (192 * 2 ^ 30) = false]
      [s.hostReaches 1 0 = true, ((s.modCore 0 (fun y => { y with outq := [w, w] })).core 0).outq[1]? = some w, (s.core 0).outq[0]? = none, (s.modDie 0 (fun y => { y with ordq := [w] })).dies.length = 1,
      ((s.modCore 0 (fun y => { y with l1 := [{ loc := w.loc, dirty := [0] }] })).core 0).l1.all (fun y => y.dirty != []), s.reachable 0 w.loc = true,
      (s.modDie 1 (fun y => { y with state := .quarantined })).reachable 0 { w.loc with pa := 4096 } = false,
      (s.core 0).arrayOn = false, ((onCore {} |>.modCore 0 (fun y => { y with arrayOn := true })).core 0).idleNs + 1000 ≤ (t { ptc := 1000 }).ptc, (s.die 0).wake = none, 5 + 64 * 1 ≤ (t { ptc := 69 }).ptc, (t { ptc := 68 }).ptc < 5 + 64 * 1,
      ({ ppsen := true, sincePps := some 999000000 } : TimeUnit).sincePps = some 999000000, ((some 1001000000).map (fun m => decide (1001000000 ≤ m))).getD false = true, ((some 1000999999).map (fun m => decide (1001000000 ≤ m))).getD false = false, (s.hbm.wf && s.hostMem.wf && s.cxlMem.wf), 0 + 10000 ≤ (t { ptc := 10000 }).ptc,
      ¬ (∀ v ∈ [w, w].take 1, v.loc.sector ≠ w.loc.sector), s.time.pend = 0, ({ pend := 1, sinceSlew := 10000 } : TimeUnit).pend ≠ 0 ∧ (1000000 + 100 - 1) / 100 ≤ 10000,
      (∀ p ∈ h.ctxs, p.2.state = .free ∨ p.2.kind = 1), ∃ p ∈ s.ctxs, p.2.state ≠ .free ∧ p.2.kind ≠ 1, s.time.rate = 0 ∧ s.time.frac < 2 ^ 32, min 4 s.power.req ≠ s.power.point ∨ min 1 s.power.req = s.power.point]) = true := by decide +kernel

/-- Links in each state; a direction that may send, and one whose replay buffer is full; flits in order, out of order, of the next key; queues at their marks. -/
theorem witness_LinksAndTheirFlits : holds (
    let s := State.reset
    let k : LinkDir := { keyed := true }
    let l := fun (x : Link) => s.modLink 0 (fun _ => x)
    let u := l { state := .up, dir0 := k, dir1 := k }
    let d := fun (y : LinkDir) => l { state := .rekeying, dir0 := y, dir1 := y }
    let f : Flit := { type := 1, src := 0, dst := 1 }
    let o := s.modLink 16 (fun x => { x with state := .up, dir1 := k, stail := 1, rlen := 64, rwin := 0x1000 })
    let m := mapped (onCore {})
    List.append [(l {}).link 0 |>.state |> (· == .down), (s.die (linkEnds 0).1).state = .joined ∧ (s.die (linkEnds 0).2).state = .joined, ((l { state := .training, fails := 2 }).link 0).fails = 2, (l { state := .keying }).link 0 |>.dir0 |>.keyed |> (! ·),
      ((l { state := .keying, dir1 := k }).link 0).dir 1 = k, ((d { k with rekey := 1 }).ldir 0 0).rekey = 1 ∧ ((d { k with rekey := 1 }).ldir 0 0).both = false, (u.link 0).carries = true, ((l { state := .quarantined }).die 0).state ≠ .quarantined,
      2 ^ 44 - 2 ^ 20 ≤ ((d { k with fcnt := 2 ^ 44 - 1 }).ldir 0 0).fcnt, isTrellis 0 = true ∧ isTrellis 16 = false, u.canSend 0 0 = true, (d { k with fcnt := 2 ^ 44 }).canSend 0 0 = false, (d { k with replay := List.replicate 512 {} }).canSend 0 0 = false,
      f.gen = (u.ldir 0 0).rgen ∧ f.key = (u.ldir 0 0).rkey ∧ f.fcnt = (u.ldir 0 0).exp, ({ f with fcnt := 1 } : Flit).fcnt ≠ (u.ldir 0 0).exp,
      (let y := (d { k with both := true, next := 9 }).ldir 0 0; decide (({ f with gen := 1, key := 9 } : Flit).gen ≠ y.rgen ∧ y.both = true ∧ y.gap = false ∧ y.next = 9)), ((d { k with both := true, next := 9, gap := true }).ldir 0 0).gap = true,
      (d { k with stopped := true }).canSend 0 0 = false,
      ((d { k with rewind := true }).ldir 0 0).rewind = true, ((l { state := .quarantined, attFails := 1 }).link 0).attFails = 1, (s.link 32).carries = true,
      ((l { state := .quarantined, attFails := 2 }).link 0).attFails = 2, (s.die 0).mgmt = true, ((s.modDie 0 (fun y => { y with mgmt := false })).die 0).mgmt = false, ((l { state := .training, attested := true }).link 0).attested = true]
      (List.append [((d { k with rekey := 2 }).ldir 0 1).rekey = 2, u.isHeld 0 0 3 0 = false, (d { k with heldBy := [12] }).isHeld 0 0 3 0 = true, 160 ≤ tgetD ((d { k with occ := [(0, 160)] }).ldir 0 1).occ 0 0, tgetD ((d { k with occ := [(12, 31)] }).ldir 0 1).occ 12 0 < 32,
      tgetD (u.ldir 0 1).occ 0 0 ≤ 64, (0 : Nat) ∈ ((d { k with holding := [0] }).ldir 0 1).holding, ((d { k with nak := true }).ldir 0 1).nak = true, (List.range 8).any (fun t => (u.nextData 0 0 0 0 t).isSome), (u.nextData 0 0 0 0 0) = none,
      ∃ g ∈ [({ f with replays := 7 } : Flit)].map (fun f => { f with replays := f.replays + 1 }), 8 ≤ g.replays, (((u.deliverData 0 0 { f with path := [] }).die 1).transit.map (fun g => g.via)) = [1],
      ((u.performData 0 0 0 0).die 1).transit = (u.die 1).transit, (unacked 3 0 [{ f with fcnt := 2 }, { f with fcnt := 3 }, { f with fcnt := 4 }]).map (fun g => g.fcnt) = [4], unacked 3 1 [{ f with fcnt := 3 }] = [{ f with fcnt := 3 }],
      (∃ g ∈ (d { k with rekey := 2, fcnt := 2 ^ 44, replay := [f] }).ldir 0 0 |>.replay, g.gen = 0)]
      [(s.route 0 7).isSome, (List.range 8).all (fun t => (s.route 0 t).getD [] == s.routeOf 0 t), s.routeOf 0 0 = [], (1 : Nat) ∈ ((s.modDie 0 (fun y => { y with draining := [1] })).die 0).draining, s.dies.all (fun p => p.2.transit == []),
      (o.link 16).carries = true ∧ (o.link 16).shead ≠ (o.link 16).stail, 64 * 0 + 64 ≤ (o.link 16).rlen, (o.link 16).rlen < 64 * 1 + 64, (m.translate 1024 0 0x1000 .write true).1.isOk, (m.translate 1024 0 0x40000000 .write true).1.isOk = false, 
      (m.ctx 0).state ≠ .free, (64 : Nat) ≤ 2 ^ 36 ∧ 64 % 64 = 0, (m.readArea 1024 0 0x40000000 32 .read).1.isOk = false,
      ((keyed m 0x40006000 1).readArea 1024 0 0x6000 32 .read).1.isOk, ((m.modLink 16 (fun x => { x with job := some { loc := 0x1000, roff := 0, len := 64, tag := 3 } })).link 16).job.map (fun j => decide (j.off < j.len)) = some true,
      m.ue = [], (classed (routeLinks 0 (s.routeOf 0 1))).all (fun h => s.drainsOver h.1 h.2.1 h.2.2), (u.link 0).dir0.occ = [], ([(0, 1), (12, 2)].map (fun p : Nat × Nat => p.1)).Pairwise (· < ·), o.canSend 16 1 = true, (linkEnds 0).1 = 0,
      ((u.deliverData 0 0 { f with path := [] }).die 1).transit.any (fun g => g.via == 1 && g.path.isEmpty && decide (g.eseq ≤ tgetD ((u.deliverData 0 0 f).die 1).eseqRx 0 0)),
      ((o.deliverData 16 1 { f with src := noDie }).die (dirTo 16 1)).transit.any (fun g => g.src == noDie && g.via == 34), ((o.die (dirTo 16 1)).transit.all (fun g => g.via != 34)),
      (match m.translate 1024 0 0x1000 .write true with | (.ok p, y) => y.reachable 0 p | _ => false)])) = true := by decide +kernel

/-- The module off, HALTED and on; every order of R444; a session of a host root, of a scale-out root and none; dies that answer, fail and reset. -/
theorem witness_TrustResetsAndModulePower : holds (
    let s := State.reset
    let t := fun (t : Trifort) => ({ s with tri := t } : State)
    let r := { s.tri with version := true, caps := true, algs := true, sessions := [(0, { slot := 0, auth := true }), (1, { slot := 5 })] }
    let full := { r with sessions := (List.range 4).map (fun i => (i, {})) }
    let d := fun (y : Die) => s.modDie 2 (fun _ => y)
    let l := fun (x : Link) => s.modLink 0 (fun _ => x)
    let p := (t { r with slots := [(3, { kind := 2 })] }).modLink 16 (fun x => { x with state := .attesting, peer := some 3 })
    let e := ((l { state := .attesting, exchange := true, epoch := 5 }).modDie 0 (fun y => { y with psks := [(0, 5)] })).modDie 1 (fun y => { y with psks := [(0, 5)] })
    List.append [({ s with power := { s.power with on := false } } : State).power.on = false, ({ s.tri with exh := true } : Trifort).exh = true, s.power.on = true ∧ s.tri.exh = false, s.tri.version = false, r.algs = true, s.tri.caps = false, ({ r with lsig := 0 } : Trifort).lsig = 0, r.lsig ≠ 0,
      s.measurements 10 ≠ none, s.measurements 13 = none, (List.range 4).all (fun k => (tget full.sessions k).isSome), tget r.sessions 2 = none ∧ (tget r.sessions 0).isSome ∧ (tget r.sessions 1).isSome, tget r.sessions 3 = none,
      (tgetD r.slots 0 {}).kind ∈ [1, 3] ∧ bit r.revoke 0 = false, (tgetD r.slots 5 {}).kind = 0, (s.link 32).state = .up, tgetD r.chunks 0 0 = 0, tgetD r.chunks 1 0 ≠ 1]
      (List.append [r.req = none ∧ r.reqq = [], ({ r with req := some (1, 0, 5, 255) } : Trifort).req = some (1, 0, 5, 255), ((onCore {}).ctx 0).state ≠ .free ∧ ((onCore {}).ctx 0).kind ≠ 1, (1 : Nat) ≠ 0 ∧ 255 < 256, tget r.keys 5 = none, (t r).releasedMask = 255,
      (tget ({ r with keys := [(5, { val := 3, ctx := 0 })] } : Trifort).keys 5).isSome, (List.range 8).filter (fun j => r.rootOk j [1, 3]) = [0], (s.die 2).state = .joined, ((d { state := .heldReset }).die 2).state = .heldReset, ((d { state := .resetting }).die 2).state = .resetting,
      (s.modLink 16 (fun x => { x with state := .attesting })).link 16 |>.state |> (· == .attesting), (tgetD ({ r with slots := [(3, { kind := 2 })] } : Trifort).slots 3 {}).kind ∈ [2, 3]]
      (List.append [bit 255 7 = true ∧ 255 ≠ 2 ^ 7, bit 128 7 = true ∧ 128 = 2 ^ 7, bit 127 7 = false, (onCore {}).hitByReset 0 0 = true, (onCore {}).invals.all (fun p => p.2.after != 3), ({ r with measuring := some 2 } : Trifort).measuring = some 2, s.tri.measuring = none,
      ({ s with time := { ptc := 1000000 } } : State).ptc ≥ 0 + 1000000, s.ptc < 0 + 1000000, ((l { state := .attesting, exchange := true }).link 0).exchange = true ∧ ((l { state := .attesting, exchange := true }).link 0).attFails = 0,
      ((l { state := .attesting, exchange := true, attFails := 1 }).link 0).attFails ≠ 0, ((l { state := .reset }).link 0).state = .reset,
      (0 : Nat) < 4 ∧ (tgetD r.sessions 0 {}).auth = true, (tgetD r.sessions 1 {}).auth = false, (s.die 0).state ≠ .quarantined, ({ s with fmask := false } : State).fmask = false, (s.modDie 1 (fun y => { y with state := .quarantined })).die 1 |>.state |> (· == .quarantined),
      tget (onCore {}).groups 0 ≠ none ∧ ((onCore {}).group 0).ctx = 0, ((onCore {}).ctx 0).state ≠ .created ∧ ((onCore {}).ctx 0).state ≠ .destroying, s.tri.boots < 32768, ¬ ({ s.tri with boots := 32768 } : Trifort).boots < 32768]
      [s.tri.phase ≠ 0, ({ s.tri with phase := 0 } : Trifort).phase = 0,
      tgetD ({ r with chunks := [(0, 1)] } : Trifort).chunks 0 0 = 1, ({ r with large := [1, 2] } : Trifort).large.length = 0 + 2, r.large.length ≤ 0, (tgetD r.slots 1 {}).kind = 0 ∧ bit r.revoke 1 = false ∧ 1 < 8, (8 : Nat) ≤ 8,
      (let y := p.link 16; y.state = .attesting ∧ y.peer = some 3 ∧ (tgetD p.tri.slots 3 {}).kind ∈ [2, 3] ∧ bit p.tri.revoke 3 = false), (s.link 16).peer = none, (s.die 2).released = true, ((d { state := .heldReset }).die 2).released = false,
      (s.die 2).mgmt = true, ((d { mgmt := false }).die 2).mgmt = false, linkEnds 0 = (0, 1), [0, 1].all (fun k => tgetD (e.die k).psks 0 0 == (e.link 0).epoch), (e.link 0).exchange = true ∧ (e.link 0).state = .attesting,
      tgetD ((e.modDie 1 (fun y => { y with psks := [(0, 6)] })).die 1).psks 0 0 ≠ (e.link 0).epoch, ((l { state := .reset, attFails := 2 }).link 0).attFails = 2 ∧ 0 ∈ linksOf 0, ((d { state := .quarantined }).die 2).state = .quarantined]))) = true := by decide +kernel

theorem reply_fields (i : BitVec 64) (m : BitVec 256) (t : Nat) : ∃ reply : Nat,
    reply % 2 ^ 64 = i.toNat ∧ reply / 2 ^ 64 % 2 ^ 256 = m.toNat ∧ reply / 2 ^ 320 = t := by
  have hi := i.isLt
  have hm := m.isLt
  refine ⟨i.toNat + 2 ^ 64 * (m.toNat + 2 ^ 256 * t), ?_, ?_, ?_⟩ <;> omega

/-- A reply in time, with the DIEID and the measurement expected of the die, which are free values, and any tag. -/
theorem witness_TrustResetsAndModulePower_passes (t : Nat) : ∃ (s : State) (reply : Nat), s.tri.measuring = some 2 ∧ (s.die 2).mgmt = true ∧
    s.ptc = s.tri.measT0 + 1000000 ∧ reply % 2 ^ 64 = (Config.dieId 2).toNat ∧ reply / 2 ^ 64 % 2 ^ 256 = (Config.gold 2).toNat ∧ reply / 2 ^ 320 = t := by
  obtain ⟨r, h⟩ := reply_fields (Config.dieId 2) (Config.gold 2) t
  exact ⟨{ State.reset with tri := { State.reset.tri with measuring := some 2 }, time := { ptc := 1000000 } }, r, rfl, by decide, rfl, h⟩

/-- A run of HBM blocks under key 0. -/
def blocksFrom (n b : Nat) : Tab Nat := match n with | 0 => [] | k + 1 => (b, 0) :: blocksFrom k (b + 1)

theorem blocksFrom_at : ∀ n b j, j < n → tget (blocksFrom n b) (b + j) = some 0 := by
  intro n
  induction n with
  | zero => intro b j h; omega
  | succ n ih =>
    intro b j h
    cases j with
    | zero => simp [blocksFrom, tget]
    | succ j => simpa [blocksFrom, tget, show b + 1 + j = b + (j + 1) by omega] using ih (b + 1) j (by omega)

/-- A FREE context 2 whose descriptor at 0x10000 holds QUOTA 1 and zeros. -/
def withDescriptor : State :=
  { State.reset.placeGroup 0 with ctxs := [(2, { cdesc := 0x10000 })], hbm := [(0x1002A, 1)], hbmKey := blocksFrom 256 0x1000, tri := { Trifort.boot with keys := [] } }

theorem withDescriptor_byte (i : Nat) (h : i < 4096) :
    withDescriptor.homeByte { tgt := 0, pa := 0x10000, key := withDescriptor.key0, scope := 3 } i = if i = 0x2A then 1 else 0 := by
  have hk : withDescriptor.key0 = 0 := by decide +kernel
  have ht : tget withDescriptor.hbmKey ((0x10000 + i) / 16) = some 0 := by
    have := blocksFrom_at 256 0x1000 (i / 16) (by omega)
    rwa [show 0x1000 + i / 16 = (0x10000 + i) / 16 by omega] at this
  have hg : ∀ a, mget withDescriptor.hbm a = if a = 0x1002A then 1 else 0 := by
    intro a
    simp only [withDescriptor, mget, tgetD, tget]
    by_cases h1 : a = 0x1002A
    · simp [h1]
    · rw [if_neg (fun h2 => h1 h2.symm), if_neg h1]
      split <;> rfl
  rw [hk]
  simp only [State.homeByte, State.hbmBlock, ht, if_true]
  rw [mread, List.getD_eq_getElem?_getD, List.getElem?_map, List.getElem?_range (by omega)]
  simp only [Option.map_some, Option.getD_some, hg]
  by_cases h1 : i = 0x2A
  · subst h1; rfl
  · rw [if_neg h1, if_neg (by omega)]

theorem withDescriptor_bytes : withDescriptor.descriptor 2 = (List.range 4096).map (fun i => if i = 0x2A then 1 else 0) := by
  have hr : withDescriptor.reachable 0 { tgt := 0, pa := 0x10000, key := withDescriptor.key0, scope := 3 } = true := by decide +kernel
  have hc : (withDescriptor.ctx 2).cdesc = 0x10000 := by decide +kernel
  rw [State.descriptor, hc, State.homeRead, if_pos hr]
  exact List.map_congr_left (fun i hi => withDescriptor_byte i (by simpa using hi))

theorem take_run (s m n : Nat) : (List.range' s n).take m = List.range' s (min m n) := by
  apply List.ext_getElem <;> simp

/-- A descriptor that CREATE takes (R380): what `good` of ContextsRegistersTimeAndPower asks, on a FREE context. -/
theorem witness_Create :
    let s := withDescriptor
    let bs := s.descriptor 2
    let f := fieldOf bs
    s.hostUp = true ∧ (s.ctx 2).state = .free ∧ (s.ctx 2).cdesc % 4096 = 0 ∧ hbmAssigned (s.ctx 2).cdesc = true ∧
      (f 0 8 % 4096 = 0 ∧ f 8 8 % 65536 = 0 ∧ f 0x10 8 % 65536 = 0 ∧ f 0x18 8 % 65536 = 0) ∧ f 0x28 2 ≤ 4096 ∧ f 0x2A 1 ≠ 0 ∧ f 0x2B 1 ≤ 1 ∧ f 0x2B 1 ≠ 1 ∧
      (∀ b ∈ (bs.drop 0x34).take 204, b = 0) ∧ ∀ b ∈ bs.drop 0x900, b = 0 := by
  have hf : ∀ o n, o + n ≤ 4096 → fieldOf (withDescriptor.descriptor 2) o n = leNat ((List.range' o n).map (fun i => if i = 0x2A then 1 else 0)) := by
    intro o n h
    rw [fieldOf, withDescriptor_bytes, ← List.map_drop, ← List.map_take, List.range_eq_range', List.drop_range', take_run]
    congr 3 <;> omega
  refine ⟨by decide +kernel, by decide +kernel, by decide +kernel, by decide +kernel, ?_, ?_, ?_, ?_, ?_, ?_, ?_⟩
  · simp only [hf _ _ (show 0 + 8 ≤ 4096 by omega), hf _ _ (show 8 + 8 ≤ 4096 by omega), hf _ _ (show 0x10 + 8 ≤ 4096 by omega), hf _ _ (show 0x18 + 8 ≤ 4096 by omega)]
    decide +kernel
  · rw [hf _ _ (by omega)]; decide +kernel
  · rw [hf _ _ (by omega)]; decide +kernel
  · rw [hf _ _ (by omega)]; decide +kernel
  · rw [hf _ _ (by omega)]; decide +kernel
  all_goals
    intro b hb
    rw [withDescriptor_bytes, ← List.map_drop, List.range_eq_range', List.drop_range'] at hb
    simp only [← List.map_take, take_run, List.mem_map, List.mem_range'] at hb
    obtain ⟨i, ⟨j, hj, rfl⟩, rfl⟩ := hb
    rw [if_neg (by omega)]

-- Witnesses of further clauses of the statements they name.

/-- The modes of before are still open to the VE, before an instruction without waits and before one that waits; the ME's first slice and the SE's step beside
a VE that would pop the same ring. -/
theorem witness_StepRunsTheDecodedInstruction_more : holds (
    let e : Entry := { lanes := encode (.vmov 1 2 0 0) }
    let w : Entry := { e with pfx := some 0x02000280 }
    let s := onCore { k := [(5, 1)], stale := [2, 3, 4], oldMode := (0x10003, 0x41), queues := [(2, [e])] }
    let r : Ring := { slotb := 8192, n := 2, count := 1 }
    let mm : Entry := { lanes := encode (.mm 1 2 0 0 1 1 0 0 0 0), issued := true, busy := true, opv := [0, 1, 1, 0, 0] }
    let sc : Entry := { lanes := encode (.scdr 1 0 0 0 0 5 0 0), issued := true, busy := true, opv := [0, 1] }
    let f := fun (v : List Entry) => ((pinned0 (onCore { vshape := 0, kstep := 0x8000, cstep := 0x8000, rings := [(1, r), (2, { r with base := 0x4000 })], queues := [(2, v), (3, [mm]), (4, [sc])] }))).modCore 0 (fun y =>
      { y with arrayOn := true, seat := { y.seat with slots := [(5, { state := .active, nl := 1, ctl := 0x80000000, bankb := 4096 })] } })
    [has (s.mem 0).stale 2 = true, waitsOf e (.vmov 1 2 0 0) = [], waitsOf w (.vmov 1 2 0 0) = [5], has (onCore {}).cm.stale 2 = false, (s.samplesOld 0 2 w (.vmov 1 2 0 0) [5]).1 = false,
      ((s.mem 0).swapMode).scmode = 0x41, ((s.mem 0).swapMode).fpmode % 8 = 3, (f []).ringTaken exec 0 3 = false, (f [{ lanes := encode (.vldr 1 1 0) }]).ringTaken exec 0 3 = true, (f []).ringTaken exec 0 4 = true,
      (f [{ lanes := encode (.vmov 1 2 0 0) }]).ringTaken exec 0 3 = false]) = true := by decide +kernel

/-- A pipelined loop at its first and last run, and an outer loop that ends on the same line. -/
theorem witness_HardwareLoops_more : holds (
    let p : Loop := { lvl := 1, i := 0, e := 3, first := 2, last := 4, stages := 2 }
    let o : Loop := { lvl := 0, i := 0, e := 5, first := 1, last := 4 }
    let m : Member := { lc := [(0, 1), (1, 3)], fetch := { loops := [p, o], rrb := 0, g := 3 } }
    let z : Member := { m with lc := [(0, 1), (1, 4)] }
    [p.stages ≠ 0 ∧ p.lastRun = 4, m.lcOf p.lvl < p.lastRun, p.lastRun ≤ z.lcOf p.lvl, o.last = p.last ∧ o.stages = 0 ∧ z.lcOf o.lvl < o.lastRun, (z.advance 4).fetch.next = 1, (z.advance 4).fetch.rrb = 15,
      (m.advance 4).fetch.rrb = 15 ∧ (m.advance 4).fetch.g = 2, ({ z with fetch := { z.fetch with loops := [p] } } : Member).fetch.loops.tail = []]) = true := by decide +kernel

/-- Work of the handler that is to end before its TRET, and a copy issued before the trap, for which it does not wait. -/
theorem witness_SystemInstructions_more : holds (
    let c : Copy := { ent := { lanes := encode (.xcpy 1 2 3 0 0), seqNo := 3 }, dst := 0x1000, src := 0x1040, len := 64 }
    let h := (onCore { aside := some { eng := 1, seq0 := 5 } } .ce { seqNo := 8 }).modSeat 0 (fun y => { y with copies := [(0, c)] })
    let w := h.modSeat 0 (fun y => { y with copies := [(1, { c with ent := { c.ent with seqNo := 5 } })] })
    [(h.cm.aside.map (fun x => x.seq0)) = some 5, h.pendingIn 0 5 9 = false, w.pendingIn 0 5 9 = true, h.pendingBefore 0 9 = true]) = true := by decide +kernel

/-- Reserved bits of each register at the ends of their fields. -/
theorem witness_SystemRegisters_more : holds
    [bits (2 ^ 15) 15 8 ≠ 0, bits (2 ^ 7) 15 8 = 0 ∧ bits (2 ^ 7) 41 38 = 0 ∧ bits (2 ^ 7) 63 48 = 0, bits 8 3 3 ≠ 0, bits (2 ^ 16) 63 16 ≠ 0, bits (2 ^ 9) 9 0 ≠ 0, (2 ^ 32 : Nat) ≤ 2 ^ 32, (8 : Nat) ≤ 8, (256 : Nat) ≤ 256,
      bit (2 ^ 17) 17 = true, isSeq (onSeq {}).cur.core = true] = true := by decide +kernel

/-- An eligible cause in a member and in a sequencer's, a handler running, and a BWAIT that waits. -/
theorem witness_TrapDelivery_more : holds (
    let k : Kernel := { hl := some 7, hmask := 0x200 }
    [(0x90 : Nat) / 16 = 9 ∧ bit k.hmask 9 = true, (0x1F : Nat) / 16 = 1 ∧ (0x4F : Nat) / 16 = 4 ∧ (0x20 : Nat) / 16 ≠ 1, isSeq 0 = false, isSeq 512 = true, ({ aside := some { eng := 0 } } : Member).aside ≠ none,
      ({ kern := k } : Member).kern.hl = some 7 ∧ ({} : Member).kern.hl = none]) = true := by decide +kernel

/-- A slot of the context and one of another; a place of a descriptor past SLABN, and one whose walk fails. -/
theorem witness_ContextImages_more : holds (
    let x : Slot := { state := .resident, ctx := 0, nl := 0, bankb := 64 }
    let t : Seat := { slots := [(4, x), (5, { x with ctx := 3 })] }
    let m := (mapped (onSeq (sregs [4, 64]))).modCtx 0 (fun x => { x with slabt := 0, slabn := 4 })
    let n := m.modCtx 0 (fun x => { x with slabt := 0x40000000 })
    [(t.imaged 0).slots.map (·.1) = [4], (t.imaged 3).slots.map (·.1) = [5], (m.slabPlace 512 0 4).1 = none, (n.slabPlace 512 0 3).1 = none, m.rn 1 < 2 ^ 20 ∧ (m.ctx (m.rn 1 / 4096)).state ≠ .free, m.rn 2 % 64 = 0]) = true := by decide +kernel

/-- A BWAIT registered for the barrier itself and for another; an answer at the port before and after its strict time. -/
theorem witness_BarrierInstructionsIssue_more : holds (
    let s := onCore {}
    let w := s.modCore 0 (fun k => { k with bwait := some { owner := 0, off := 0, gen := 1, late := false, bar := 5 } })
    let r : PortReq := { owner := 0, off := 0, op := .bwait none false, ent := { pad := 9 }, done := true }
    let u := s.modCore 0 (fun k => { k with cfg := 2, port := some r })
    [(w.core 0).bwait.all (fun r => r.bar != 4), (w.core 0).bwait.any (fun r => r.bar == 5), u.padOver 0 r.ent = none, (u.padOver 0 { r.ent with pad := 0 }).isSome, (s.padOver 0 r.ent).isSome,
      (onSeq {} |>.modCore 512 (fun y => { y with seqctx := 255 })).barrierCtx.toOption = none]) = true := by decide +kernel

/-- Finite operands: an ordinary one, +0 and -0. -/
theorem witness_VectorElements_more : holds
    [(match fmtF32.val false 0x3F800000 with | .fin x => !x.isZero | _ => false), (match fmtF32.val false 0x80000000 with | .fin x => x.isZero && x.neg | _ => false),
      (match fmtF32.val true 1 with | .fin x => x.isZero | _ => false), (match fmtE4m3.val false 1 with | .fin x => !x.isZero | _ => false)] = true := by decide +kernel

/-- MM and MMC that each check of R253 stops and that pass all: a rectangle past the SRAM, a block that leaves the mesh or holds no member. -/
theorem witness_MatrixProductsIssue_more : holds (
    let r : Ring := { slotb := 64, n := 2, count := 1 }
    let s := onCore { rings := [(1, r), (2, r)], kern := { fmts := [{}] } } .me
    let o : MmOp := { qa := 1, qb := 2, md := 0, fi := 0, ta := 1, tb := 1, m := 1, n := 1, k := 1, acc := 0 }
    let t := s.modCore 1 (fun y => { y with seat := { y.seat with present := true, mem := { group := s.cm.group } } })
    let last := s.modCore 63 (fun y => { y with status := .running, seat := (s.core 0).seat })
    [s.mmCheck o 1 1 = none, s.mmCheck { o with k := 33 } 1 1 = some 0x51, s.mmCheck { o with k := 32 } 1 1 = none, s.mmCheck { o with acc := 16384 } 1 1 = some 0x12, s.mmCheck { o with qb := 7 } 1 1 = some 0x50,
      { o with coop := true, c := 2 }.block 0 = some [0, 1], s.mmCheck { o with coop := true, c := 2 } 1 1 = some 0x62, t.mmCheck { o with coop := true, c := 2 } 1 1 = none, { o with coop := true, c := 3 }.block 7 = none,
      last.ue = []]) = true := by decide +kernel

/-- A slice of accumulate mode 2 with another to come and the last one; a word of an armed pair; a block of two cores whose products agree, and differ, and one
of which has not issued. -/
theorem witness_MatrixSlice_more : holds (
    let r : Ring := { slotb := 64, n := 2, count := 2 }
    let f := fun (md k : Nat) => ((pinned0 (onCore { rings := [(1, r), (2, { r with base := 256 })], kstep := 0x8000, queues := [(3, [{ lanes := encode (.mm 1 2 md 0 1 1 0 0 k 0), issued := true, busy := true, opv := [0, 1, 1, 0, 0] }])] } .me))).modCore 0
      (fun y => { y with arrayOn := true, cfg := 1 })
    let a := (f 0 0).modSeat 0 (fun y => { y with armed := [0] })
    let en : Entry := { lanes := encode (.mmc 1 2 0 0 1 1 0 0 0 0 0 1), issued := true, busy := true, opv := [0, 1, 1, 0, 0] }
    let m : Member := { rings := [(1, r), (2, { r with base := 256 })], kstep := 0x8000, queues := [(3, [en])] }
    let both := fun (x : Entry) => ((pinned0 (onCore m .me)).modCore 1 (fun y => { y with status := .running, arrayOn := true, seat := { y.seat with present := true, mem := { m with queues := [(3, [x])], group := (onCore m).cm.group } } })).modCore 0 (fun y => { y with arrayOn := true })
    let s := both en
    let n := both { en with issued := false, busy := false }
    let d := both { en with lanes := encode (.mmc 1 2 0 0 1 1 0 15 0 0 0 1) }
    let op := fun (s : State) (k : Nat) => (s.mmBusy k).map (fun x => x.2)
    [((f 2 16).mmBusy 0).map (fun p => (p.2.md, p.2.slices)) = some (2, 2), ((f 2 0).mmBusy 0).map (fun p => (p.2.md, p.2.slices)) = some (2, 1), (a.seat 0).isArmed 0 4 = true ∧ (a.seat 0).isArmed 16 4 = false,
      (op s 0).bind (fun o => o.block 0) = some [0, 1], (op s 1).map (fun o => o.coop) = some true, op n 1 = none, (match op s 0, op s 1 with | some o, some p => o.sameAs p [0, 1, 1, 0, 0] [0, 1, 1, 0, 0] | _, _ => false),
      (match op d 0, op d 1 with | some o, some p => !o.sameAs p [0, 1, 1, 0, 0] [0, 1, 1, 0, 0] | _, _ => false), s.slotReady 0 1 0 = true ∧ s.unpinned 0 [(r.headAddr 0, 64)] = [], (s.core 1).arrayOn = true ∧ (s.seat 1).armed = [] ∧ (s.seat 1).acc.wf = true]) = true := by decide +kernel

/-- Each answer of the check of a scan, with a record and a panel to pass and without; a ring unbound, too small and large enough. -/
theorem witness_ScanInstructionsIssue_more : holds (
    let r : Ring := { slotb := 8192, n := 2, count := 1 }
    let x : Slot := { state := .resident, nl := 1, ctl := 0x80000000, bankb := 4096 }
    let f := fun (x : Slot) => (pinned0 (onCore { rings := [(1, r), (2, { r with count := 0 }), (3, { r with slotb := 64 })] } .se)).modSeat 0 (fun y => { y with slots := [(5, x)] })
    let s := f x
    let o : ScanOp := { op := 0, qi := 1, qo := 2, emit := true, flip := true, g := 0, slot := 5, lay := 0, n := 1 }
    let m := s.scanMd
    let b := (s.modSeat 0 (fun y => { y with armed := [16] }))
    [s.scanCheck o m = none, s.scanCheck { o with lay := 2 } m = some 0x72, s.scanCheck { o with g := 1 } m = some 0x72, s.scanCheck { o with qo := 9 } m = some 0x50, s.scanCheck { o with qi := 3 } m = some 0x51,
      s.scanCheck { o with qo := 3 } m = some 0x51, (f { x with wset := [(0, [0])] }).scanCheck o m = some 0x70, (f { x with pn := [(0, 2)] }).scanCheck o m = some 0x70, (f { x with pn := [(0, 1)] }).scanCheck o m = none,
      s.scanCheck { o with op := 3, n := 2 } m = none, s.scanCheck { o with op := 3, n := 3 } m = some 0x51, (b.seat 0).isArmed (16 + 4 * 0) 4 = true, (s.seat 0).isArmed 16 4 = false, s.accNat 0 16 4 = 0, o.qi ≠ o.qo,
      ringCheck none 1 1 = some 0x50, ringCheck (some r) 8192 2 = none, ringCheck (some r) 8193 2 = some 0x51]) = true := by decide +kernel

/-- A last step with EMIT and FLIP: the place at the port free and taken. -/
theorem witness_ScanSteps_more : holds (
    let r : Ring := { slotb := 8192, n := 2, count := 1 }
    let x : Slot := { state := .active, nl := 1, ctl := 0x80000000, bankb := 4096 }
    let s := ((pinned0 (onCore { cstep := 0x8000, rings := [(1, r), (2, r)], queues := [(4, [{ lanes := encode (.scdr 1 2 1 1 0 5 0 0), issued := true, busy := true, opv := [0, 1] }])] } .se)).modSeat 0 (fun y => { y with slots := [(5, x)] })).modCore 0 (fun y =>
      { y with pages := [(0, { ctx := 0, page := 0, state := .pinned })] })
    let t := s.modCore 0 (fun y => { y with port := some { owner := 0, off := 0, op := .barv, ent := {} } })
    [(s.scanBusy 0).map (fun p => (p.2.emit, p.2.flip, p.2.n)) = some (true, true, 1), s.placeTaken 0 = false, t.placeTaken 0 = true, r.canPop 1 = true ∧ r.canPush 1 = true, ({ r with count := 2 } : Ring).canPush 1 = false,
      s.present? 0 (r.headRanges 1 ++ r.tailRanges 1) = none, (s.seat 0).isArmed 16 4 = false]) = true := by decide +kernel

/-- Transfers of one unit, before and behind each other; a transfer and a copy under STRICT, before, at and after their time; a sequencer's copy inside a page. -/
theorem witness_TransferEvents_more : holds (
    let l : Loc := { tgt := 0, pa := 0x40001000, key := 7, scope := 3, va := 0x1000 }
    let mv : Move := { src := .dev 0x1000 l, dst := .scratch 0, len := 64 }
    let e : Entry := { lanes := encode (.xld 1 2 3), issued := true, moves := some [mv, { mv with dst := .scratch 64 }] }
    let s := fun (t : Nat) => { ((mapped (onCore { flight := [(5, [e, e])] })).modCore 0 (fun y => { y with cfg := 2 })) with time := { ptc := t } }
    let c : Copy := { ent := {}, dst := 0x2000, src := 0x1FC0, len := 128, srcLoc := some (0, l), dstLoc := some (0, l) }
    let q := onSeq {}
    [mv.meets mv = true, mv.meets { mv with src := .dev 0x2000 { l with pa := 0x40002000 }, dst := .scratch 64 } = false, ((s 0).leftBefore 0 5 1).any mv.meets = true, (s 0).leftBefore 0 5 0 = [],
      ((s 0).strictAt 0 5).isNone, ((s 5).strictAt 0 5).isSome, ((s 6).strictAt 0 5).isSome, (s 0).strict 0 = true, ((s 0).strictDue 0 none).isSome, mv.far? = false, ({ mv with src := .dev 0x1000 { l with tgt := 1 } } : Move).far? = true,
      c.moved.done = 64 ∧ c.moved.srcLoc = none ∧ c.moved.dstLoc = some (0, l.add 64), isSeq 512 = true, (q.copyMove 512 c).1.isOk]) = true := by decide +kernel

/-- A result whose receiver has an older collective that is still to read where it goes; one before its strict time; a group with no live member left. -/
theorem witness_Collectives_more : holds (
    let e : Entry := { lanes := encode (.cbcast 1 2 0 0 0), issued := true, opv := [0, 64, 128, 0], moves := some [] }
    let s := onCore { flight := [(6, [e])], chans := [(0, { issued := 1 })] } .xs
    let G : Group := { s.group 0 with d := 1, c := 1, alive := [0] }
    let n : Inst := { team := 0, ch := 1, k := 0, t0 := 0, dsts := [(0, 64)], data := [(0, [1, 2])] }
    let h := (s.modMem 0 (fun m => { m with status := .halted 0x92 }))
    let st := s.modCore 0 (fun y => { y with cfg := 2 })
    [s.sourceHeld G { n with behind := [(0, 0, 0)] } (0, 64) = true, s.sourceHeld G { n with behind := [(0, 0, 0)] } (0, 1024) = false, s.sourceHeld G n (0, 64) = false, n.fail = 0 ∧ st.ptc < n.t0 + 4000 ∧ st.strict 0 = true,
      h.liveOf G = [], s.liveOf G = [0]]) = true := by decide +kernel

end

end Sys2Proof.Tests
end

/-! Issue: what the decoder accepts, how the head of a stream is chosen to execute, and a step that runs it (03 R88, 05 R138, 06 R162, 01 R29). -/

namespace Sys2Proof.IssueProofs
open Sys2Proof Sys2Proof.Machine

/-- The rows that an engine's decoder tries are instructions of that engine. -/
theorem rowsOf_all_engineOf (g : Eng) (op h c e : Nat) : (rowsOf g op h c e).all (fun i => engineOf i == some g) = true := by
  cases g <;> simp only [rowsOf]
  case ce => unfold rowsCe; split <;> rfl
  case ve => unfold rowsVe; split <;> rfl
  case me => unfold rowsMe; split <;> rfl
  case se => unfold rowsSe; split <;> rfl
  case xl => unfold rowsXl; split <;> rfl
  case xs => unfold rowsXs; split <;> rfl
  case ke => unfold rowsKe; split <;> rfl

theorem engineOf_of_mem_rowsOf {g : Eng} {op h c e : Nat} {i : Instr} (hi : i ∈ rowsOf g op h c e) : engineOf i = some g :=
  eq_of_beq (List.all_eq_true.mp (rowsOf_all_engineOf g op h c e) i hi)

/-- What the decoder accepts is a row of its engine for the head lane's opcode, well-formed and with these lanes as its encoding (03 R83, R88). -/
theorem decode_ok {g : Eng} {ls : List Lane} {i : Instr} (h : decode g ls = .ok i) :
    engineOf i = some g ∧ wellFormed i = true ∧ encode i = ls := by
  unfold decode at h
  split at h
  · cases h
  · split at h
    · cases h
    · split at h
      · split at h
        · next hf =>
          cases h
          have hp := List.find?_some hf
          simp only [Bool.and_eq_true, beq_iff_eq] at hp
          exact ⟨engineOf_of_mem_rowsOf (List.mem_of_find?_eq_some hf), hp⟩
        · cases h
      · cases h

/-- STAGE and ROTB, which run whatever their predicate (05 R138). -/
def NeverSquashed (i : Instr) : Prop :=
  (∃ n, i = .stage n) ∨ (∃ a n, i = .stageSet a n) ∨ ∃ a n, i = .rotb a n

/-- They stand under opcodes 0x4B and 0x4C of the CE, by which the model's issue tells them. -/
theorem opOf_of_neverSquashed {g : Eng} {ls : List Lane} {i : Instr} (h : decode g ls = .ok i) (hi : NeverSquashed i) :
    g = .ce ∧ (opOf (ls.headD 0).toNat = 0x4B ∨ opOf (ls.headD 0).toNat = 0x4C) := by
  obtain ⟨hg, hw, rfl⟩ := decode_ok h
  obtain ⟨n, rfl⟩ | ⟨a, n, rfl⟩ | ⟨a, n, rfl⟩ := hi
  all_goals
    have hr := of_decide_eq_true hw
    refine ⟨(Option.some.inj hg).symm, ?_⟩
    simp only [encode, encodeNat, List.map_cons, List.headD_cons, opOf, BitVec.toNat_ofNat]
    omega

/-- A head that passes checks 1 to 4 of R88 and is not squashed is to execute, with its own waits. -/
theorem planOf_of_decode_ok {c : Nat} {g : Eng} {e : Entry} {i : Instr} (hd : decode g e.lanes = .ok i)
    (hpriv : privileged g (opOf (e.lanes.headD 0).toNat) = true → isSeq c = true) (hpfx : ∀ p, e.pfx = some p → p.toNat < 2 ^ 28)
    (hkept : e.stamp.pred = true ∨ NeverSquashed i) :
    planOf c g e = .run i (waitsOf e i) := by
  have hp : ¬(privileged g (opOf (e.lanes.headD 0).toNat) && !isSeq c) = true := by simpa using hpriv
  have hx : ¬268435456 ≤ (e.pfx.map (fun p => p.toNat)).getD 0 := by
    cases he : e.pfx with
    | none => decide
    | some p => exact Nat.not_le.mpr (hpfx p he)
  have hs : ¬(e.stamp.pred = false ∧ ¬(g = .ce ∧ (opOf (e.lanes.headD 0).toNat = 0x4B ∨ opOf (e.lanes.headD 0).toNat = 0x4C))) := by
    rintro ⟨hf, hn⟩
    rcases hkept with ht | hi
    · simp [ht] at hf
    · exact hn (opOf_of_neverSquashed hd hi)
  simp only [planOf, hd, if_neg hp, if_neg hx, if_neg hs]

/-- A turn of the agenda that is the issue of an engine: what the engine does, and the end of the turn. -/
theorem step_of_issue {s : State} {rest : List Turn} {y : Turn} {c : Nat} {g : Eng} (ha : s.agenda = y :: rest) (hy : y.act = .issue c g) :
    step s = endTurn ((({ s with agenda := rest } : State).open y).issue exec c g) := by
  simp only [step, State.turn, State.takeTurn, State.act, ha, hy]

/-- A head that is to execute, with nothing in its way, runs once those that it passes over are senior. -/
theorem issue_of_run {run : Exec} {s : State} {c : Nat} {g : Eng} {e : Entry} {i : Instr} {ws : List Nat}
    (hmay : s.mayIssue c = true) (hhead : (s.mem c).headOf (engCode g) = some e) (hnew : e.issued = false) (hplan : planOf c g e = .run i ws)
    (hhaz : s.hazard c (engCode g) e = false) (hcov : (s.mem c).covered ws = true) (hlost : has (s.losers run c ws) (engCode g) = false)
    (hring : s.ringTaken run c (engCode g) = false) :
    s.issue run c g = (s.makeSenior c (s.passedBy run c (engCode g) ws)).runHead run c g e i ws := by
  simp [State.issue, hmay, hhead, hnew, hplan, hhaz, hcov, hlost, hring]

/-- An engine that is not stale samples the modes as they stand, and nothing changes. -/
theorem samplesOld_of_not_stale {s : State} {c k : Nat} (e : Entry) (i : Instr) (ws : List Nat) (h : has (s.mem c).stale k = false) :
    s.samplesOld c k e i ws = (false, s) := by
  simp [State.samplesOld, h]

/-- An instruction of a stale engine that waits for tokens samples the modes as they stand, and its engine is stale no longer. -/
theorem samplesOld_of_waits {s : State} {c k : Nat} {e : Entry} (i : Instr) {ws : List Nat} (hnew : e.issued = false)
    (h : has (s.mem c).stale k = true) (hw : ws ≠ []) :
    s.samplesOld c k e i ws = (false, s.modMem c (fun m => { m with stale := m.stale.filter (fun h => h != k) })) := by
  simp [State.samplesOld, hnew, h, hw]

/-- An instruction samples the modes of before only by a free bit, the members being as they were. -/
theorem samplesOld_true_mem {s : State} {c k : Nat} {e : Entry} {i : Instr} {ws : List Nat} (h : (s.samplesOld c k e i ws).1 = true) (j : Nat) :
    (s.samplesOld c k e i ws).2.mem j = s.mem j := by
  unfold State.samplesOld at h ⊢
  split at h
  case isTrue => cases h
  case isFalse hstale =>
    split at h
    case isTrue => cases h
    case isFalse hwaits => rw [if_neg hstale, if_neg hwaits]; rfl

/-- A number that is filtered out of a list is not in it. -/
theorem has_filter_ne (l : List Nat) (k : Nat) : has (l.filter (fun h => h != k)) k = false := by
  simp [has]

/-- Bits 7:0 of FPMODE, its modes, come from the value of before. -/
theorem swapMode_fpmode_low (m : Member) : m.swapMode.fpmode % 2 ^ 8 = m.oldMode.1 % 2 ^ 8 := by
  simp only [Member.swapMode]; omega

/-- Bits 13:8 of FPMODE, the sticky flags, stay. -/
theorem swapMode_fpmode_flags (m : Member) : m.swapMode.fpmode / 2 ^ 8 % 2 ^ 6 = m.fpmode / 2 ^ 8 % 2 ^ 6 := by
  simp only [Member.swapMode, bits]; omega

/-- The bits of FPMODE from 14 up come from the value of before. -/
theorem swapMode_fpmode_high (m : Member) : m.swapMode.fpmode / 2 ^ 14 = m.oldMode.1 / 2 ^ 14 := by
  simp only [Member.swapMode, bits]; omega

/-- What follows an instruction's meaning where it gives a next state; a stop stands. -/
def andThen (o : Out) (f : State → State) : Out :=
  match o with
  | .next t => .next (f t)
  | o => o

/-- Under the modes as they stand: the meaning, and then what becomes of entry and tokens. -/
theorem runHead_of_new {run : Exec} {s : State} {c : Nat} {g : Eng} {e : Entry} {i : Instr} {ws : List Nat}
    (h : (s.samplesOld c (engCode g) e i ws).1 = false) :
    s.runHead run c g e i ws = andThen (run i ((s.samplesOld c (engCode g) e i ws).2.setCur c g e)) (fun t => t.settle ws) := by
  simp only [State.runHead, h]
  rfl

/-- Under the modes of before: these change places with the new ones before the meaning and again after it. -/
theorem runHead_of_old {run : Exec} {s : State} {c : Nat} {g : Eng} {e : Entry} {i : Instr} {ws : List Nat}
    (h : (s.samplesOld c (engCode g) e i ws).1 = true) :
    s.runHead run c g e i ws =
      andThen (run i (((s.samplesOld c (engCode g) e i ws).2.modMem c Member.swapMode).setCur c g e))
        (fun t => (t.modMem c Member.swapMode).settle ws) := by
  simp only [State.runHead, h]
  rfl

/-- Settles O6: the turn is the issue, the issue is the run of the head, and the free value of R29 says under which modes. -/
theorem stepRunsTheDecodedInstruction : Obligations.StepRunsTheDecodedInstruction := by
  intro s rest y c g e i ha hy s1 ws k hmay hhead hnew hd hpriv hpfx hkept hhaz hcov hlost hring s2 r
  have hstep : step s = endTurn (s2.runHead exec c g e i ws) := by
    rw [step_of_issue ha hy, issue_of_run hmay hhead hnew (planOf_of_decode_ok hd hpriv hpfx hkept) hhaz hcov hlost hring]
  refine ⟨fun hs => samplesOld_of_not_stale e i ws hs, fun hs hw => ?waits, fun hr => ?new, fun hr => ?old⟩
  case waits =>
    have hr : r = _ := samplesOld_of_waits i hnew hs hw
    rw [hr]
    simp [has_filter_ne]
  case new =>
    rw [hstep, runHead_of_new hr]
    congr 1
    cases exec i (r.2.setCur c g e) <;> rfl
  case old =>
    have hm : (r.2.modMem c Member.swapMode).mem c = (s2.mem c).swapMode := by
      rw [State.modMem_mem, samplesOld_true_mem hr]
    intro m
    rw [show m = (s2.mem c).swapMode from hm]
    refine ⟨rfl, swapMode_fpmode_low _, swapMode_fpmode_high _, swapMode_fpmode_flags _, ?_⟩
    rw [hstep, runHead_of_old hr]
    congr 1
    cases exec i ((r.2.modMem c Member.swapMode).setCur c g e) <;> rfl

end Sys2Proof.IssueProofs
